-- ==== Sys2Proof/Word.lean ====
section
/-! DEFINITION. The word types of the Ploeratar and their plainest arithmetic (R3, R8). -/

namespace Sys2Proof

/-- A 64-bit general-register value, token data word or address. -/
abbrev Word := BitVec 64

/-- A 32-bit instruction or element word (R32, R46). -/
abbrev Word32 := BitVec 32

/-- A byte of memory, a bank or a beacon buffer. -/
abbrev Byte := BitVec 8

/-- A number of a 5-bit general-register field, g0 to g31 (R34). -/
abbrev Reg := Fin 32

/-- A number of a 4-bit capability-register field, c0 to c15 (R34). -/
abbrev CReg := Fin 16

/-- A sparse table: keys strictly rising; an absent key reads as the table's default. -/
abbrev Table (α : Type) := List (Nat × α)

end Sys2Proof
end

