-- ==== Sys2Proof/Syntax.lean ====
section
/-! DEFINITION. The instructions of the Ploeratar: one constructor per row of spec/opcode_table.json.
Helm instructions have their mnemonic's name, element words begin with `el`, matrix operations with
`mx`, and the steps without an encoding (events) with `ev`; an event's operands name the object it
acts on. The order is helm, matrix, events, elements. -/

namespace Sys2Proof

/-- The scope codes of R36. -/
inductive Scope where
  | lane | element | tile | group | layer | stack | package | system
deriving DecidableEq, Repr

/-- The access types of LDC (R40). -/
inductive LoadType where
  | n8 | n16 | n32 | n64 | i8 | i16 | i32
deriving DecidableEq, Repr

/-- The access types of STC (R40). -/
inductive StoreType where
  | n8 | n16 | n32 | n64
deriving DecidableEq, Repr

/-- The width of a helm atomic (R40). -/
inductive AmoWidth where
  | n64 | n32
deriving DecidableEq, Repr

/-- The scopes a helm atomic may name (R40). -/
inductive AmoScope where
  | tile | package
deriving DecidableEq, Repr

/-- The scopes BINIT may name (R41). -/
inductive BarScope where
  | tile | group | stack | package
deriving DecidableEq, Repr

/-- The modes of LDISC (R278). -/
inductive LdiscMode where
  | discard | lastuse
deriving DecidableEq, Repr

/-- The k registers of R209. -/
inductive KReg where
  | status | tid | cycle | rxsb | tvec | epc | ecause | eval | ylim | snapint | faultq | govstall
deriving DecidableEq, Repr

/-- The fields of an element word below its opcode (R46). -/
structure ElemArgs where
  /-- FSEL, the entry of the block's profile. -/
  fsel : Fin 8
  /-- REP, the replication code. -/
  rep : Fin 8
  /-- CX, the first consumer. -/
  cx : BitVec 9
  /-- CY, the second consumer. -/
  cy : BitVec 9
deriving DecidableEq, Repr

/-- The fields of a matrix control token above its operation (R59). -/
structure MatArgs where
  /-- M, in native block units. -/
  m : BitVec 8
  /-- N, in native block units. -/
  n : BitVec 8
  /-- K, in native block units. -/
  k : BitVec 8
  /-- BUF, the accumulator buffer. -/
  buf : BitVec 2
  /-- ACC, accumulate into the buffer. -/
  acc : Bool
  /-- CHAIN, A is read from the other buffer. -/
  chain : Bool
  /-- BT, B transposed. -/
  bt : Bool
  /-- DCVT, the down-convert format. -/
  dcvt : BitVec 3
deriving DecidableEq, Repr

/-- A message channel: where it lives and its number (R229). -/
inductive ChanId where
  | tile (p n : Nat)
  | group (g n : Nat)
  | stack (x k n : Nat)
  | package (x n : Nat)
  | core (n : Nat)
deriving DecidableEq, Repr

/-- A barrier's counting instance, its home (R355). -/
inductive HomeId where
  | tile (p b : Nat)
  | group (g b : Nat)
  | stack (x k b : Nat)
  | package (x b : Nat)
deriving DecidableEq, Repr

/-- The parties that stop a group (R339). -/
inductive Holder where
  | guest | hyper | pilot
deriving DecidableEq, Repr

/-- A unit that caches translations and acknowledges a TLBINV (R375). -/
inductive Translator where
  | axlat (p n : Nat)
  | helm (p u : Nat)
  | walker (k : Nat)
deriving DecidableEq, Repr

/-- A unit that reports ready (R429). -/
inductive UnitId where
  | layer (l : Nat)
  | port (l i : Nat)
  | base (k : Nat)
  | lodestone
deriving DecidableEq, Repr

/-- The instructions, element operations, matrix operations and events of the opcode table. -/
inductive Instr where
  /-- ADD, R217. -/
  | add (d a b : Reg)
  /-- SUB, R217. -/
  | sub (d a b : Reg)
  /-- AND, R217. -/
  | and (d a b : Reg)
  /-- OR, R217. -/
  | or (d a b : Reg)
  /-- XOR, R217. -/
  | xor (d a b : Reg)
  /-- ANDN, R217. -/
  | andn (d a b : Reg)
  /-- SLL, R217. -/
  | sll (d a b : Reg)
  /-- SRL, R217. -/
  | srl (d a b : Reg)
  /-- SRA, R217. -/
  | sra (d a b : Reg)
  /-- MIN, R217. -/
  | min (d a b : Reg)
  /-- MAX, R217. -/
  | max (d a b : Reg)
  /-- MINU, R217. -/
  | minu (d a b : Reg)
  /-- MAXU, R217. -/
  | maxu (d a b : Reg)
  /-- CLZ, R217. -/
  | clz (d a : Reg)
  /-- CTZ, R217. -/
  | ctz (d a : Reg)
  /-- POPC, R217. -/
  | popc (d a : Reg)
  /-- BILV, R217. -/
  | bilv (d a b : Reg)
  /-- BDLV, R217. -/
  | bdlv (d a : Reg)
  /-- SEQ, R217. -/
  | seq (d a b : Reg)
  /-- SNE, R217. -/
  | sne (d a b : Reg)
  /-- SLT, R217. -/
  | slt (d a b : Reg)
  /-- SLTU, R217. -/
  | sltu (d a b : Reg)
  /-- SLE, R217. -/
  | sle (d a b : Reg)
  /-- SLEU, R217. -/
  | sleu (d a b : Reg)
  /-- SEL, R217. -/
  | sel (d a b : Reg)
  /-- MUL, R217. -/
  | mul (d a b : Reg)
  /-- MULHI, R217. -/
  | mulhi (d a b : Reg)
  /-- MULHIU, R217. -/
  | mulhiu (d a b : Reg)
  /-- DIV, R217. -/
  | div (d a b : Reg)
  /-- DIVU, R217. -/
  | divu (d a b : Reg)
  /-- REM, R217. -/
  | rem (d a b : Reg)
  /-- REMU, R217. -/
  | remu (d a b : Reg)
  /-- ADDI, R218. -/
  | addi (d a : Reg) (i : BitVec 16)
  /-- ANDI, R218. -/
  | andi (d a : Reg) (i : BitVec 16)
  /-- ORI, R218. -/
  | ori (d a : Reg) (i : BitVec 16)
  /-- XORI, R218. -/
  | xori (d a : Reg) (i : BitVec 16)
  /-- SLTI, R218. -/
  | slti (d a : Reg) (i : BitVec 16)
  /-- SLTIU, R218. -/
  | sltiu (d a : Reg) (i : BitVec 16)
  /-- LUI, R218. -/
  | lui (d : Reg) (i : BitVec 16)
  /-- SLLI, R218. -/
  | slli (d a : Reg) (n : BitVec 6)
  /-- SRLI, R218. -/
  | srli (d a : Reg) (n : BitVec 6)
  /-- SRAI, R218. -/
  | srai (d a : Reg) (n : BitVec 6)
  /-- BFX, R219. -/
  | bfx (d a : Reg) (p l : BitVec 6)
  /-- BFI, R219. -/
  | bfi (d a : Reg) (p l : BitVec 6)
  /-- BEQ, R221. -/
  | beq (a b : Reg) (o : BitVec 16)
  /-- BNE, R221. -/
  | bne (a b : Reg) (o : BitVec 16)
  /-- BLT, R221. -/
  | blt (a b : Reg) (o : BitVec 16)
  /-- BGE, R221. -/
  | bge (a b : Reg) (o : BitVec 16)
  /-- BLTU, R221. -/
  | bltu (a b : Reg) (o : BitVec 16)
  /-- BGEU, R221. -/
  | bgeu (a b : Reg) (o : BitVec 16)
  /-- J, R221. -/
  | j (o : BitVec 26)
  /-- JAL, R221. -/
  | jal (o : BitVec 26)
  /-- CJR, R222. -/
  | cjr (a : CReg)
  /-- CJALR, R222. -/
  | cjalr (d a : CReg)
  /-- CCALL, R222. -/
  | ccall (a d : CReg)
  /-- LDC, R223. -/
  | ldc (t : LoadType) (b : Reg) (a : CReg) (i : BitVec 13)
  /-- STC, R223. -/
  | stc (t : StoreType) (b : Reg) (a : CReg) (i : BitVec 13)
  /-- LDCC, R252. -/
  | ldcc (d a : CReg) (i : BitVec 13)
  /-- STCC, R252. -/
  | stcc (d a : CReg) (i : BitVec 13)
  /-- AMOSWAP, R225. -/
  | amoswap (w : AmoWidth) (c : AmoScope) (d b : Reg) (a : CReg)
  /-- AMOADD, R225. -/
  | amoadd (w : AmoWidth) (c : AmoScope) (d b : Reg) (a : CReg)
  /-- AMOAND, R225. -/
  | amoand (w : AmoWidth) (c : AmoScope) (d b : Reg) (a : CReg)
  /-- AMOOR, R225. -/
  | amoor (w : AmoWidth) (c : AmoScope) (d b : Reg) (a : CReg)
  /-- AMOXOR, R225. -/
  | amoxor (w : AmoWidth) (c : AmoScope) (d b : Reg) (a : CReg)
  /-- AMOMIN, R225. -/
  | amomin (w : AmoWidth) (c : AmoScope) (d b : Reg) (a : CReg)
  /-- AMOMAX, R225. -/
  | amomax (w : AmoWidth) (c : AmoScope) (d b : Reg) (a : CReg)
  /-- AMOMINU, R225. -/
  | amominu (w : AmoWidth) (c : AmoScope) (d b : Reg) (a : CReg)
  /-- AMOMAXU, R225. -/
  | amomaxu (w : AmoWidth) (c : AmoScope) (d b : Reg) (a : CReg)
  /-- AMOCAS, R225. -/
  | amocas (w : AmoWidth) (c : AmoScope) (d b : Reg) (a : CReg)
  /-- CSETBOUNDS, R249. -/
  | csetbounds (d a : CReg) (b : Reg)
  /-- CSETBOUNDSX, R249. -/
  | csetboundsx (d a : CReg) (b : Reg)
  /-- CINCADDR, R250. -/
  | cincaddr (d a : CReg) (b : Reg)
  /-- CSETADDR, R250. -/
  | csetaddr (d a : CReg) (b : Reg)
  /-- CANDPERM, R248. -/
  | candperm (d a : CReg) (b : Reg)
  /-- CSEAL, R248. -/
  | cseal (d a b : CReg)
  /-- CUNSEAL, R248. -/
  | cunseal (d a b : CReg)
  /-- CMOVE, R248. -/
  | cmove (d a : CReg)
  /-- CCLRTAG, R248. -/
  | cclrtag (d a : CReg)
  /-- CGETADDR, R251. -/
  | cgetaddr (b : Reg) (a : CReg)
  /-- CGETBASE, R251. -/
  | cgetbase (b : Reg) (a : CReg)
  /-- CGETLEN, R251. -/
  | cgetlen (b : Reg) (a : CReg)
  /-- CGETPERM, R251. -/
  | cgetperm (b : Reg) (a : CReg)
  /-- CGETTAG, R251. -/
  | cgettag (b : Reg) (a : CReg)
  /-- CGETSEAL, R251. -/
  | cgetseal (b : Reg) (a : CReg)
  /-- CTESTSUB, R251. -/
  | ctestsub (b : Reg) (a d : CReg)
  /-- CFITLEN, R251. -/
  | cfitlen (b : Reg)
  /-- CFITEXP, R251. -/
  | cfitexp (b : Reg)
  /-- CINCADDRI, R248. -/
  | cincaddri (d a : CReg) (i : BitVec 13)
  /-- CSETBOUNDSI, R248. -/
  | csetboundsi (d a : CReg) (i : BitVec 13)
  /-- SLOAD, R227. -/
  | sload (d : Reg) (a : CReg) (n : BitVec 6)
  /-- SSEED, R227. -/
  | sseed (a : Reg) (n : BitVec 6)
  /-- SSEND, R227. -/
  | ssend (a : Reg) (n : BitVec 6)
  /-- SRECV, R227. -/
  | srecv (d : Reg) (n : BitVec 6)
  /-- SDRAIN, R227. -/
  | sdrain (n : BitVec 6)
  /-- SBAR, R228. -/
  | sbar
  /-- MSEND, R230. -/
  | msend (a : Reg) (c : BitVec 8)
  /-- MRECV, R230. -/
  | mrecv (d : Reg) (c : BitVec 8)
  /-- ECOPY, R231. -/
  | ecopy (d a : CReg) (n : Reg)
  /-- EGATHER, R231. -/
  | egather (d a : CReg) (n : Reg)
  /-- ECOLL, R231. -/
  | ecoll (d a : CReg) (n : Reg)
  /-- BINIT, R358. -/
  | binit (c : BarScope) (a : Reg) (b : BitVec 8)
  /-- BARV, R359. -/
  | barv (b : BitVec 8)
  /-- BWAIT, R359. -/
  | bwait (b : BitVec 8)
  /-- BTEST, R361. -/
  | btest (d : Reg) (b : BitVec 8)
  /-- BARVW, R359. -/
  | barvw (b : BitVec 8)
  /-- QPUSH, R317. -/
  | qpush (d : Reg) (a : CReg) (q : BitVec 8)
  /-- QSTAT, R318. -/
  | qstat (d : Reg) (q : BitVec 8)
  /-- GPLACE, R353. -/
  | gplace (d a n : Reg)
  /-- GMOVE, R353. -/
  | gmove (d a n : Reg)
  /-- GCUT, R353. -/
  | gcut (d a : Reg)
  /-- GFREEZE, R353. -/
  | gfreeze (d a : Reg)
  /-- GEVICT, R353. -/
  | gevict (d a : Reg)
  /-- GRESUME, R353. -/
  | gresume (d a : Reg)
  /-- GSTAT, R354. -/
  | gstat (d a : Reg)
  /-- BCST, R291. -/
  | bcst (a : CReg) (n : Reg)
  /-- BCFENCE, R294. -/
  | bcfence
  /-- BSLOT, R295. -/
  | bslot (d : Reg)
  /-- FENCE, R226. -/
  | fence (c : Scope)
  /-- SYIELD, R238. -/
  | syield
  /-- TRAP, R237. -/
  | trap (c : BitVec 8)
  /-- TRET, R237. -/
  | tret
  /-- SLEEP, R239. -/
  | sleep (a : Reg)
  /-- MFK, R240. -/
  | mfk (d : Reg) (k : KReg)
  /-- MTK, R240. -/
  | mtk (a : Reg) (k : KReg)
  /-- TLBINV_STAGE1, R375. -/
  | tlbinvStage1 (a : Reg)
  /-- TLBINV_STAGE2, R375. -/
  | tlbinvStage2 (a : Reg)
  /-- TLBSYNC, R376. -/
  | tlbsync
  /-- CXSTAT, R311. -/
  | cxstat (d a : Reg)
  /-- CXQUIESCE, R310. -/
  | cxquiesce (d a : Reg)
  /-- CXRESUME, R310. -/
  | cxresume (d a : Reg)
  /-- LDISC, R278. -/
  | ldisc (m : LdiscMode) (a : CReg) (n : Reg)
  /-- MMA, R196. -/
  | mxMma (w : MatArgs)
  /-- MMAS, R197. -/
  | mxMmas (w : MatArgs)
  /-- MMAB, R197. -/
  | mxMmab (w : MatArgs)
  /-- BLOAD, R198. -/
  | mxBload (w : MatArgs)
  /-- BDROP, R198. -/
  | mxBdrop (w : MatArgs)
  /-- AZERO, R199. -/
  | mxAzero (w : MatArgs)
  /-- ALOAD, R199. -/
  | mxAload (w : MatArgs)
  /-- ASTORE, R199. -/
  | mxAstore (w : MatArgs)
  /-- ASTOREZ, R199. -/
  | mxAstorez (w : MatArgs)
  /-- AADD, R199. -/
  | mxAadd (w : MatArgs)
  /-- ASCALE, R199. -/
  | mxAscale (w : MatArgs)
  /-- ABIAS, R199. -/
  | mxAbias (w : MatArgs)
  /-- TRN, R200. -/
  | mxTrn (w : MatArgs)
  /-- RMAX, R200. -/
  | mxRmax (w : MatArgs)
  /-- RSUM, R200. -/
  | mxRsum (w : MatArgs)
  /-- MARK, R200. -/
  | mxMark (w : MatArgs)
  /-- XFENCE, R200. -/
  | mxXfence (w : MatArgs)
  /-- CNTRD, R200. -/
  | mxCntrd (w : MatArgs)
  /-- MATRIX_COMMIT, R195. -/
  | evMatrixCommit (p : Nat)
  /-- GOVERNOR_WINDOW, R204. -/
  | evGovernorWindow (l : Nat)
  /-- REGION_FIRE, R100. -/
  | evRegionFire (g r : Nat)
  /-- CONFIG_WORD_APPLY, R104. -/
  | evConfigWordApply (p n o : Nat)
  /-- ELEMENT_PARK, R98. -/
  | evElementPark (p n : Nat)
  /-- MEMORY_REPLY, R144. -/
  | evMemoryReply (p n k : Nat)
  /-- STORE_ACK, R144. -/
  | evStoreAck (p n k : Nat)
  /-- RUN_COMPLETION_BEAT, R144. -/
  | evRunCompletionBeat (p n : Nat)
  /-- XLAT_WALK_COMPLETE, R150. -/
  | evXlatWalkComplete (p n : Nat)
  /-- BANK_TRANSFER_COMPLETE, R160. -/
  | evBankTransferComplete (p n : Nat)
  /-- ONLINE_CUT, R177. -/
  | evOnlineCut (p n : Nat)
  /-- BLOCKING_CONDITION_MET, R213. -/
  | evBlockingConditionMet (t : Nat)
  /-- SLEEP_EXPIRE, R239. -/
  | evSleepExpire (t : Nat)
  /-- HELD_MESSAGE_ENTER, R230. -/
  | evHeldMessageEnter (c : ChanId)
  /-- ENGINE_TRANSFER, R232. -/
  | evEngineTransfer (k : Nat)
  /-- ECOLL_COMBINE, R232. -/
  | evEcollCombine (h : HomeId)
  /-- ENGINE_RESPONSE, R233. -/
  | evEngineResponse (k : Nat)
  /-- LAST_BEAT_TOKEN_ARRIVE, R166. -/
  | evLastBeatTokenArrive (p k n : Nat)
  /-- SIEVE_FINISH, R258. -/
  | evSieveFinish (x k : Nat)
  /-- SWEEP_DONE, R258. -/
  | evSweepDone (x : Nat)
  /-- BEACON_FRAME, R288. -/
  | evBeaconFrame (k : Nat)
  /-- BEACON_SLOT, R280. -/
  | evBeaconSlot (k n : Nat)
  /-- BCST_ROW_READ, R292. -/
  | evBcstRowRead (p u : Nat)
  /-- LAYER_SLEEP_REQUEST, R289. -/
  | evLayerSleepRequest (l : Nat)
  /-- LAYER_WAKE_REQUEST, R289. -/
  | evLayerWakeRequest (l : Nat)
  /-- REFILL_COMPLETE, R290. -/
  | evRefillComplete (l : Nat)
  /-- BUILD_COMPLETE, R301. -/
  | evBuildComplete (x : Nat)
  /-- QUIESCE_COMPLETE, R300. -/
  | evQuiesceComplete (x : Nat)
  /-- MIGRATION_COMMIT, R307. -/
  | evMigrationCommit (x : Nat)
  /-- CONTEXT_ERROR, R308. -/
  | evContextError (x c : Nat)
  /-- CONTEXT_RELEASE, R300. -/
  | evContextRelease (x : Nat)
  /-- ADMISSION, R321. -/
  | evAdmission
  /-- SEED_INJECT, R323. -/
  | evSeedInject (g : Nat)
  /-- IMAGE_VERIFY, R329. -/
  | evImageVerify (g : Nat)
  /-- PILOT_LEASE, R340. -/
  | evPilotLease (g : Nat)
  /-- TILE_CONFIGURE, R335. -/
  | evTileConfigure (g : Nat)
  /-- TILE_CONFIGURED, R336. -/
  | evTileConfigured (g p : Nat)
  /-- CONFIG_COMPLETE_WAVE, R336. -/
  | evConfigCompleteWave (g r : Nat)
  /-- CONFIG_ACK, R337. -/
  | evConfigAck (g k : Nat)
  /-- START, R337. -/
  | evStart (g : Nat)
  /-- KERNEL_COMPLETE, R338. -/
  | evKernelComplete (g : Nat)
  /-- KERNEL_RETIRE, R326. -/
  | evKernelRetire (g : Nat)
  /-- GROUP_STOP_REQUEST, R345. -/
  | evGroupStopRequest (g : Nat) (h : Holder)
  /-- STOP_COMPLETE, R345. -/
  | evStopComplete (g : Nat)
  /-- STOP_BOUND_EXPIRE, R346. -/
  | evStopBoundExpire (g : Nat)
  /-- GROUP_RESUME, R347. -/
  | evGroupResume (g : Nat)
  /-- SLACK_WATER_FREEZE, R348. -/
  | evSlackWaterFreeze (g : Nat) (h : Holder)
  /-- FREEZE_RELEASE, R339. -/
  | evFreezeRelease (g : Nat)
  /-- GROUP_MOVE, R349. -/
  | evGroupMove (g : Nat)
  /-- COMPACTION, R349. -/
  | evCompaction (g : Nat)
  /-- GROUP_EVICT, R350. -/
  | evGroupEvict (g : Nat)
  /-- SNAPSHOT, R343. -/
  | evSnapshot (g : Nat)
  /-- BARRIER_ARRIVAL_SEND, R359. -/
  | evBarrierArrivalSend (p b : Nat)
  /-- BARRIER_HOME_ARRIVAL, R356. -/
  | evBarrierHomeArrival (h : HomeId)
  /-- BARRIER_HOME_INIT, R356. -/
  | evBarrierHomeInit (h : HomeId)
  /-- BARRIER_COMPLETION_APPLY, R357. -/
  | evBarrierCompletionApply (p b : Nat)
  /-- BARRIER_INIT_REPLY, R357. -/
  | evBarrierInitReply (p b : Nat)
  /-- PAGE_WALK, R369. -/
  | evPageWalk (k : Nat)
  /-- TLBINV_BROADCAST_ARRIVE, R375. -/
  | evTlbinvBroadcastArrive (k : Nat) (r : Translator)
  /-- FAULT_RECORD_WRITE, R384. -/
  | evFaultRecordWrite (k : Nat)
  /-- LIMITER_RELEASE, R398. -/
  | evLimiterRelease (p k : Nat)
  /-- CREATE, R408. -/
  | evCreate
  /-- RETIRE, R408. -/
  | evRetire
  /-- TILES, R408. -/
  | evTiles
  /-- MIGOUT, R408. -/
  | evMigout
  /-- MIGIN, R408. -/
  | evMigin
  /-- MIGABORT, R408. -/
  | evMigabort
  /-- GRANT, R408. -/
  | evGrant
  /-- RECLAIM, R408. -/
  | evReclaim
  /-- ATTEST, R408. -/
  | evAttest
  /-- KEYSLOT, R408. -/
  | evKeyslot
  /-- FWACT, R309. -/
  | evFwact
  /-- MAILBOX_COMPLETE, R407. -/
  | evMailboxComplete
  /-- PAUSE_DRAIN_COMPLETE, R412. -/
  | evPauseDrainComplete (n : Nat)
  /-- PACKAGE_RESET, R429. -/
  | evPackageReset
  /-- UNIT_READY, R429. -/
  | evUnitReady (u : UnitId)
  /-- DEFECT_MAP_VERIFY, R431. -/
  | evDefectMapVerify
  /-- ILLEGAL_OP, R43. -/
  | evIllegalOp (w : Word32)
  /-- BEAT_ADVANCE, R73. -/
  | evBeatAdvance (p n : Nat)
  /-- FIRING_RESULT, R100. -/
  | evFiringResult (p n : Nat)
  /-- RETRIED_FLASH_WRITE, R309. -/
  | evRetriedFlashWrite (k : Bool)
  /-- BEAT_INVALID, R54. -/
  | evBeatInvalid (p e c : Nat) (v : Word) (b : BitVec 8)
  /-- SIEVE_GO, R258. -/
  | evSieveGo (x : Nat) (v : Word)
  /-- QUEUE_SUBMIT, R314. -/
  | evQueueSubmit (v o : Nat) (t f : Bool) (r : BitVec 512)
  /-- QCFG_WRITE, R315. -/
  | evQcfgWrite (q : Nat) (v : Word)
  /-- BAR2_ACCESS, R403. -/
  | evBar2Access (n o z : Nat) (w t : Bool) (v : BitVec 512)
  /-- TRAINING_TIMEOUT, R412. -/
  | evTrainingTimeout (n : Nat)
  /-- RHUMB_RX_TIMEOUT, R412. -/
  | evRhumbRxTimeout (n : Nat)
  /-- IDLE_FLIT, R412. -/
  | evIdleFlit (n : Nat)
  /-- DEVICE_REPLACE, R418. -/
  | evDeviceReplace (g : Nat)
  /-- ATS_INVALIDATE, R378. -/
  | evAtsInvalidate (v : Nat) (a : Word)
  /-- FAULTQ_CONFIG, R383. -/
  | evFaultqConfig (x : Nat) (v : Word)
  /-- FAULT_RESPONSE_DISMISS, R386. -/
  | evFaultResponseDismiss (x : Nat) (v : Word)
  /-- FAULT_RESPONSE_RETRY, R387. -/
  | evFaultResponseRetry (x : Nat) (v : Word)
  /-- FAULT_RESPONSE_SKIP, R387. -/
  | evFaultResponseSkip (x : Nat) (v : Word)
  /-- FAULT_RESPONSE_ABORT, R387. -/
  | evFaultResponseAbort (x : Nat) (v : Word)
  /-- UNRESOLVABLE, R388. -/
  | evUnresolvable (v : Word)
  /-- CONTAIN, R388. -/
  | evContain (v : Word)
  /-- TAG_PARITY_ERROR, R391. -/
  | evTagParityError (k l w : Nat) (c : Bool)
  /-- PT_CFG_WRITE, R393. -/
  | evPtCfgWrite (p : Nat) (v : Word)
  /-- PT_WAYS_WRITE, R395. -/
  | evPtWaysWrite (p : Nat) (v : Word)
  /-- PT_RATE_WRITE, R398. -/
  | evPtRateWrite (p : Nat) (v : Word)
  /-- TILESET_WRITE, R394. -/
  | evTilesetWrite (p i : Nat) (v : Word)
  /-- VF_BIND_WRITE, R399. -/
  | evVfBindWrite (n : Nat) (v : Word)
  /-- LOCK_INTERFACE_REQUEST, R404. -/
  | evLockInterfaceRequest (n : Nat)
  /-- START_INTERFACE_REQUEST, R404. -/
  | evStartInterfaceRequest (n : Nat)
  /-- STOP_INTERFACE_REQUEST, R404. -/
  | evStopInterfaceRequest (n : Nat)
  /-- FLR, R404. -/
  | evFlr (n : Nat)
  /-- IDE_INTEGRITY_FAILURE, R404. -/
  | evIdeIntegrityFailure (n : Nat)
  /-- INTERFACE_CONFIG_CHANGE, R404. -/
  | evInterfaceConfigChange (n : Nat)
  /-- PAUSE, R412. -/
  | evPause (n : Nat)
  /-- RESUME, R412. -/
  | evResume (n : Nat)
  /-- RETRAIN, R412. -/
  | evRetrain (n : Nat)
  /-- DISABLE, R412. -/
  | evDisable (n : Nat)
  /-- ENABLE, R412. -/
  | evEnable (n : Nat)
  /-- TRAINING_END, R413. -/
  | evTrainingEnd (n : Nat) (f : List Nat)
  /-- FLIT_RECEIVE, R414. -/
  | evFlitReceive (n : Nat) (q : Word) (c : Bool)
  /-- FLIT_REPLAY, R414. -/
  | evFlitReplay (n k : Nat)
  /-- RETRY_WINDOW, R415. -/
  | evRetryWindow (n k w : Nat)
  /-- LANE_MARK, R415. -/
  | evLaneMark (n : Nat) (v : Word)
  /-- PW_LAYER_BUDGET_WRITE, R433. -/
  | evPwLayerBudgetWrite (l : Nat) (v : Word)
  /-- THERMAL_THROTTLE, R433. -/
  | evThermalThrottle (l j : Nat)
  /-- THERMAL_TRIP, R433. -/
  | evThermalTrip (l j : Nat)
  /-- REGISTER_WRITE, R13. -/
  | evRegisterWrite (f : Option Nat) (o : Nat) (t : Bool) (v : Word)
  /-- THROTTLE_RELEASE, R433. -/
  | evThrottleRelease (l j : Nat)
  /-- IDE_STREAM_KEYING, R404. -/
  | evIdeStreamKeying (n : Nat)
  /-- SPDM_MEASUREMENT_REQUEST, R400. -/
  | evSpdmMeasurementRequest (n : Nat)
  /-- MOV, R113. -/
  | elMov (w : ElemArgs)
  /-- ELEM_ADD, R113. -/
  | elAdd (w : ElemArgs)
  /-- ELEM_SUB, R113. -/
  | elSub (w : ElemArgs)
  /-- ELEM_MUL, R113. -/
  | elMul (w : ElemArgs)
  /-- ELEM_MULHI, R113. -/
  | elMulhi (w : ElemArgs)
  /-- ELEM_DIV, R114. -/
  | elDiv (w : ElemArgs)
  /-- ELEM_REM, R114. -/
  | elRem (w : ElemArgs)
  /-- NEG, R113. -/
  | elNeg (w : ElemArgs)
  /-- ABS, R113. -/
  | elAbs (w : ElemArgs)
  /-- ELEM_MIN, R113. -/
  | elMin (w : ElemArgs)
  /-- ELEM_MAX, R113. -/
  | elMax (w : ElemArgs)
  /-- ADDS, R113. -/
  | elAdds (w : ElemArgs)
  /-- SUBS, R113. -/
  | elSubs (w : ElemArgs)
  /-- ABSD, R113. -/
  | elAbsd (w : ElemArgs)
  /-- MAD, R113. -/
  | elMad (w : ElemArgs)
  /-- CLAMP, R113. -/
  | elClamp (w : ElemArgs)
  /-- FMA, R115. -/
  | elFma (w : ElemArgs)
  /-- FADD, R115. -/
  | elFadd (w : ElemArgs)
  /-- FSUB, R115. -/
  | elFsub (w : ElemArgs)
  /-- FMUL, R115. -/
  | elFmul (w : ElemArgs)
  /-- FDIV, R115. -/
  | elFdiv (w : ElemArgs)
  /-- FSQRT, R115. -/
  | elFsqrt (w : ElemArgs)
  /-- FMIN, R116. -/
  | elFmin (w : ElemArgs)
  /-- FMAX, R116. -/
  | elFmax (w : ElemArgs)
  /-- FNEG, R116. -/
  | elFneg (w : ElemArgs)
  /-- FABS, R116. -/
  | elFabs (w : ElemArgs)
  /-- FRCP, R117. -/
  | elFrcp (w : ElemArgs)
  /-- FRSQRT, R117. -/
  | elFrsqrt (w : ElemArgs)
  /-- FEXP2, R117. -/
  | elFexp2 (w : ElemArgs)
  /-- FLOG2, R117. -/
  | elFlog2 (w : ElemArgs)
  /-- FSINPI, R117. -/
  | elFsinpi (w : ElemArgs)
  /-- FCOSPI, R117. -/
  | elFcospi (w : ElemArgs)
  /-- CMPEQ, R118. -/
  | elCmpeq (w : ElemArgs)
  /-- CMPNE, R118. -/
  | elCmpne (w : ElemArgs)
  /-- CMPLT, R118. -/
  | elCmplt (w : ElemArgs)
  /-- CMPLE, R118. -/
  | elCmple (w : ElemArgs)
  /-- CMPUN, R118. -/
  | elCmpun (w : ElemArgs)
  /-- ELEM_SEL, R118. -/
  | elSel (w : ElemArgs)
  /-- CLASS, R119. -/
  | elClass (w : ElemArgs)
  /-- ELEM_AND, R120. -/
  | elAnd (w : ElemArgs)
  /-- ELEM_OR, R120. -/
  | elOr (w : ElemArgs)
  /-- ELEM_XOR, R120. -/
  | elXor (w : ElemArgs)
  /-- NOT, R120. -/
  | elNot (w : ElemArgs)
  /-- SHL, R120. -/
  | elShl (w : ElemArgs)
  /-- SHR, R120. -/
  | elShr (w : ElemArgs)
  /-- SAR, R120. -/
  | elSar (w : ElemArgs)
  /-- ROL, R120. -/
  | elRol (w : ElemArgs)
  /-- ELEM_CLZ, R121. -/
  | elClz (w : ElemArgs)
  /-- ELEM_CTZ, R121. -/
  | elCtz (w : ElemArgs)
  /-- ELEM_POPC, R121. -/
  | elPopc (w : ElemArgs)
  /-- ELEM_BILV, R121. -/
  | elBilv (w : ElemArgs)
  /-- ELEM_BDLV, R121. -/
  | elBdlv (w : ElemArgs)
  /-- BREV, R121. -/
  | elBrev (w : ElemArgs)
  /-- ELEM_BFX, R121. -/
  | elBfx (w : ElemArgs)
  /-- ELEM_BFI, R121. -/
  | elBfi (w : ElemArgs)
  /-- CVT, R122. -/
  | elCvt (w : ElemArgs)
  /-- CVTS, R122. -/
  | elCvts (w : ElemArgs)
  /-- PACK, R123. -/
  | elPack (w : ElemArgs)
  /-- UNPACK, R123. -/
  | elUnpack (w : ElemArgs)
  /-- QMX, R124. -/
  | elQmx (w : ElemArgs)
  /-- DQMX, R124. -/
  | elDqmx (w : ElemArgs)
  /-- BCAST, R125. -/
  | elBcast (w : ElemArgs)
  /-- DOT, R126. -/
  | elDot (w : ElemArgs)
  /-- DOTA, R127. -/
  | elDota (w : ElemArgs)
  /-- DOTT, R126. -/
  | elDott (w : ElemArgs)
  /-- DOTTA, R127. -/
  | elDotta (w : ElemArgs)
  /-- ELEM_RSUM, R129. -/
  | elRsum (w : ElemArgs)
  /-- ELEM_RMAX, R129. -/
  | elRmax (w : ElemArgs)
  /-- RMIN, R129. -/
  | elRmin (w : ElemArgs)
  /-- RARGMAX, R129. -/
  | elRargmax (w : ElemArgs)
  /-- RCNT, R129. -/
  | elRcnt (w : ElemArgs)
  /-- STEER, R135. -/
  | elSteer (w : ElemArgs)
  /-- MERGE, R135. -/
  | elMerge (w : ElemArgs)
  /-- GATE, R135. -/
  | elGate (w : ElemArgs)
  /-- DUP, R136. -/
  | elDup (w : ElemArgs)
  /-- SPLIT, R136. -/
  | elSplit (w : ElemArgs)
  /-- FRAME, R137. -/
  | elFrame (w : ElemArgs)
  /-- UNFRAME, R137. -/
  | elUnframe (w : ElemArgs)
  /-- ELEM_SEQ, R138. -/
  | elSeq (w : ElemArgs)
  /-- SEQX, R138. -/
  | elSeqx (w : ElemArgs)
  /-- CONST, R139. -/
  | elConst (w : ElemArgs)
  /-- ZIP, R136. -/
  | elZip (w : ElemArgs)
  /-- UNZIP, R136. -/
  | elUnzip (w : ElemArgs)
  /-- ALD, R142. -/
  | elAld (w : ElemArgs)
  /-- AST, R142. -/
  | elAst (w : ElemArgs)
  /-- AGTH, R143. -/
  | elAgth (w : ElemArgs)
  /-- ASCT, R143. -/
  | elAsct (w : ElemArgs)
  /-- AAMO, R144. -/
  | elAamo (w : ElemArgs)
  /-- ABNK, R148. -/
  | elAbnk (w : ElemArgs)
  /-- AXLAT, R150. -/
  | elAxlat (w : ElemArgs)
  /-- ACHK, R149. -/
  | elAchk (w : ElemArgs)
  /-- MRD, R156. -/
  | elMrd (w : ElemArgs)
  /-- MWR, R156. -/
  | elMwr (w : ElemArgs)
  /-- MRMW, R156. -/
  | elMrmw (w : ElemArgs)
  /-- MFIFO, R158. -/
  | elMfifo (w : ElemArgs)
  /-- MDBUF, R159. -/
  | elMdbuf (w : ElemArgs)
  /-- MCOPY, R160. -/
  | elMcopy (w : ElemArgs)
  /-- MFILL, R160. -/
  | elMfill (w : ElemArgs)
  /-- MLUT, R157. -/
  | elMlut (w : ElemArgs)
  /-- LMAP, R184. -/
  | elLmap (w : ElemArgs)
  /-- LNET, R184. -/
  | elLnet (w : ElemArgs)
  /-- LPACK, R185. -/
  | elLpack (w : ElemArgs)
  /-- LUNPK, R185. -/
  | elLunpk (w : ElemArgs)
  /-- LDEC, R186. -/
  | elLdec (w : ElemArgs)
  /-- OFROM, R173. -/
  | elOfrom (w : ElemArgs)
  /-- OTO, R174. -/
  | elOto (w : ElemArgs)
  /-- OADD, R171. -/
  | elOadd (w : ElemArgs)
  /-- OMUL, R171. -/
  | elOmul (w : ElemArgs)
  /-- OMAD, R171. -/
  | elOmad (w : ElemArgs)
  /-- OCMP, R175. -/
  | elOcmp (w : ElemArgs)
  /-- OMAX, R176. -/
  | elOmax (w : ElemArgs)
  /-- OMIN, R176. -/
  | elOmin (w : ElemArgs)
  /-- XNODE, R188. -/
  | elXnode (w : ElemArgs)
  /-- XNODEB, R188. -/
  | elXnodeb (w : ElemArgs)
  /-- XNODES, R188. -/
  | elXnodes (w : ElemArgs)
  /-- EPASS, R163. -/
  | elEpass (w : ElemArgs)
  /-- ETURN, R163. -/
  | elEturn (w : ElemArgs)
  /-- EROUTE, R163. -/
  | elEroute (w : ElemArgs)
  /-- ETERM, R163. -/
  | elEterm (w : ElemArgs)
  /-- HIN, R165. -/
  | elHin (w : ElemArgs)
  /-- HOUT, R165. -/
  | elHout (w : ElemArgs)
  /-- HBI, R165. -/
  | elHbi (w : ElemArgs)
  /-- KGATE, R166. -/
  | elKgate (w : ElemArgs)
  /-- KLAST, R166. -/
  | elKlast (w : ElemArgs)
  /-- KWAVE, R166. -/
  | elKwave (w : ElemArgs)
  /-- KBAR, R166. -/
  | elKbar (w : ElemArgs)
deriving DecidableEq, Repr

end Sys2Proof
end

