-- ==== Sys2Proof/WellFormed.lean ====
section
/-! DEFINITION. Which instructions the spec's encoding checks admit, beyond what their types say. -/

namespace Sys2Proof

/-- A consumer field's own check: ports 4 to 6 are reserved (R47). -/
def consumerOk (c : BitVec 9) : Bool := let p := c.toNat % 8; p < 4 || p == 7

/-- The word checks of R52 that need only the word: REP 7 (0x0A), ports 4-6 (0x0D), CX = CY (0x10). -/
def ElemArgs.ok (a : ElemArgs) : Bool :=
  a.rep.val != 7 && consumerOk a.cx && consumerOk a.cy && (a.cx != a.cy || a.cx == 0x1FF)

/-- The same for an opcode that takes no format: FSEL must be 0 (R49). -/
def ElemArgs.okPlain (a : ElemArgs) : Bool := a.ok && a.fsel.val == 0

/-- Which fields a matrix operation uses (R60). -/
structure MatUse where
  mn : Bool := false
  k : Bool := false
  nOnly : Bool := false
  buf : Bool := false
  acc : Bool := false
  bt : Bool := false
  dcvt : Bool := false
  chain : Bool := false

/-- R59, R60: a used field lies in range, an unused one is zero; DCVT is used by the MMA forms only
with CHAIN = 1, and 7 is invalid. -/
def MatArgs.valid (u : MatUse) (a : MatArgs) : Bool :=
  (if u.mn then a.m != 0 && a.n != 0 else a.m == 0 && (if u.nOnly then a.n != 0 else a.n == 0)) &&
  (if u.k then a.k != 0 else a.k == 0) &&
  (if u.buf then a.buf.toNat < 2 else a.buf == 0) &&
  (u.acc || !a.acc) && (u.chain || !a.chain) && (u.bt || !a.bt) &&
  (if u.dcvt || (u.chain && a.chain) then a.dcvt != 7 else a.dcvt == 0)

/-- The field use of MMA and MMAS. -/
def MatUse.mma : MatUse := { mn := true, k := true, buf := true, acc := true, bt := true, chain := true }
/-- The field use of MMAB. -/
def MatUse.mmab : MatUse := { mn := true, k := true, buf := true, acc := true, chain := true }
/-- The field use of BLOAD. -/
def MatUse.bload : MatUse := { nOnly := true, k := true, bt := true }
/-- The field use of BDROP, XFENCE and CNTRD. -/
def MatUse.none : MatUse := {}
/-- The field use of AZERO, ALOAD, AADD, ASCALE and ABIAS. -/
def MatUse.region : MatUse := { mn := true, buf := true }
/-- The field use of ASTORE, ASTOREZ, RMAX and RSUM. -/
def MatUse.store : MatUse := { mn := true, buf := true, dcvt := true }
/-- The field use of TRN. -/
def MatUse.trn : MatUse := { mn := true, dcvt := true }
/-- The field use of MARK. -/
def MatUse.mark : MatUse := { mn := true, k := true }

/-- What the encoding checks ask beyond the operands' types: the field of BFX and BFI fits 64 bits
(R39), an element word passes the loader's word checks (R52), a matrix token is valid (R60). -/
def Instr.wf : Instr → Bool
  | .bfx _ _ p l | .bfi _ _ p l => p.toNat + l.toNat + 1 ≤ 64
  | .elMov w | .elAdd w | .elSub w | .elMul w | .elMulhi w | .elDiv w | .elRem w | .elNeg w
  | .elAbs w | .elMin w | .elMax w | .elAdds w | .elSubs w | .elAbsd w | .elMad w | .elClamp w
  | .elFma w | .elFadd w | .elFsub w | .elFmul w | .elFdiv w | .elFsqrt w | .elFmin w
  | .elFmax w | .elFneg w | .elFabs w | .elFrcp w | .elFrsqrt w | .elFexp2 w | .elFlog2 w
  | .elFsinpi w | .elFcospi w | .elCmpeq w | .elCmpne w | .elCmplt w | .elCmple w | .elCmpun w
  | .elSel w | .elClass w | .elAnd w | .elOr w | .elXor w | .elNot w | .elShl w | .elShr w
  | .elSar w | .elRol w | .elClz w | .elCtz w | .elPopc w | .elBilv w | .elBdlv w | .elBrev w
  | .elBfx w | .elBfi w | .elCvt w | .elCvts w | .elPack w | .elUnpack w | .elQmx w | .elDqmx w
  | .elBcast w | .elDot w | .elDota w | .elDott w | .elDotta w | .elRsum w | .elRmax w
  | .elRmin w | .elRargmax w | .elRcnt w | .elAld w | .elAst w | .elAgth w | .elAsct w
  | .elAamo w | .elAbnk w | .elAxlat w | .elAchk w | .elLmap w | .elLnet w | .elLpack w
  | .elLunpk w | .elLdec w | .elOfrom w | .elOto w | .elOadd w | .elOmul w | .elOmad w
  | .elOcmp w | .elOmax w | .elOmin w | .elXnode w | .elXnodeb w | .elXnodes w =>
    w.ok
  | .elSteer w | .elMerge w | .elGate w | .elDup w | .elSplit w | .elFrame w | .elUnframe w
  | .elSeq w | .elSeqx w | .elConst w | .elZip w | .elUnzip w | .elMrd w | .elMwr w | .elMrmw w
  | .elMfifo w | .elMdbuf w | .elMcopy w | .elMfill w | .elMlut w | .elEpass w | .elEturn w
  | .elEroute w | .elEterm w | .elHin w | .elHout w | .elHbi w | .elKgate w | .elKlast w
  | .elKwave w | .elKbar w =>
    w.okPlain
  | .mxMma w => w.valid .mma
  | .mxMmas w => w.valid .mma
  | .mxMmab w => w.valid .mmab
  | .mxBload w => w.valid .bload
  | .mxBdrop w => w.valid .none
  | .mxAzero w => w.valid .region
  | .mxAload w => w.valid .region
  | .mxAstore w => w.valid .store
  | .mxAstorez w => w.valid .store
  | .mxAadd w => w.valid .region
  | .mxAscale w => w.valid .region
  | .mxAbias w => w.valid .region
  | .mxTrn w => w.valid .trn
  | .mxRmax w => w.valid .store
  | .mxRsum w => w.valid .store
  | .mxMark w => w.valid .mark
  | .mxXfence w => w.valid .none
  | .mxCntrd w => w.valid .none
  | _ => true

end Sys2Proof
end

