-- ==== Sys2Proof/Decode.lean ====
section
/-! DEFINITION. The decoders of the three instruction kinds, each total on its words and rejecting by
name, and the encoders (R32-R43, R46-R51, R59, R60). Words are taken as natural numbers. -/

namespace Sys2Proof

/-- Why a helm word raises ILLEGAL_OP: checks 1 to 4 of R43. -/
inductive HelmReject where
  | major | function | zeroField | subField
deriving DecidableEq, Repr

/-- Why an element word names no operation: UNDEF_OPCODE, BAD_NOP (R52); NOP itself is no operation. -/
inductive ElemReject where
  | undefinedOpcode | badNop | nop
deriving DecidableEq, Repr

/-- Why a matrix token is invalid before its fields are judged: R59's reserved bits, R60's OP. -/
inductive MatReject where
  | reserved | operation
deriving DecidableEq, Repr

/-- Bits [lo + n - 1 : lo] of w. -/
def fld (w lo n : Nat) : Nat := w / 2 ^ lo % 2 ^ n

/-- A 5-bit general-register field (R34). -/
def reg (w lo : Nat) : Reg := Fin.ofNat 32 (fld w lo 5)

/-- The 4-bit name of a capability register (R34). -/
def creg (w lo : Nat) : CReg := Fin.ofNat 16 (fld w lo 4)

/-- imm16 or off16 (R32). -/
def imm16 (w : Nat) : BitVec 16 := BitVec.ofNat 16 (fld w 0 16)
/-- imm13 (R32). -/
def imm13 (w : Nat) : BitVec 13 := BitVec.ofNat 13 (fld w 0 13)
/-- off26 (R32). -/
def imm26 (w : Nat) : BitVec 26 := BitVec.ofNat 26 (fld w 0 26)
/-- imm8 (R32). -/
def imm8 (w : Nat) : BitVec 8 := BitVec.ofNat 8 (fld w 0 8)
/-- A 6-bit sub-field (R39, R41). -/
def imm6 (w lo : Nat) : BitVec 6 := BitVec.ofNat 6 (fld w lo 6)

/-! ## Codes of the named operand values -/

/-- R36. -/
def Scope.code : Scope → Nat
  | .lane => 0 | .element => 1 | .tile => 2 | .group => 3 | .layer => 4 | .stack => 5 | .package => 6
  | .system => 7

/-- R36. -/
def Scope.ofCode : Nat → Option Scope
  | 0 => some .lane | 1 => some .element | 2 => some .tile | 3 => some .group | 4 => some .layer
  | 5 => some .stack | 6 => some .package | 7 => some .system | _ => none

/-- R40. -/
def LoadType.code : LoadType → Nat
  | .n8 => 0 | .n16 => 1 | .n32 => 2 | .n64 => 3 | .i8 => 4 | .i16 => 5 | .i32 => 6

/-- R40. -/
def LoadType.ofCode : Nat → Option LoadType
  | 0 => some .n8 | 1 => some .n16 | 2 => some .n32 | 3 => some .n64 | 4 => some .i8 | 5 => some .i16
  | 6 => some .i32 | _ => none

/-- R40. -/
def StoreType.code : StoreType → Nat
  | .n8 => 0 | .n16 => 1 | .n32 => 2 | .n64 => 3

/-- R40. -/
def StoreType.ofCode : Nat → Option StoreType
  | 0 => some .n8 | 1 => some .n16 | 2 => some .n32 | 3 => some .n64 | _ => none

/-- R40. -/
def AmoWidth.code : AmoWidth → Nat
  | .n64 => 0 | .n32 => 1

/-- R40. -/
def AmoWidth.ofCode : Nat → Option AmoWidth
  | 0 => some .n64 | 1 => some .n32 | _ => none

/-- R40. -/
def AmoScope.code : AmoScope → Nat
  | .tile => 2 | .package => 6

/-- R40: any other scope code raises ILLEGAL_OP. -/
def AmoScope.ofCode : Nat → Option AmoScope
  | 2 => some .tile | 6 => some .package | _ => none

/-- R41. -/
def BarScope.code : BarScope → Nat
  | .tile => 2 | .group => 3 | .stack => 5 | .package => 6

/-- R41: any other scope code raises ILLEGAL_OP. -/
def BarScope.ofCode : Nat → Option BarScope
  | 2 => some .tile | 3 => some .group | 5 => some .stack | 6 => some .package | _ => none

/-- R41. -/
def LdiscMode.code : LdiscMode → Nat
  | .discard => 0 | .lastuse => 1

/-- R41. -/
def LdiscMode.ofCode : Nat → Option LdiscMode
  | 0 => some .discard | 1 => some .lastuse | _ => none

/-- R42, R209. -/
def KReg.code : KReg → Nat
  | .status => 0x00 | .tid => 0x01 | .cycle => 0x02 | .rxsb => 0x03 | .tvec => 0x04 | .epc => 0x05 | .ecause => 0x06 | .eval => 0x07 | .ylim => 0x08 | .snapint => 0x09 | .faultq => 0x10 | .govstall => 0x18

/-- R209: a number absent from the map raises ILLEGAL_OP (R42). -/
def KReg.ofCode : Nat → Option KReg
  | 0x00 => some .status | 0x01 => some .tid | 0x02 => some .cycle | 0x03 => some .rxsb | 0x04 => some .tvec | 0x05 => some .epc | 0x06 => some .ecause | 0x07 => some .eval | 0x08 => some .ylim | 0x09 => some .snapint | 0x10 => some .faultq | 0x18 => some .govstall | _ => none

/-! ## Helm words -/

/-- The result of check 3 of R43 for an instruction with its must-be-zero fields. -/
def zeros (ok : Bool) (i : Instr) : Except HelmReject Instr :=
  if ok then .ok i else .error .zeroField

/-- Checks 3 and 4 of R43: must-be-zero fields, then one coded operand. -/
def coded {α : Type} (ok : Bool) (v : Option α) (f : α → Instr) : Except HelmReject Instr :=
  if ok then match v with | some x => .ok (f x) | none => .error .subField else .error .zeroField

/-- The operands of an atomic (R40). -/
def amo (w : Nat) (f : AmoWidth → AmoScope → Reg → Reg → CReg → Instr) : Except HelmReject Instr :=
  if fld w 22 4 = 0 then
    match AmoWidth.ofCode (fld w 7 1), AmoScope.ofCode (fld w 0 3) with
    | some x, some y => .ok (f x y (reg w 8) (reg w 13) (creg w 18))
    | _, _ => .error .subField
  else .error .zeroField

/-- Major 0x01 (R38-R41). -/
def decodeAlu (w : Nat) : Except HelmReject Instr :=
  match fld w 0 11 with
  | 0x000 => .ok (.add (reg w 21) (reg w 16) (reg w 11))
  | 0x001 => .ok (.sub (reg w 21) (reg w 16) (reg w 11))
  | 0x002 => .ok (.and (reg w 21) (reg w 16) (reg w 11))
  | 0x003 => .ok (.or (reg w 21) (reg w 16) (reg w 11))
  | 0x004 => .ok (.xor (reg w 21) (reg w 16) (reg w 11))
  | 0x005 => .ok (.andn (reg w 21) (reg w 16) (reg w 11))
  | 0x006 => .ok (.sll (reg w 21) (reg w 16) (reg w 11))
  | 0x007 => .ok (.srl (reg w 21) (reg w 16) (reg w 11))
  | 0x008 => .ok (.sra (reg w 21) (reg w 16) (reg w 11))
  | 0x009 => .ok (.min (reg w 21) (reg w 16) (reg w 11))
  | 0x00A => .ok (.max (reg w 21) (reg w 16) (reg w 11))
  | 0x00B => .ok (.minu (reg w 21) (reg w 16) (reg w 11))
  | 0x00C => .ok (.maxu (reg w 21) (reg w 16) (reg w 11))
  | _ => .error .function

/-- Major 0x02 (R38-R41). -/
def decodeBits (w : Nat) : Except HelmReject Instr :=
  match fld w 0 11 with
  | 0x000 => zeros (fld w 11 5 == 0) (.clz (reg w 21) (reg w 16))
  | 0x001 => zeros (fld w 11 5 == 0) (.ctz (reg w 21) (reg w 16))
  | 0x002 => zeros (fld w 11 5 == 0) (.popc (reg w 21) (reg w 16))
  | 0x003 => .ok (.bilv (reg w 21) (reg w 16) (reg w 11))
  | 0x004 => zeros (fld w 11 5 == 0) (.bdlv (reg w 21) (reg w 16))
  | 0x010 => .ok (.seq (reg w 21) (reg w 16) (reg w 11))
  | 0x011 => .ok (.sne (reg w 21) (reg w 16) (reg w 11))
  | 0x012 => .ok (.slt (reg w 21) (reg w 16) (reg w 11))
  | 0x013 => .ok (.sltu (reg w 21) (reg w 16) (reg w 11))
  | 0x014 => .ok (.sle (reg w 21) (reg w 16) (reg w 11))
  | 0x015 => .ok (.sleu (reg w 21) (reg w 16) (reg w 11))
  | 0x020 => .ok (.sel (reg w 21) (reg w 16) (reg w 11))
  | _ => .error .function

/-- Major 0x03 (R38-R41). -/
def decodeMul (w : Nat) : Except HelmReject Instr :=
  match fld w 0 11 with
  | 0x000 => .ok (.mul (reg w 21) (reg w 16) (reg w 11))
  | 0x001 => .ok (.mulhi (reg w 21) (reg w 16) (reg w 11))
  | 0x002 => .ok (.mulhiu (reg w 21) (reg w 16) (reg w 11))
  | 0x003 => .ok (.div (reg w 21) (reg w 16) (reg w 11))
  | 0x004 => .ok (.divu (reg w 21) (reg w 16) (reg w 11))
  | 0x005 => .ok (.rem (reg w 21) (reg w 16) (reg w 11))
  | 0x006 => .ok (.remu (reg w 21) (reg w 16) (reg w 11))
  | _ => .error .function

/-- Major 0x18 (R38-R41). -/
def decodeJump (w : Nat) : Except HelmReject Instr :=
  match fld w 0 13 with
  | 0x000 => zeros (fld w 13 5 == 0 && fld w 22 4 == 0) (.cjr (creg w 18))
  | 0x001 => zeros (fld w 13 5 == 0) (.cjalr (creg w 22) (creg w 18))
  | 0x002 => zeros (fld w 13 5 == 0) (.ccall (creg w 18) (creg w 22))
  | _ => .error .function

/-- Major 0x1D (R38-R41). -/
def decodeAmo (w : Nat) : Except HelmReject Instr :=
  match fld w 3 4 with
  | 0x00 => amo w .amoswap
  | 0x01 => amo w .amoadd
  | 0x02 => amo w .amoand
  | 0x03 => amo w .amoor
  | 0x04 => amo w .amoxor
  | 0x05 => amo w .amomin
  | 0x06 => amo w .amomax
  | 0x07 => amo w .amominu
  | 0x08 => amo w .amomaxu
  | 0x09 => amo w .amocas
  | _ => .error .function

/-- Major 0x1E (R38-R41). -/
def decodeCap (w : Nat) : Except HelmReject Instr :=
  match fld w 0 13 with
  | 0x000 => .ok (.csetbounds (creg w 22) (creg w 18) (reg w 13))
  | 0x001 => .ok (.csetboundsx (creg w 22) (creg w 18) (reg w 13))
  | 0x002 => .ok (.cincaddr (creg w 22) (creg w 18) (reg w 13))
  | 0x003 => .ok (.csetaddr (creg w 22) (creg w 18) (reg w 13))
  | 0x004 => .ok (.candperm (creg w 22) (creg w 18) (reg w 13))
  | 0x005 => zeros (fld w 17 1 == 0) (.cseal (creg w 22) (creg w 18) (creg w 13))
  | 0x006 => zeros (fld w 17 1 == 0) (.cunseal (creg w 22) (creg w 18) (creg w 13))
  | 0x007 => zeros (fld w 13 5 == 0) (.cmove (creg w 22) (creg w 18))
  | 0x008 => zeros (fld w 13 5 == 0) (.cclrtag (creg w 22) (creg w 18))
  | 0x010 => zeros (fld w 22 4 == 0) (.cgetaddr (reg w 13) (creg w 18))
  | 0x011 => zeros (fld w 22 4 == 0) (.cgetbase (reg w 13) (creg w 18))
  | 0x012 => zeros (fld w 22 4 == 0) (.cgetlen (reg w 13) (creg w 18))
  | 0x013 => zeros (fld w 22 4 == 0) (.cgetperm (reg w 13) (creg w 18))
  | 0x014 => zeros (fld w 22 4 == 0) (.cgettag (reg w 13) (creg w 18))
  | 0x015 => zeros (fld w 22 4 == 0) (.cgetseal (reg w 13) (creg w 18))
  | 0x016 => .ok (.ctestsub (reg w 13) (creg w 18) (creg w 22))
  | 0x018 => zeros (fld w 18 8 == 0) (.cfitlen (reg w 13))
  | 0x019 => zeros (fld w 18 8 == 0) (.cfitexp (reg w 13))
  | _ => .error .function

/-- Major 0x21 (R38-R41). -/
def decodeStream (w : Nat) : Except HelmReject Instr :=
  match fld w 8 8 with
  | 0x01 => zeros (fld w 6 2 == 0 && fld w 20 1 == 0) (.sload (reg w 21) (creg w 16) (imm6 w 0))
  | 0x02 => zeros (fld w 6 2 == 0 && fld w 21 5 == 0) (.sseed (reg w 16) (imm6 w 0))
  | 0x03 => zeros (fld w 6 2 == 0 && fld w 21 5 == 0) (.ssend (reg w 16) (imm6 w 0))
  | 0x04 => zeros (fld w 6 2 == 0 && fld w 16 5 == 0) (.srecv (reg w 21) (imm6 w 0))
  | 0x05 => zeros (fld w 6 2 == 0 && fld w 16 10 == 0) (.sdrain (imm6 w 0))
  | 0x06 => zeros (fld w 0 8 == 0 && fld w 16 10 == 0) .sbar
  | _ => .error .function

/-- Major 0x22 (R38-R41). -/
def decodeChan (w : Nat) : Except HelmReject Instr :=
  match fld w 8 8 with
  | 0x01 => zeros (fld w 21 5 == 0) (.msend (reg w 16) (imm8 w))
  | 0x02 => zeros (fld w 16 5 == 0) (.mrecv (reg w 21) (imm8 w))
  | _ => .error .function

/-- Major 0x23 (R38-R41). -/
def decodeEngine (w : Nat) : Except HelmReject Instr :=
  match fld w 8 8 with
  | 0x01 => zeros (fld w 5 3 == 0 && fld w 20 1 == 0 && fld w 25 1 == 0) (.ecopy (creg w 21) (creg w 16) (reg w 0))
  | 0x02 => zeros (fld w 5 3 == 0 && fld w 20 1 == 0 && fld w 25 1 == 0) (.egather (creg w 21) (creg w 16) (reg w 0))
  | 0x03 => zeros (fld w 5 3 == 0 && fld w 20 1 == 0 && fld w 25 1 == 0) (.ecoll (creg w 21) (creg w 16) (reg w 0))
  | _ => .error .function

/-- Major 0x24 (R38-R41). -/
def decodeBar (w : Nat) : Except HelmReject Instr :=
  match fld w 8 8 with
  | 0x01 => coded (fld w 24 2 == 0) (BarScope.ofCode (fld w 21 3)) fun c => .binit c (reg w 16) (imm8 w)
  | 0x02 => zeros (fld w 16 10 == 0) (.barv (imm8 w))
  | 0x03 => zeros (fld w 16 10 == 0) (.bwait (imm8 w))
  | 0x04 => zeros (fld w 16 5 == 0) (.btest (reg w 21) (imm8 w))
  | 0x05 => zeros (fld w 16 10 == 0) (.barvw (imm8 w))
  | _ => .error .function

/-- Major 0x25 (R38-R41). -/
def decodeQueue (w : Nat) : Except HelmReject Instr :=
  match fld w 8 8 with
  | 0x01 => zeros (fld w 20 1 == 0) (.qpush (reg w 21) (creg w 16) (imm8 w))
  | 0x02 => zeros (fld w 16 5 == 0) (.qstat (reg w 21) (imm8 w))
  | _ => .error .function

/-- Major 0x26 (R38-R41). -/
def decodeGroup (w : Nat) : Except HelmReject Instr :=
  match fld w 8 8 with
  | 0x01 => zeros (fld w 5 3 == 0) (.gplace (reg w 21) (reg w 16) (reg w 0))
  | 0x02 => zeros (fld w 5 3 == 0) (.gmove (reg w 21) (reg w 16) (reg w 0))
  | 0x03 => zeros (fld w 0 8 == 0) (.gcut (reg w 21) (reg w 16))
  | 0x04 => zeros (fld w 0 8 == 0) (.gfreeze (reg w 21) (reg w 16))
  | 0x05 => zeros (fld w 0 8 == 0) (.gevict (reg w 21) (reg w 16))
  | 0x06 => zeros (fld w 0 8 == 0) (.gresume (reg w 21) (reg w 16))
  | 0x07 => zeros (fld w 0 8 == 0) (.gstat (reg w 21) (reg w 16))
  | _ => .error .function

/-- Major 0x27 (R38-R41). -/
def decodeBeacon (w : Nat) : Except HelmReject Instr :=
  match fld w 8 8 with
  | 0x01 => zeros (fld w 5 3 == 0 && fld w 20 6 == 0) (.bcst (creg w 16) (reg w 0))
  | 0x02 => zeros (fld w 0 8 == 0 && fld w 16 10 == 0) .bcfence
  | 0x03 => zeros (fld w 0 8 == 0 && fld w 16 5 == 0) (.bslot (reg w 21))
  | _ => .error .function

/-- Major 0x28 (R38-R41). -/
def decodeSystem (w : Nat) : Except HelmReject Instr :=
  match fld w 8 8 with
  | 0x01 => coded (fld w 3 5 == 0 && fld w 16 10 == 0) (Scope.ofCode (fld w 0 3)) fun c => .fence c
  | 0x02 => zeros (fld w 0 8 == 0 && fld w 16 10 == 0) .syield
  | 0x03 => zeros (fld w 16 10 == 0) (.trap (imm8 w))
  | 0x04 => zeros (fld w 0 8 == 0 && fld w 16 10 == 0) .tret
  | 0x05 => zeros (fld w 0 8 == 0 && fld w 21 5 == 0) (.sleep (reg w 16))
  | 0x10 => coded (fld w 16 5 == 0) (KReg.ofCode (fld w 0 8)) fun k => .mfk (reg w 21) k
  | 0x11 => coded (fld w 21 5 == 0) (KReg.ofCode (fld w 0 8)) fun k => .mtk (reg w 16) k
  | 0x20 =>
    zeros (fld w 1 7 == 0 && fld w 21 5 == 0)
      (if fld w 0 1 = 0 then .tlbinvStage1 (reg w 16) else .tlbinvStage2 (reg w 16))
  | 0x21 => zeros (fld w 0 8 == 0 && fld w 16 10 == 0) .tlbsync
  | 0x30 => zeros (fld w 0 8 == 0) (.cxstat (reg w 21) (reg w 16))
  | 0x31 => zeros (fld w 0 8 == 0) (.cxquiesce (reg w 21) (reg w 16))
  | 0x32 => zeros (fld w 0 8 == 0) (.cxresume (reg w 21) (reg w 16))
  | 0x40 => coded (fld w 5 3 == 0 && fld w 20 1 == 0 && fld w 22 4 == 0) (LdiscMode.ofCode (fld w 21 1)) fun m => .ldisc m (creg w 16) (reg w 0)
  | _ => .error .function

/-- R43, checks 1 to 4: the instruction of a helm word, or which check fails (ILLEGAL_OP). -/
def decodeHelm (w : Nat) : Except HelmReject Instr :=
  match fld w 26 6 with
  | 0x01 => decodeAlu w
  | 0x02 => decodeBits w
  | 0x03 => decodeMul w
  | 0x04 => .ok (.addi (reg w 21) (reg w 16) (imm16 w))
  | 0x05 => .ok (.andi (reg w 21) (reg w 16) (imm16 w))
  | 0x06 => .ok (.ori (reg w 21) (reg w 16) (imm16 w))
  | 0x07 => .ok (.xori (reg w 21) (reg w 16) (imm16 w))
  | 0x08 => .ok (.slti (reg w 21) (reg w 16) (imm16 w))
  | 0x09 => .ok (.sltiu (reg w 21) (reg w 16) (imm16 w))
  | 0x0A => zeros (fld w 16 5 == 0) (.lui (reg w 21) (imm16 w))
  | 0x0B => zeros (fld w 6 10 == 0) (.slli (reg w 21) (reg w 16) (imm6 w 0))
  | 0x0C => zeros (fld w 6 10 == 0) (.srli (reg w 21) (reg w 16) (imm6 w 0))
  | 0x0D => zeros (fld w 6 10 == 0) (.srai (reg w 21) (reg w 16) (imm6 w 0))
  | 0x0E => if fld w 12 4 = 0 then
      if fld w 6 6 + fld w 0 6 + 1 ≤ 64 then .ok (.bfx (reg w 21) (reg w 16) (imm6 w 6) (imm6 w 0)) else .error .subField
      else .error .zeroField
  | 0x0F => if fld w 12 4 = 0 then
      if fld w 6 6 + fld w 0 6 + 1 ≤ 64 then .ok (.bfi (reg w 21) (reg w 16) (imm6 w 6) (imm6 w 0)) else .error .subField
      else .error .zeroField
  | 0x10 => .ok (.beq (reg w 21) (reg w 16) (imm16 w))
  | 0x11 => .ok (.bne (reg w 21) (reg w 16) (imm16 w))
  | 0x12 => .ok (.blt (reg w 21) (reg w 16) (imm16 w))
  | 0x13 => .ok (.bge (reg w 21) (reg w 16) (imm16 w))
  | 0x14 => .ok (.bltu (reg w 21) (reg w 16) (imm16 w))
  | 0x15 => .ok (.bgeu (reg w 21) (reg w 16) (imm16 w))
  | 0x16 => .ok (.j (imm26 w))
  | 0x17 => .ok (.jal (imm26 w))
  | 0x18 => decodeJump w
  | 0x19 => match LoadType.ofCode (fld w 22 4) with
      | some t => .ok (.ldc t (reg w 13) (creg w 18) (imm13 w))
      | none => .error .function
  | 0x1A => match StoreType.ofCode (fld w 22 4) with
      | some t => .ok (.stc t (reg w 13) (creg w 18) (imm13 w))
      | none => .error .function
  | 0x1B => zeros (fld w 13 5 == 0) (.ldcc (creg w 22) (creg w 18) (imm13 w))
  | 0x1C => zeros (fld w 13 5 == 0) (.stcc (creg w 22) (creg w 18) (imm13 w))
  | 0x1D => decodeAmo w
  | 0x1E => decodeCap w
  | 0x1F => zeros (fld w 13 5 == 0) (.cincaddri (creg w 22) (creg w 18) (imm13 w))
  | 0x20 => zeros (fld w 13 5 == 0) (.csetboundsi (creg w 22) (creg w 18) (imm13 w))
  | 0x21 => decodeStream w
  | 0x22 => decodeChan w
  | 0x23 => decodeEngine w
  | 0x24 => decodeBar w
  | 0x25 => decodeQueue w
  | 0x26 => decodeGroup w
  | 0x27 => decodeBeacon w
  | 0x28 => decodeSystem w
  | _ => .error .major

/-- The word of a helm instruction (R32, R37-R42). -/
def encodeHelm : Instr → Option Nat
  | .add d a b => some (0x04000000 + d.val * 2097152 + a.val * 65536 + b.val * 2048)
  | .sub d a b => some (0x04000001 + d.val * 2097152 + a.val * 65536 + b.val * 2048)
  | .and d a b => some (0x04000002 + d.val * 2097152 + a.val * 65536 + b.val * 2048)
  | .or d a b => some (0x04000003 + d.val * 2097152 + a.val * 65536 + b.val * 2048)
  | .xor d a b => some (0x04000004 + d.val * 2097152 + a.val * 65536 + b.val * 2048)
  | .andn d a b => some (0x04000005 + d.val * 2097152 + a.val * 65536 + b.val * 2048)
  | .sll d a b => some (0x04000006 + d.val * 2097152 + a.val * 65536 + b.val * 2048)
  | .srl d a b => some (0x04000007 + d.val * 2097152 + a.val * 65536 + b.val * 2048)
  | .sra d a b => some (0x04000008 + d.val * 2097152 + a.val * 65536 + b.val * 2048)
  | .min d a b => some (0x04000009 + d.val * 2097152 + a.val * 65536 + b.val * 2048)
  | .max d a b => some (0x0400000A + d.val * 2097152 + a.val * 65536 + b.val * 2048)
  | .minu d a b => some (0x0400000B + d.val * 2097152 + a.val * 65536 + b.val * 2048)
  | .maxu d a b => some (0x0400000C + d.val * 2097152 + a.val * 65536 + b.val * 2048)
  | .clz d a => some (0x08000000 + d.val * 2097152 + a.val * 65536)
  | .ctz d a => some (0x08000001 + d.val * 2097152 + a.val * 65536)
  | .popc d a => some (0x08000002 + d.val * 2097152 + a.val * 65536)
  | .bilv d a b => some (0x08000003 + d.val * 2097152 + a.val * 65536 + b.val * 2048)
  | .bdlv d a => some (0x08000004 + d.val * 2097152 + a.val * 65536)
  | .seq d a b => some (0x08000010 + d.val * 2097152 + a.val * 65536 + b.val * 2048)
  | .sne d a b => some (0x08000011 + d.val * 2097152 + a.val * 65536 + b.val * 2048)
  | .slt d a b => some (0x08000012 + d.val * 2097152 + a.val * 65536 + b.val * 2048)
  | .sltu d a b => some (0x08000013 + d.val * 2097152 + a.val * 65536 + b.val * 2048)
  | .sle d a b => some (0x08000014 + d.val * 2097152 + a.val * 65536 + b.val * 2048)
  | .sleu d a b => some (0x08000015 + d.val * 2097152 + a.val * 65536 + b.val * 2048)
  | .sel d a b => some (0x08000020 + d.val * 2097152 + a.val * 65536 + b.val * 2048)
  | .mul d a b => some (0x0C000000 + d.val * 2097152 + a.val * 65536 + b.val * 2048)
  | .mulhi d a b => some (0x0C000001 + d.val * 2097152 + a.val * 65536 + b.val * 2048)
  | .mulhiu d a b => some (0x0C000002 + d.val * 2097152 + a.val * 65536 + b.val * 2048)
  | .div d a b => some (0x0C000003 + d.val * 2097152 + a.val * 65536 + b.val * 2048)
  | .divu d a b => some (0x0C000004 + d.val * 2097152 + a.val * 65536 + b.val * 2048)
  | .rem d a b => some (0x0C000005 + d.val * 2097152 + a.val * 65536 + b.val * 2048)
  | .remu d a b => some (0x0C000006 + d.val * 2097152 + a.val * 65536 + b.val * 2048)
  | .addi d a i => some (0x10000000 + d.val * 2097152 + a.val * 65536 + i.toNat)
  | .andi d a i => some (0x14000000 + d.val * 2097152 + a.val * 65536 + i.toNat)
  | .ori d a i => some (0x18000000 + d.val * 2097152 + a.val * 65536 + i.toNat)
  | .xori d a i => some (0x1C000000 + d.val * 2097152 + a.val * 65536 + i.toNat)
  | .slti d a i => some (0x20000000 + d.val * 2097152 + a.val * 65536 + i.toNat)
  | .sltiu d a i => some (0x24000000 + d.val * 2097152 + a.val * 65536 + i.toNat)
  | .lui d i => some (0x28000000 + d.val * 2097152 + i.toNat)
  | .slli d a n => some (0x2C000000 + d.val * 2097152 + a.val * 65536 + n.toNat)
  | .srli d a n => some (0x30000000 + d.val * 2097152 + a.val * 65536 + n.toNat)
  | .srai d a n => some (0x34000000 + d.val * 2097152 + a.val * 65536 + n.toNat)
  | .bfx d a p l => some (0x38000000 + d.val * 2097152 + a.val * 65536 + p.toNat * 64 + l.toNat)
  | .bfi d a p l => some (0x3C000000 + d.val * 2097152 + a.val * 65536 + p.toNat * 64 + l.toNat)
  | .beq a b o => some (0x40000000 + a.val * 2097152 + b.val * 65536 + o.toNat)
  | .bne a b o => some (0x44000000 + a.val * 2097152 + b.val * 65536 + o.toNat)
  | .blt a b o => some (0x48000000 + a.val * 2097152 + b.val * 65536 + o.toNat)
  | .bge a b o => some (0x4C000000 + a.val * 2097152 + b.val * 65536 + o.toNat)
  | .bltu a b o => some (0x50000000 + a.val * 2097152 + b.val * 65536 + o.toNat)
  | .bgeu a b o => some (0x54000000 + a.val * 2097152 + b.val * 65536 + o.toNat)
  | .j o => some (0x58000000 + o.toNat)
  | .jal o => some (0x5C000000 + o.toNat)
  | .cjr a => some (0x60000000 + a.val * 262144)
  | .cjalr d a => some (0x60000001 + d.val * 4194304 + a.val * 262144)
  | .ccall a d => some (0x60000002 + a.val * 262144 + d.val * 4194304)
  | .ldc t b a i => some (0x64000000 + t.code * 4194304 + b.val * 8192 + a.val * 262144 + i.toNat)
  | .stc t b a i => some (0x68000000 + t.code * 4194304 + b.val * 8192 + a.val * 262144 + i.toNat)
  | .ldcc d a i => some (0x6C000000 + d.val * 4194304 + a.val * 262144 + i.toNat)
  | .stcc d a i => some (0x70000000 + d.val * 4194304 + a.val * 262144 + i.toNat)
  | .amoswap w c d b a => some (0x74000000 + w.code * 128 + c.code + d.val * 256 + b.val * 8192 + a.val * 262144)
  | .amoadd w c d b a => some (0x74000008 + w.code * 128 + c.code + d.val * 256 + b.val * 8192 + a.val * 262144)
  | .amoand w c d b a => some (0x74000010 + w.code * 128 + c.code + d.val * 256 + b.val * 8192 + a.val * 262144)
  | .amoor w c d b a => some (0x74000018 + w.code * 128 + c.code + d.val * 256 + b.val * 8192 + a.val * 262144)
  | .amoxor w c d b a => some (0x74000020 + w.code * 128 + c.code + d.val * 256 + b.val * 8192 + a.val * 262144)
  | .amomin w c d b a => some (0x74000028 + w.code * 128 + c.code + d.val * 256 + b.val * 8192 + a.val * 262144)
  | .amomax w c d b a => some (0x74000030 + w.code * 128 + c.code + d.val * 256 + b.val * 8192 + a.val * 262144)
  | .amominu w c d b a => some (0x74000038 + w.code * 128 + c.code + d.val * 256 + b.val * 8192 + a.val * 262144)
  | .amomaxu w c d b a => some (0x74000040 + w.code * 128 + c.code + d.val * 256 + b.val * 8192 + a.val * 262144)
  | .amocas w c d b a => some (0x74000048 + w.code * 128 + c.code + d.val * 256 + b.val * 8192 + a.val * 262144)
  | .csetbounds d a b => some (0x78000000 + d.val * 4194304 + a.val * 262144 + b.val * 8192)
  | .csetboundsx d a b => some (0x78000001 + d.val * 4194304 + a.val * 262144 + b.val * 8192)
  | .cincaddr d a b => some (0x78000002 + d.val * 4194304 + a.val * 262144 + b.val * 8192)
  | .csetaddr d a b => some (0x78000003 + d.val * 4194304 + a.val * 262144 + b.val * 8192)
  | .candperm d a b => some (0x78000004 + d.val * 4194304 + a.val * 262144 + b.val * 8192)
  | .cseal d a b => some (0x78000005 + d.val * 4194304 + a.val * 262144 + b.val * 8192)
  | .cunseal d a b => some (0x78000006 + d.val * 4194304 + a.val * 262144 + b.val * 8192)
  | .cmove d a => some (0x78000007 + d.val * 4194304 + a.val * 262144)
  | .cclrtag d a => some (0x78000008 + d.val * 4194304 + a.val * 262144)
  | .cgetaddr b a => some (0x78000010 + b.val * 8192 + a.val * 262144)
  | .cgetbase b a => some (0x78000011 + b.val * 8192 + a.val * 262144)
  | .cgetlen b a => some (0x78000012 + b.val * 8192 + a.val * 262144)
  | .cgetperm b a => some (0x78000013 + b.val * 8192 + a.val * 262144)
  | .cgettag b a => some (0x78000014 + b.val * 8192 + a.val * 262144)
  | .cgetseal b a => some (0x78000015 + b.val * 8192 + a.val * 262144)
  | .ctestsub b a d => some (0x78000016 + b.val * 8192 + a.val * 262144 + d.val * 4194304)
  | .cfitlen b => some (0x78000018 + b.val * 8192)
  | .cfitexp b => some (0x78000019 + b.val * 8192)
  | .cincaddri d a i => some (0x7C000000 + d.val * 4194304 + a.val * 262144 + i.toNat)
  | .csetboundsi d a i => some (0x80000000 + d.val * 4194304 + a.val * 262144 + i.toNat)
  | .sload d a n => some (0x84000100 + d.val * 2097152 + a.val * 65536 + n.toNat)
  | .sseed a n => some (0x84000200 + a.val * 65536 + n.toNat)
  | .ssend a n => some (0x84000300 + a.val * 65536 + n.toNat)
  | .srecv d n => some (0x84000400 + d.val * 2097152 + n.toNat)
  | .sdrain n => some (0x84000500 + n.toNat)
  | .sbar => some 0x84000600
  | .msend a c => some (0x88000100 + a.val * 65536 + c.toNat)
  | .mrecv d c => some (0x88000200 + d.val * 2097152 + c.toNat)
  | .ecopy d a n => some (0x8C000100 + d.val * 2097152 + a.val * 65536 + n.val)
  | .egather d a n => some (0x8C000200 + d.val * 2097152 + a.val * 65536 + n.val)
  | .ecoll d a n => some (0x8C000300 + d.val * 2097152 + a.val * 65536 + n.val)
  | .binit c a b => some (0x90000100 + c.code * 2097152 + a.val * 65536 + b.toNat)
  | .barv b => some (0x90000200 + b.toNat)
  | .bwait b => some (0x90000300 + b.toNat)
  | .btest d b => some (0x90000400 + d.val * 2097152 + b.toNat)
  | .barvw b => some (0x90000500 + b.toNat)
  | .qpush d a q => some (0x94000100 + d.val * 2097152 + a.val * 65536 + q.toNat)
  | .qstat d q => some (0x94000200 + d.val * 2097152 + q.toNat)
  | .gplace d a n => some (0x98000100 + d.val * 2097152 + a.val * 65536 + n.val)
  | .gmove d a n => some (0x98000200 + d.val * 2097152 + a.val * 65536 + n.val)
  | .gcut d a => some (0x98000300 + d.val * 2097152 + a.val * 65536)
  | .gfreeze d a => some (0x98000400 + d.val * 2097152 + a.val * 65536)
  | .gevict d a => some (0x98000500 + d.val * 2097152 + a.val * 65536)
  | .gresume d a => some (0x98000600 + d.val * 2097152 + a.val * 65536)
  | .gstat d a => some (0x98000700 + d.val * 2097152 + a.val * 65536)
  | .bcst a n => some (0x9C000100 + a.val * 65536 + n.val)
  | .bcfence => some 0x9C000200
  | .bslot d => some (0x9C000300 + d.val * 2097152)
  | .fence c => some (0xA0000100 + c.code)
  | .syield => some 0xA0000200
  | .trap c => some (0xA0000300 + c.toNat)
  | .tret => some 0xA0000400
  | .sleep a => some (0xA0000500 + a.val * 65536)
  | .mfk d k => some (0xA0001000 + d.val * 2097152 + k.code)
  | .mtk a k => some (0xA0001100 + a.val * 65536 + k.code)
  | .tlbinvStage1 a => some (0xA0002000 + a.val * 65536)
  | .tlbinvStage2 a => some (0xA0002001 + a.val * 65536)
  | .tlbsync => some 0xA0002100
  | .cxstat d a => some (0xA0003000 + d.val * 2097152 + a.val * 65536)
  | .cxquiesce d a => some (0xA0003100 + d.val * 2097152 + a.val * 65536)
  | .cxresume d a => some (0xA0003200 + d.val * 2097152 + a.val * 65536)
  | .ldisc m a n => some (0xA0004000 + m.code * 2097152 + a.val * 65536 + n.val)
  | _ => none

/-! ## Element words -/

/-- The fields of an element word (R46). -/
def elemArgs (w : Nat) : ElemArgs :=
  { fsel := Fin.ofNat 8 (fld w 21 3), rep := Fin.ofNat 8 (fld w 18 3), cx := BitVec.ofNat 9 (fld w 9 9),
    cy := BitVec.ofNat 9 (fld w 0 9) }

/-- The bits of an element word below its opcode (R46). -/
def ElemArgs.bits (a : ElemArgs) : Nat :=
  a.fsel.val * 2097152 + a.rep.val * 262144 + a.cx.toNat * 512 + a.cy.toNat

/-- The operation an element opcode names (R51). Marked noncomputable for one reason: Lean's runtime has
8-bit constructor tags, so compiled code cannot build the 402-constructor type's last ones; the kernel
evaluates it. -/
noncomputable def elemOp (op : Nat) (a : ElemArgs) : Option Instr :=
  match op with
  | 0x00 => some (.elMov a)
  | 0x01 => some (.elAdd a)
  | 0x02 => some (.elSub a)
  | 0x03 => some (.elMul a)
  | 0x04 => some (.elMulhi a)
  | 0x05 => some (.elDiv a)
  | 0x06 => some (.elRem a)
  | 0x07 => some (.elNeg a)
  | 0x08 => some (.elAbs a)
  | 0x09 => some (.elMin a)
  | 0x0A => some (.elMax a)
  | 0x0B => some (.elAdds a)
  | 0x0C => some (.elSubs a)
  | 0x0D => some (.elAbsd a)
  | 0x0E => some (.elMad a)
  | 0x0F => some (.elClamp a)
  | 0x10 => some (.elFma a)
  | 0x11 => some (.elFadd a)
  | 0x12 => some (.elFsub a)
  | 0x13 => some (.elFmul a)
  | 0x14 => some (.elFdiv a)
  | 0x15 => some (.elFsqrt a)
  | 0x16 => some (.elFmin a)
  | 0x17 => some (.elFmax a)
  | 0x18 => some (.elFneg a)
  | 0x19 => some (.elFabs a)
  | 0x1A => some (.elFrcp a)
  | 0x1B => some (.elFrsqrt a)
  | 0x1C => some (.elFexp2 a)
  | 0x1D => some (.elFlog2 a)
  | 0x1E => some (.elFsinpi a)
  | 0x1F => some (.elFcospi a)
  | 0x20 => some (.elCmpeq a)
  | 0x21 => some (.elCmpne a)
  | 0x22 => some (.elCmplt a)
  | 0x23 => some (.elCmple a)
  | 0x24 => some (.elCmpun a)
  | 0x25 => some (.elSel a)
  | 0x26 => some (.elClass a)
  | 0x28 => some (.elAnd a)
  | 0x29 => some (.elOr a)
  | 0x2A => some (.elXor a)
  | 0x2B => some (.elNot a)
  | 0x2C => some (.elShl a)
  | 0x2D => some (.elShr a)
  | 0x2E => some (.elSar a)
  | 0x2F => some (.elRol a)
  | 0x30 => some (.elClz a)
  | 0x31 => some (.elCtz a)
  | 0x32 => some (.elPopc a)
  | 0x33 => some (.elBilv a)
  | 0x34 => some (.elBdlv a)
  | 0x35 => some (.elBrev a)
  | 0x36 => some (.elBfx a)
  | 0x37 => some (.elBfi a)
  | 0x38 => some (.elCvt a)
  | 0x39 => some (.elCvts a)
  | 0x3A => some (.elPack a)
  | 0x3B => some (.elUnpack a)
  | 0x3C => some (.elQmx a)
  | 0x3D => some (.elDqmx a)
  | 0x3E => some (.elBcast a)
  | 0x40 => some (.elDot a)
  | 0x41 => some (.elDota a)
  | 0x42 => some (.elDott a)
  | 0x43 => some (.elDotta a)
  | 0x48 => some (.elRsum a)
  | 0x49 => some (.elRmax a)
  | 0x4A => some (.elRmin a)
  | 0x4B => some (.elRargmax a)
  | 0x4C => some (.elRcnt a)
  | 0x50 => some (.elSteer a)
  | 0x51 => some (.elMerge a)
  | 0x52 => some (.elGate a)
  | 0x53 => some (.elDup a)
  | 0x54 => some (.elSplit a)
  | 0x55 => some (.elFrame a)
  | 0x56 => some (.elUnframe a)
  | 0x57 => some (.elSeq a)
  | 0x58 => some (.elSeqx a)
  | 0x59 => some (.elConst a)
  | 0x5A => some (.elZip a)
  | 0x5B => some (.elUnzip a)
  | 0x60 => some (.elAld a)
  | 0x61 => some (.elAst a)
  | 0x62 => some (.elAgth a)
  | 0x63 => some (.elAsct a)
  | 0x64 => some (.elAamo a)
  | 0x65 => some (.elAbnk a)
  | 0x66 => some (.elAxlat a)
  | 0x67 => some (.elAchk a)
  | 0x80 => some (.elMrd a)
  | 0x81 => some (.elMwr a)
  | 0x82 => some (.elMrmw a)
  | 0x83 => some (.elMfifo a)
  | 0x84 => some (.elMdbuf a)
  | 0x85 => some (.elMcopy a)
  | 0x86 => some (.elMfill a)
  | 0x87 => some (.elMlut a)
  | 0x90 => some (.elLmap a)
  | 0x91 => some (.elLnet a)
  | 0x92 => some (.elLpack a)
  | 0x93 => some (.elLunpk a)
  | 0x94 => some (.elLdec a)
  | 0xA0 => some (.elOfrom a)
  | 0xA1 => some (.elOto a)
  | 0xA2 => some (.elOadd a)
  | 0xA3 => some (.elOmul a)
  | 0xA4 => some (.elOmad a)
  | 0xA5 => some (.elOcmp a)
  | 0xA6 => some (.elOmax a)
  | 0xA7 => some (.elOmin a)
  | 0xB0 => some (.elXnode a)
  | 0xB1 => some (.elXnodeb a)
  | 0xB2 => some (.elXnodes a)
  | 0xC0 => some (.elEpass a)
  | 0xC1 => some (.elEturn a)
  | 0xC2 => some (.elEroute a)
  | 0xC3 => some (.elEterm a)
  | 0xC8 => some (.elHin a)
  | 0xC9 => some (.elHout a)
  | 0xCA => some (.elHbi a)
  | 0xCC => some (.elKgate a)
  | 0xCD => some (.elKlast a)
  | 0xCE => some (.elKwave a)
  | 0xCF => some (.elKbar a)
  | _ => none

/-- The opcode and fields of an element operation (R51). -/
def elemCode : Instr → Option (Nat × ElemArgs)
  | .elMov a => some (0x00, a)
  | .elAdd a => some (0x01, a)
  | .elSub a => some (0x02, a)
  | .elMul a => some (0x03, a)
  | .elMulhi a => some (0x04, a)
  | .elDiv a => some (0x05, a)
  | .elRem a => some (0x06, a)
  | .elNeg a => some (0x07, a)
  | .elAbs a => some (0x08, a)
  | .elMin a => some (0x09, a)
  | .elMax a => some (0x0A, a)
  | .elAdds a => some (0x0B, a)
  | .elSubs a => some (0x0C, a)
  | .elAbsd a => some (0x0D, a)
  | .elMad a => some (0x0E, a)
  | .elClamp a => some (0x0F, a)
  | .elFma a => some (0x10, a)
  | .elFadd a => some (0x11, a)
  | .elFsub a => some (0x12, a)
  | .elFmul a => some (0x13, a)
  | .elFdiv a => some (0x14, a)
  | .elFsqrt a => some (0x15, a)
  | .elFmin a => some (0x16, a)
  | .elFmax a => some (0x17, a)
  | .elFneg a => some (0x18, a)
  | .elFabs a => some (0x19, a)
  | .elFrcp a => some (0x1A, a)
  | .elFrsqrt a => some (0x1B, a)
  | .elFexp2 a => some (0x1C, a)
  | .elFlog2 a => some (0x1D, a)
  | .elFsinpi a => some (0x1E, a)
  | .elFcospi a => some (0x1F, a)
  | .elCmpeq a => some (0x20, a)
  | .elCmpne a => some (0x21, a)
  | .elCmplt a => some (0x22, a)
  | .elCmple a => some (0x23, a)
  | .elCmpun a => some (0x24, a)
  | .elSel a => some (0x25, a)
  | .elClass a => some (0x26, a)
  | .elAnd a => some (0x28, a)
  | .elOr a => some (0x29, a)
  | .elXor a => some (0x2A, a)
  | .elNot a => some (0x2B, a)
  | .elShl a => some (0x2C, a)
  | .elShr a => some (0x2D, a)
  | .elSar a => some (0x2E, a)
  | .elRol a => some (0x2F, a)
  | .elClz a => some (0x30, a)
  | .elCtz a => some (0x31, a)
  | .elPopc a => some (0x32, a)
  | .elBilv a => some (0x33, a)
  | .elBdlv a => some (0x34, a)
  | .elBrev a => some (0x35, a)
  | .elBfx a => some (0x36, a)
  | .elBfi a => some (0x37, a)
  | .elCvt a => some (0x38, a)
  | .elCvts a => some (0x39, a)
  | .elPack a => some (0x3A, a)
  | .elUnpack a => some (0x3B, a)
  | .elQmx a => some (0x3C, a)
  | .elDqmx a => some (0x3D, a)
  | .elBcast a => some (0x3E, a)
  | .elDot a => some (0x40, a)
  | .elDota a => some (0x41, a)
  | .elDott a => some (0x42, a)
  | .elDotta a => some (0x43, a)
  | .elRsum a => some (0x48, a)
  | .elRmax a => some (0x49, a)
  | .elRmin a => some (0x4A, a)
  | .elRargmax a => some (0x4B, a)
  | .elRcnt a => some (0x4C, a)
  | .elSteer a => some (0x50, a)
  | .elMerge a => some (0x51, a)
  | .elGate a => some (0x52, a)
  | .elDup a => some (0x53, a)
  | .elSplit a => some (0x54, a)
  | .elFrame a => some (0x55, a)
  | .elUnframe a => some (0x56, a)
  | .elSeq a => some (0x57, a)
  | .elSeqx a => some (0x58, a)
  | .elConst a => some (0x59, a)
  | .elZip a => some (0x5A, a)
  | .elUnzip a => some (0x5B, a)
  | .elAld a => some (0x60, a)
  | .elAst a => some (0x61, a)
  | .elAgth a => some (0x62, a)
  | .elAsct a => some (0x63, a)
  | .elAamo a => some (0x64, a)
  | .elAbnk a => some (0x65, a)
  | .elAxlat a => some (0x66, a)
  | .elAchk a => some (0x67, a)
  | .elMrd a => some (0x80, a)
  | .elMwr a => some (0x81, a)
  | .elMrmw a => some (0x82, a)
  | .elMfifo a => some (0x83, a)
  | .elMdbuf a => some (0x84, a)
  | .elMcopy a => some (0x85, a)
  | .elMfill a => some (0x86, a)
  | .elMlut a => some (0x87, a)
  | .elLmap a => some (0x90, a)
  | .elLnet a => some (0x91, a)
  | .elLpack a => some (0x92, a)
  | .elLunpk a => some (0x93, a)
  | .elLdec a => some (0x94, a)
  | .elOfrom a => some (0xA0, a)
  | .elOto a => some (0xA1, a)
  | .elOadd a => some (0xA2, a)
  | .elOmul a => some (0xA3, a)
  | .elOmad a => some (0xA4, a)
  | .elOcmp a => some (0xA5, a)
  | .elOmax a => some (0xA6, a)
  | .elOmin a => some (0xA7, a)
  | .elXnode a => some (0xB0, a)
  | .elXnodeb a => some (0xB1, a)
  | .elXnodes a => some (0xB2, a)
  | .elEpass a => some (0xC0, a)
  | .elEturn a => some (0xC1, a)
  | .elEroute a => some (0xC2, a)
  | .elEterm a => some (0xC3, a)
  | .elHin a => some (0xC8, a)
  | .elHout a => some (0xC9, a)
  | .elHbi a => some (0xCA, a)
  | .elKgate a => some (0xCC, a)
  | .elKlast a => some (0xCD, a)
  | .elKwave a => some (0xCE, a)
  | .elKbar a => some (0xCF, a)
  | _ => none

/-- The operation of an element word, or why it names none (R46, R51). -/
noncomputable def decodeElem (w : Nat) : Except ElemReject Instr :=
  if w = 0xFF03FFFF then .error .nop
  else if fld w 24 8 = 0xFF then .error .badNop
  else match elemOp (fld w 24 8) (elemArgs w) with
    | some i => .ok i
    | none => .error .undefinedOpcode

/-- The word of an element operation (R46). -/
def encodeElem (i : Instr) : Option Nat := (elemCode i).map fun p => p.1 * 16777216 + p.2.bits

/-! ## Matrix control tokens -/

/-- The fields of a control token (R59). -/
def matArgs (w : Nat) : MatArgs :=
  { m := BitVec.ofNat 8 (fld w 8 8), n := BitVec.ofNat 8 (fld w 16 8), k := BitVec.ofNat 8 (fld w 24 8),
    buf := BitVec.ofNat 2 (fld w 32 2), acc := fld w 34 1 == 1, chain := fld w 35 1 == 1,
    bt := fld w 36 1 == 1, dcvt := BitVec.ofNat 3 (fld w 37 3) }

/-- The bits of a control token above its OP (R59). -/
def MatArgs.bits (a : MatArgs) : Nat :=
  a.m.toNat * 256 + a.n.toNat * 65536 + a.k.toNat * 16777216 + a.buf.toNat * 4294967296 +
    a.acc.toNat * 17179869184 + a.chain.toNat * 34359738368 + a.bt.toNat * 68719476736 +
    a.dcvt.toNat * 137438953472

/-- The operation a control token's OP names (R60). -/
def matOp (op : Nat) (a : MatArgs) : Option Instr :=
  match op with
  | 0x01 => some (.mxMma a)
  | 0x02 => some (.mxMmas a)
  | 0x03 => some (.mxMmab a)
  | 0x04 => some (.mxBload a)
  | 0x05 => some (.mxBdrop a)
  | 0x08 => some (.mxAzero a)
  | 0x09 => some (.mxAload a)
  | 0x0A => some (.mxAstore a)
  | 0x0B => some (.mxAstorez a)
  | 0x0C => some (.mxAadd a)
  | 0x0D => some (.mxAscale a)
  | 0x0E => some (.mxAbias a)
  | 0x10 => some (.mxTrn a)
  | 0x11 => some (.mxRmax a)
  | 0x12 => some (.mxRsum a)
  | 0x18 => some (.mxMark a)
  | 0x19 => some (.mxXfence a)
  | 0x1A => some (.mxCntrd a)
  | _ => none

/-- The OP and fields of a matrix operation (R60). -/
def matCode : Instr → Option (Nat × MatArgs)
  | .mxMma a => some (0x01, a)
  | .mxMmas a => some (0x02, a)
  | .mxMmab a => some (0x03, a)
  | .mxBload a => some (0x04, a)
  | .mxBdrop a => some (0x05, a)
  | .mxAzero a => some (0x08, a)
  | .mxAload a => some (0x09, a)
  | .mxAstore a => some (0x0A, a)
  | .mxAstorez a => some (0x0B, a)
  | .mxAadd a => some (0x0C, a)
  | .mxAscale a => some (0x0D, a)
  | .mxAbias a => some (0x0E, a)
  | .mxTrn a => some (0x10, a)
  | .mxRmax a => some (0x11, a)
  | .mxRsum a => some (0x12, a)
  | .mxMark a => some (0x18, a)
  | .mxXfence a => some (0x19, a)
  | .mxCntrd a => some (0x1A, a)
  | _ => none

/-- The operation of a control token, or why it names none (R59, R60); its fields' ranges are judged
by `MatArgs.valid`. -/
def decodeMatrix (w : Nat) : Except MatReject Instr :=
  if fld w 40 24 ≠ 0 then .error .reserved
  else match matOp (fld w 0 8) (matArgs w) with
    | some i => .ok i
    | none => .error .operation

/-- The data word of a matrix control token (R59). -/
def encodeMatrix (i : Instr) : Option Nat := (matCode i).map fun p => p.1 + p.2.bits

/-! ## Bytes, and the opcode table's words -/

/-- A number from its bytes, least significant first (R3). -/
def ofBytesLE : List Byte → Nat
  | [] => 0
  | b :: bs => b.toNat + 256 * ofBytesLE bs

/-- The helm instruction at the head of a byte sequence, and the rest (R33). -/
def decodeBytes : List Byte → Option (Instr × List Byte)
  | a :: b :: c :: d :: rest => match decodeHelm (ofBytesLE [a, b, c, d]) with
    | .ok i => some (i, rest)
    | .error _ => none
  | _ => none

/-- Whether w is a helm word (checks 1 to 4 of R43). -/
def isHelmWord (w : Nat) : Bool := match decodeHelm w with | .ok _ => true | .error _ => false

/-- The instruction of a table word (log 11): a 64-bit word is a matrix control token; a 32-bit word is
a helm word where it is a legal one, else an element word. -/
noncomputable def decodeTableWord (nbits w : Nat) : Option Instr :=
  if nbits = 64 then (decodeMatrix w).toOption
  else if nbits = 32 then
    if isHelmWord w then (decodeHelm w).toOption else (decodeElem w).toOption
  else none

end Sys2Proof
end

