-- ==== Sys2Proof/Config.lean ====
section
/-! DEFINITION. What an implementation fixes, and the free values the spec leaves open. -/

namespace Sys2Proof.Config

/-- Bytes of device memory, 720 GiB (R23, R363). -/
def deviceBytes : Nat := 720 * 2 ^ 30

/-- Bytes of one stack's HBM that a fixed frame may name, 180 GiB (R364). -/
def stackBytes : Nat := 180 * 2 ^ 30

/-- FREE VALUE (log 3): what an instruction or event yields where the spec states no value; the
argument is the state's free-value counter, so that every use has a value of its own. -/
opaque freeValue : Nat → BitVec 64

/-- FREE VALUE (log 38): the bytes of an image that the Pilot writes, whose layout the spec does not give: first argument
the free-value counter, second the byte's place (R344, R350). -/
opaque imageByte : Nat → Nat → BitVec 8

/-- FREE VALUE (log 38): byte n of a snapshot record's body, sealed under the snapshot key of a context (its key epoch) and
an IV: a function of the body (R344). The spec gives the key no value. -/
opaque snapCipher : Nat → BitVec 96 → List (BitVec 8) → Nat → BitVec 8

/-- FREE VALUE (log 38): the GCM tag of a snapshot record over what it covers, under the same key and IV (R344). -/
opaque snapTag : Nat → BitVec 96 → List (BitVec 8) → BitVec 128

/-- FREE VALUE (log 38): the IV from which Lodestone counts, so that none comes twice (R344). -/
opaque snapIv : BitVec 96

/-- FREE VALUE (log 8): whether the L2 slice still holds a line (first argument: the line, second:
the free-value counter). The spec gives no replacement policy (R277, R278). -/
opaque lineHeld : Nat → Nat → Bool

/-- FREE VALUE (log 8): the L2 slice and the set of it in which a line stands; the spec gives no selection (R22, R23). -/
opaque l2Set : Nat → Nat

/-- FREE VALUE (log 104): whether a base die's walkers still hold a table entry (first argument: where it stands, second:
the free-value counter). The spec gives the cache no size (R369). -/
opaque walkHeld : Nat → Nat → Bool

/-- FREE VALUE (log 30): what the Sieve and the revocation filter take a byte of a poisoned line of a map to hold, by its
address (R256, R304). -/
opaque poisonedMap : Nat → BitVec 8

/-- FREE VALUE (log 31): whether a port tile's L1 still holds a line that it has filled (first argument: the line,
second: the free-value counter). The spec gives no replacement policy (R265). -/
opaque l1Held : Nat → Nat → Bool

/-- FREE VALUE (log 31): which of the lines of a full L1 gives way to a fill (R23). -/
opaque l1Victim : Nat → Nat

/-- FREE VALUE (log 97): the slice of a fused L1 that a line's physical address selects (R266). -/
opaque fusedSlice : Nat → Nat

/-- FREE VALUE (log 7): the data keys that Lodestone draws from its random source: by key epoch and key id, the two
AES-256 keys and the MAC key of 32 bytes each (R303). -/
opaque dataKey : Nat → Nat → List (BitVec 8)

/-- FREE VALUE (log 105): what another package's Lodestone sends of a context that it migrates here, by the destination's key
epoch: bytes 0 to 255 its creation record, 256 to 319 its M, 320 to 447 its events (R307, R319, R408). -/
opaque migrated : Nat → Nat → BitVec 8

/-- FREE VALUE (log 7): an Ed448 signature under the device identity key (R301). -/
opaque ed448Sign : List (BitVec 8) → List (BitVec 8)

/-- FREE VALUE (log 7): the public manufacturing and firmware keys of R309 and R431. -/
opaque otelKey : Nat → List (BitVec 8)

/-- FREE VALUE (log 7): the SVN, MINSVN and F of a firmware manifest, whose layout the spec does not
give (R309). Field 0 is SVN, 1 MINSVN, 2 F; the second argument holds the manifest's bytes. -/
opaque manifestField : Nat → List (BitVec 8) → Nat

/-- FREE VALUE (log 7): the bytes of a firmware manifest that its signature covers, and the signature (R309). -/
opaque manifestSigned : List (BitVec 8) → List (BitVec 8) × List (BitVec 8)

/-- FREE VALUE (log 7): the bytes of a firmware manifest, whose layout the spec does not give (R309). -/
opaque manifestBytes : Nat

/-- The package serial number that the defect map must carry (R431). -/
opaque packageSerial : BitVec 64

end Sys2Proof.Config
end

