-- ==== Sys2Proof/Machine/State.lean ====
section
/-! DEFINITION. The state of the package: everything the spec gives the machine, as plain data. -/

namespace Sys2Proof.Machine

/-! ## Tokens and capabilities -/

/-- A capability: high and low doubleword and the tag (R241). -/
structure Cap where
  hi : Word := 0
  lo : Word := 0
  tag : Bool := false
deriving DecidableEq, Repr

/-- The KIND of a beat (R53); with CFG = 1 the kinds `data` and `tail` are CFGW and CFGLAST. -/
inductive Kind where
  | data | head | tail | solo | loopend | caplo | caphi
deriving DecidableEq, Repr

/-- A token beat: data and the sideband fields that carry state (R53). -/
structure Beat where
  data : Word := 0
  kind : Kind := .data
  cfg : Bool := false
  tag : Bool := false
  poi : Bool := false
deriving DecidableEq, Repr

/-- A beat waiting at a port, with the slot that delivered it (64: a route from another tile, R191)
and its producer's region (R102). -/
structure Arrived where
  beat : Beat := {}
  src : Nat := 64
  region : Nat := 0
deriving DecidableEq, Repr

/-- A result in an element's pipeline: the fc in which it emerges and the consumer field it goes to
(R47, R100). -/
structure Issued where
  due : Nat := 0
  dest : BitVec 9 := 0x1FF
  beat : Beat := {}
deriving DecidableEq, Repr

/-- Rounding modes (R8, R57). -/
inductive RMode where
  | ne | tz | pi | ni | sr
deriving DecidableEq, Repr

/-! ## Elements -/

/-- The states of a configured slot (R98); HELD is the slot's `held` flag. -/
inductive SlotState where
  | empty | configured | armed | gated | parked
deriving DecidableEq, Repr

/-- A cached translation: virtual page base and size, physical key, and the permissions of both
leaves (R150, R367). `d` tells that the walker set D. -/
structure XEntry where
  ctx : Nat := 0
  va : Nat := 0
  size : Nat := 4096
  gpa : Nat := 0
  /-- log2 of the pages of the stage-1 and stage-2 leaves it comes of (R375). -/
  log1 : Nat := 12
  log2 : Nat := 12
  pa : Nat := 0
  fix : Option Nat := none
  r : Bool := false
  w : Bool := false
  x : Bool := false
  u : Bool := false
  cs : Bool := false
  key : Nat := 0
  cid : Nat := 0
  d : Bool := false
deriving DecidableEq, Repr

/-- What a memory request of an element does (R144); a `mark` is a beat kept in firing order among the
requests, `complete` the completion beat of a run. -/
inductive ReqKind where
  | load | store | amo (op : Nat) | mark | complete
deriving DecidableEq, Repr

/-- An atomic. -/
def ReqKind.isAmo : ReqKind → Bool
  | .amo _ => true
  | .load | .store | .mark | .complete => false

/-- An outstanding request of an address generator, or a beat kept in firing order among them (R144). -/
structure Req where
  id : Nat := 0
  kind : ReqKind := .load
  va : Word := 0
  size : Nat := 8
  data : Word := 0
  data2 : Word := 0
  cmp : Word := 0
  /-- The data, or an atomic's operand, is poisoned. -/
  poi : Bool := false
  tag : Bool := false
  /-- The capability that authorised it (R260). -/
  cap : Cap := {}
  /-- The slot of the bound axlat, and the stream port (R141). -/
  xslot : Nat := 40
  port : Nat := 0
  /-- The copy that issued it, and the KIND of the beat it comes of (R111, R144). -/
  copy : Nat := 0
  framing : Kind := .data
  /-- COMM of its run (R373). -/
  comm : Bool := false
  /-- Spilled at the port tile, waiting for its record, and its place in spill order (R372). -/
  spilled : Bool := false
  spillAt : Nat := 0
  /-- Answered ABORT (R387). -/
  aborted : Bool := false
  /-- The reply beats, once performed; a LOOPEND, a lost beat or a completion beat has them at once. -/
  reply : Option (List Beat) := none
deriving DecidableEq, Repr

/-- A stopped address-generator firing: cause, lane mask, first failing address (R147). -/
structure GenStop where
  cause : Nat := 0
  lanes : Nat := 0
  addr : Word := 0
  /-- The action its record was answered with (R147, R387). -/
  action : Option Nat := none
deriving DecidableEq, Repr

/-- The run state of an element (R98): what its operation keeps between firings. -/
structure Run where
  /-- A run, slab or stream is open. -/
  isOpen : Bool := false
  /-- Beats, values or fields counted in it. -/
  cnt : Nat := 0
  /-- Loop counters i0 to i5 (R138, R142). -/
  idx : List Nat := []
  /-- Exact integer accumulator (R97, R127, R129). -/
  acc : Int := 0
  /-- Accumulator held as an encoded value (R129). -/
  accBits : Word := 0
  accSet : Bool := false
  /-- Position of the best value (R129). -/
  pos : Nat := 0
  products : Nat := 0
  poisoned : Bool := false
  /-- How the preceding run closed: none before any close, true by a LOOPEND (R128). -/
  closed : Option Bool := none
  /-- The turn of merge, unzip and zip (R136). -/
  turn : Bool := false
  /-- A LOOPEND firing that is due, with its dimension (R142). -/
  loopDue : Option Nat := none
  /-- Held beats: frame's held beat, slabs, FIFO contents, held firing (R109, R137, R158). -/
  beats : List Beat := []
  beatsB : List Beat := []
  beatsC : List Beat := []
  /-- Bitstream held by lpack, lunpk and ldec (R185, R186). -/
  bits : Nat := 0
  bitLen : Nat := 0
  /-- Parameters and LUTs in force for the bits that lunpk or ldec holds, where a word has come since (R187). -/
  past : Option (Table Nat × Table Nat) := none
  /-- Flip-flops Q and the poison marks of a LUT island, by copy (R183, R187). -/
  q : Table Word := []
  marks : List Nat := []
  /-- Ports whose slab is to be discarded to its end; 4 is added while it has not begun (R177). -/
  drains : List Nat := []
  /-- mdbuf: which half is the write half, and whether a swap has happened (R159). -/
  half : Bool := false
  swapped : Bool := false
  /-- The capability of the open run, and whether it is poisoned (R142, R143). -/
  cap : Cap := {}
  capPoi : Bool := false
  /-- The parameters in force for the open run (R142). -/
  held : Table Nat := []
  /-- Parameters written while the generator is STOPPED (R147). -/
  stopWords : Table Nat := []
  firings : Nat := 0
  stored : Nat := 0
  stop : Option GenStop := none
  /-- The index of the current output stream or pair (R175, R177). -/
  stream : Nat := 0
  cutNow : Bool := false
  reqs : List Req := []
  /-- The current page of each copy (R150). -/
  pages : Table XEntry := []
  cache : List XEntry := []
  /-- Beats of an axlat's A port whose lookup is still to be answered (R150). -/
  lookups : List Beat := []
  /-- A pending bank command beat (R160). -/
  command : Option Beat := none
  /-- The fc from which it goes on: a bank command's end, a reduction's next beat (R129, R160). -/
  due : Nat := 0
deriving DecidableEq, Repr

/-- A configured slot (R98, R99). -/
structure Slot where
  st : SlotState := .empty
  held : Bool := false
  word : Word32 := 0xFF03FFFF
  region : Nat := 0
  phase : Nat := 0
  ii : Nat := 1
  round : RMode := .ne
  seed : BitVec 32 := 0x9E3779B9
  consts : Table Word := []
  /-- Class parameters by SEL; an absent one has its default. -/
  params : Table Nat := []
  /-- LUTCFG words by LUT (R181). -/
  luts : Table Nat := []
  portA : List Arrived := []
  portB : List Arrived := []
  portC : List Arrived := []
  portP : List Arrived := []
  /-- Stochastic generator state by copy; an absent copy follows the seed (R89). -/
  gens : Table (BitVec 32) := []
  pipe : List Issued := []
  out : List (BitVec 9 × Beat) := []
  run : Run := {}
  /-- The fc in which it last applied a configuration word (R104). -/
  wordFc : Option Nat := none
  /-- Row owner of the slot under lazy eviction (R306). -/
  owner : Option Nat := none
deriving DecidableEq, Repr

/-- A memory bank: bytes (canonical), tagged granules, poisoned bytes by groups of 4 (beats begin at multiples of 4:
R155, R159), row owners (R19, R306). -/
structure Bank where
  cells : List Host.Cell := []
  tags : List Nat := []
  poison : List Nat := []
  owners : Table Nat := []
deriving DecidableEq, Repr

/-- The working copy of a matrix operation, before it commits (R195): the region, its new cells row by
row, and its new marks block by block. -/
structure MatWork where
  buf : Nat := 0
  wide : Bool := false
  m : Nat := 0
  n : Nat := 0
  cells : List Nat := []
  marks : List Bool := []
deriving DecidableEq, Repr

/-- The stationary store of an xnodeb (R198): N and K, the profile entry of the B format, BT, and the
beats and poison of each native block. -/
structure MatStore where
  n : Nat := 0
  k : Nat := 0
  entry : Nat := 0
  bt : Bool := false
  blocks : List (List Word) := []
  poi : List Bool := []
deriving DecidableEq, Repr

/-- The matrix node's own state (R193, R198, R201, R203). -/
structure Matrix where
  /-- Raw 32-bit cells of buffer 0 and 1, by 256 x row + column; absent cells are 0. -/
  buf0 : Table (BitVec 32) := []
  buf1 : Table (BitVec 32) := []
  /-- Poisoned 16 x 16 blocks, by 16 x block row + block column. -/
  marks0 : List Nat := []
  marks1 : List Nat := []
  store : Option MatStore := none
  errs : BitVec 32 := 0
  committed : Word := 0
  work : Option MatWork := none
  /-- The token at the head of P is accepted (R202). -/
  accepted : Bool := false
  /-- Its operand ports have been opened (R190). -/
  opened : Bool := false
  /-- Array fc still to be performed for it, and the fc until which the array is busy (R204). -/
  left : Option Nat := none
  busyUntil : Nat := 0
  /-- The window of the governor that `used` counts, and the count of the one before (R204). -/
  window : Nat := 0
  used : Nat := 0
  usedLast : Nat := 0
deriving DecidableEq, Repr

/-! ## Tiles and threads -/

/-- A resolved route entry (R71, R164, R342): the destination, and the path laid to it: channels of the configured mesh
(tile, edge, channel), or router ports of the tile network held for a partition. -/
structure Route where
  tile : Nat := 0
  slot : Nat := 0
  port : Nat := 0
  path : List (Nat × Nat × Nat) := []
  net : List Nat := []
  part : Nat := 0
deriving DecidableEq, Repr

/-- A virtual channel of a router port reserved for a partition, with its buffer slots and the routes that hold it
(R396). -/
structure Vc where
  part : Nat := 0
  buf : Nat := 4
  routes : Nat := 0
deriving DecidableEq, Repr

/-- A barrier record of a tile (R355). -/
structure Barrier where
  valid : Bool := false
  pend : Bool := false
  scope : BitVec 3 := 0
  exp : BitVec 16 := 0
  arr : Nat := 0
  pv : Bool := false
deriving DecidableEq, Repr

/-- What a tile sends to a barrier's home, in its order (R356): an arrival, with the engine request of
an ECOLL participant, or an init. -/
inductive HomeMsg where
  | arrival (tile : Nat) (coll : Option Nat)
  | init (tile : Nat) (exp : BitVec 16)
deriving DecidableEq, Repr

/-- A barrier's home: EXP, ARR, PH, and the messages still to be taken, each with the fc in which it reaches the home
(R356). -/
structure Home where
  isOpen : Bool := false
  exp : BitVec 16 := 0
  arr : Nat := 0
  ph : Bool := false
  inbox : List (Nat × HomeMsg) := []
  /-- The engine requests of ECOLL participants of the current phase, and those of a completed one
  (R232). -/
  colls : List Nat := []
  collsDone : List (List Nat) := []
deriving DecidableEq, Repr

/-- A posted broadcast request (R291). -/
structure Bcst where
  thread : Nat := 0
  ctx : Nat := 0
  bank : Nat := 0
  off : Nat := 0
  row : Nat := 0
  left : Nat := 0
  storeCap : Bool := false
  storeLocal : Bool := false
  /-- The capability that authorises it (R260). -/
  cap : Cap := {}
  /-- Its place in the order of acceptance (R293). -/
  seq : Nat := 0
deriving DecidableEq, Repr

/-- A helm unit: stream queues by stream number, its Beacon queue and translation cache (R227, R291,
R223). -/
structure Unit where
  outq : Table (List Beat) := []
  inq : Table (List Beat) := []
  bcst : List Bcst := []
  cache : List XEntry := []
deriving DecidableEq, Repr

/-- A compute tile (R19, R302, R342). -/
structure Tile where
  owner : Option Nat := none
  permit : BitVec 4 := 0
  group : Option Nat := none
  col : Nat := 0
  row : Nat := 0
  configured : Bool := false
  slots : Table Slot := []
  banks : Table Bank := []
  mat : Matrix := {}
  barriers : Table Barrier := []
  /-- Arrivals still to leave: barrier and, for ECOLL, the engine request (R359). -/
  leaving : List (Nat × Option Nat) := []
  /-- Completions and init replies on their way to the tile: barrier, phase and the fc in which they reach it (R355,
  R357). -/
  phases : List (Nat × Bool × Nat) := []
  replies : List (Nat × Bool × Nat) := []
  /-- The route table, resolved (R71, R164), and the outbound channels that Pilot routes claim, by 8 x edge + channel
  (R162). -/
  routes : Table Route := []
  laid : List Nat := []
  /-- The eight entries of the block's profile (R83). -/
  profile : List Nat := []
  pair : Bool := false
  unit0 : Unit := {}
  unit1 : Unit := {}
  /-- Inbound mesh channels by 8 x edge + channel (edge 0 N, 1 E, 2 S, 3 W). -/
  inch : Table (List Arrived) := []
  /-- A beat held at an edge that it may not cross, by 8 x edge + channel (R164). -/
  edgeHeld : Table Arrived := []
  /-- Regions whose configuration-complete wave is still to be shown to K (R166). -/
  waves : List Nat := []
  /-- Last-beat tokens kept for klast, with byte counts (R166). -/
  tokens : List (Nat × Nat) := []
  /-- Barrier completions still to be shown to a kbar element. -/
  completions : List (Nat × Bool) := []
  govStall : Word := 0
  /-- LK_MESH by edge (R415). -/
  meshErr : Table (BitVec 16) := []
  /-- The evicted groups whose rows still stand in the banks, by context (R340, R350). -/
  rowsOf : Table Nat := []
  /-- Rows of the owner's group that stand in the spill area: bank, row, and the PTID under which they were spilled (R306,
  R350). -/
  away : List (Nat × Nat × Nat) := []
deriving DecidableEq, Repr

/-- The states of a thread (R212); FROZEN is the `frozen` flag. -/
inductive ThreadState where
  | idle | ready | running | waiting | yielding | trapped | halted
deriving DecidableEq, Repr

/-- What a WAITING thread waits for (R213). -/
inductive Wait where
  | none
  | outFree (n k : Nat)
  | inBeat (n : Nat)
  | outEmpty (n : Nat)
  | sbar
  | chanFree (c : ChanId)
  | chanMsg (c : ChanId)
  | engineFree
  | barrier (b : Nat)
  | beaconFree
  | beaconDone
  | refill (l : Nat)
  | tlbsync
  | sleep
  | gstat
  | access
  | drain
  | host
  | limiter (p k : Nat)
  | edge (k j : Nat)
  /-- Its page fault is answered: its access begins again. -/
  | again
deriving DecidableEq, Repr

/-- A helm thread (R208). -/
structure Thread where
  g : Vector Word 32 := Vector.replicate 32 0
  c : Vector Cap 16 := Vector.replicate 16 {}
  pcc : Cap := {}
  epcc : Cap := {}
  rxsb : Word := 0
  tvec : Word := 0
  epc : Word := 0
  ecause : Word := 0
  eval : Word := 0
  scrub : Bool := false
  stopReq : Bool := false
  inTrap : Bool := false
  priv : BitVec 2 := 0
  st : ThreadState := .idle
  frozen : Bool := false
  wait : Wait := .none
  waitSince : Nat := 0
  /-- SLEEP ends at this fc. -/
  wakeAt : Nat := 0
  hasCode : Bool := false
  /-- BARVW has made its arrival (R359). -/
  arrived : Bool := false
  /-- Barriers whose AP bit is 1 (R355). -/
  ap : List Nat := []
  /-- ABORT or UNRESOLVABLE was answered to its page fault: the stage and address to trap with (R387). -/
  pageAbort : Option (Nat × Word) := none
  /-- The word of its instruction while that waits; none when it waits at a fetch (R212, R220). -/
  instr : Option Word32 := none
  /-- Its previous instruction completes at this fc (R215, R216). -/
  busy : Nat := 0
  /-- The address saved by the trap that made it TRAPPED (R236, R387). -/
  savedAt : Word := 0
  designated : Bool := false
deriving DecidableEq, Repr

/-! ## Memory -/

/-- The seal of a line (R303): key epoch of the owner (0: the firmware), key id and the PA used. -/
structure Seal where
  owner : Nat := 0
  key : Nat := 0
  pa : Nat := 0
deriving DecidableEq, Repr

/-- A dirty line held at its L2 slice: the context that last wrote it, and the HBM contents beneath it (R277, R278). -/
structure L2Line where
  ctx : Nat := 0
  mark : Bool := false
  bytes : List Byte := []
  tags : BitVec 4 := 0
  poi : Bool := false
  sealed : Option Seal := none
deriving DecidableEq, Repr

/-- A line that an L2 slice holds: its context and its way in its set (R23, R263, R395). -/
structure L2Way where
  ctx : Nat := 0
  way : Nat := 0
deriving DecidableEq, Repr

/-- A table entry that a base die keeps for its walkers: its context and stage, where it stands, the addresses of its
stage that it serves, and its value (R369). -/
structure TableEntry where
  ctx : Nat := 0
  st2 : Bool := false
  key : Nat := 0
  lo : Nat := 0
  log : Nat := 12
  value : Word := 0
deriving DecidableEq, Repr

/-- A line of a port tile's L1: its context, the generation at which it was filled or last written, and what it holds
(R265). -/
structure L1Line where
  ctx : Nat := 0
  gen : Nat := 0
  bytes : List Byte := []
  tags : BitVec 4 := 0
  poi : Bool := false
deriving DecidableEq, Repr

/-- Memory by physical key: bytes in canonical form, tagged granules, poisoned lines, seals, and the
dirty lines held at the L2 slices. -/
structure Memory where
  cells : List Host.Cell := []
  tags : List Nat := []
  poison : List Nat := []
  seals : Table Seal := []
  dirty : Table L2Line := []
deriving DecidableEq, Repr

/-! ## System objects -/

/-- A message the hardware holds for a full channel: the fc in which it began to wait, and for an engine
response the thread that it answers (R228, R230). -/
structure HeldMsg where
  since : Nat := 0
  word : Word := 0
  thread : Option Nat := none
deriving DecidableEq, Repr

/-- A message channel: up to 16 messages, and messages the hardware holds for it (R229,
R230). -/
structure Chan where
  msgs : List Word := []
  held : List HeldMsg := []
deriving DecidableEq, Repr

/-- Who must be told of a response to a fault record (R387). -/
inductive Raiser where
  | none
  | gen (p n : Nat)
  | thread (t : Nat)
  | port (g q page : Nat)
  | engine (k : Nat)
  | admission (q : Nat)
  | sieve (x k page : Nat)
  | loader (g : Nat)
deriving DecidableEq, Repr

/-- A fault record before and after it is written (R382). -/
structure Record where
  id : Nat := 0
  cause : Nat := 0
  detail : Nat := 0
  src : Nat := 0
  walk : Bool := false
  redirect : Bool := false
  place : Nat := 0
  slot : Nat := 255
  ctx : Option Nat := none
  addr : Word := 0
  aux : Word := 0
  lanes : Word := 0
  idx : List Nat := []
  group : Word := 0
  seq : Nat := 0
  toH : Bool := false
  raiser : Raiser := .none
  /-- The GPA or PCIe address is in `aux`; a joined PAGE1 record counts its requests there. -/
  waits : Bool := false
  /-- The fc in which it arose (R389), and the epoch of its context then (R386, R390). -/
  arose : Nat := 0
  epoch : Nat := 0
deriving DecidableEq, Repr

/-- A walk asked for again after a response RETRY (R369, R387): the record answered tells its context, its
address and who waits for it. -/
structure PendingWalk where
  id : Nat := 0
  rec_ : Record := {}
deriving DecidableEq, Repr

/-- A byte that a gather has read and still has to write: its address, and whether it is poisoned (R272). -/
structure GatherByte where
  at_ : Nat := 0
  byte : Byte := 0
  poi : Bool := false
deriving DecidableEq, Repr

/-- What an engine has read: bytes, the granule addresses that bear a tag with their capabilities, the ranges of addresses
whose line is poisoned, and whether a host frame was among them (R232, R406). -/
structure EngRead where
  bytes : List Byte := []
  tags : List (Nat × Cap) := []
  bad : List (Nat × Nat) := []
  host : Bool := false
deriving DecidableEq, Repr

/-- A posted engine request (R231). -/
structure EngReq where
  id : Nat := 0
  kind : Nat := 0
  thread : Nat := 0
  /-- The group of its thread (R233, R350). -/
  gh : Nat := 0
  place : Nat := 0
  ctx : Nat := 0
  src : Cap := {}
  dst : Cap := {}
  word : Word := 0
  user : Bool := true
  home : Option HomeId := none
  performed : Bool := false
  paused : Bool := false
  status : Nat := 0
  bytes : Nat := 0
  bounce : Bool := false
  /-- Its context left ACTIVE, or its interface RUN, while it was in flight (R406). -/
  spoilt : Bool := false
  /-- Units of its transfer done (R232). -/
  next : Nat := 0
  /-- What it has read of the unit under way, and in how many accesses. -/
  got : EngRead := {}
  gotN : Nat := 0
  /-- The details of the REVOKED records it has led to (R260). -/
  told : List Nat := []
  /-- Its last-beat token waits for the group to stand again (R166, R350). -/
  tokenDue : Bool := false
  /-- The page it faulted at, and those answered ABORT: 2 x page, and 1 more for a store (R232). -/
  faultAt : Nat := 0
  aborts : List Nat := []
  /-- What a gather has read of granules not yet whole (R272). -/
  gathered : List GatherByte := []
  /-- The home stack to which no path carried its next access (R346, R414). -/
  edge : Option Nat := none
deriving DecidableEq, Repr

/-- A queue of launch records (R312, R315, R316, R320). -/
structure Queue where
  weight : Nat := 1
  win : Nat := 0
  vfv : Bool := false
  vf : Nat := 0
  prio : Nat := 0
  bound : Bool := false
  ctx : Nat := 0
  st : Nat := 0
  records : List (BitVec 512) := []
  lseq : BitVec 32 := 0
  rejcnt : Nat := 0
  lasterr : Nat := 0
  ovf : Bool := false
  badwr : Bool := false
  vtime : Nat := 0
  ready : Bool := false
  /-- A byte of the head record's reads was answered ABORT or declared unresolvable (R321). -/
  unreadable : Bool := false
  /-- What admission has read for the head record, in how many accesses, and whether it waits to read on (R321, R398). -/
  got : List Byte := []
  gotN : Nat := 0
  held : Bool := false
deriving DecidableEq, Repr

/-- The states of a kernel (R326). -/
inductive KernelState where
  | submitted | verifying | admitted | placed | configuring | live | draining | retired | rejected
deriving DecidableEq, Repr

/-- The states of a group, with the numbers GSTAT reports (R339). -/
inductive GroupState where
  | unplaced | leased | configuring | armed | firing | gated | cutting | cut | moving | frozen
  | evicted | retired
deriving DecidableEq, Repr

/-- A set of holders: CH or FH (R339). -/
structure Holders where
  guest : Bool := false
  hyper : Bool := false
  pilot : Bool := false
deriving DecidableEq, Repr

/-- An actor channel's counters (R102, R330). -/
structure Actor where
  chan : Nat := 0
  producer : Nat := 0
  consumer : Nat := 0
  nin : Nat := 0
  nout : Nat := 0
  slots : Nat := 0
  tc : BitVec 16 := 0
  fs : BitVec 16 := 0
deriving DecidableEq, Repr

/-- A region of a group (R100): position, whether it is ARMED, fc advanced since, iterations. -/
structure Region where
  q : Nat := 0
  armed : Bool := false
  advanced : Nat := 0
  /-- It held at a missing beat in its last fc (R101). -/
  gated : Bool := false
deriving DecidableEq, Repr

/-- A command of the Pilot's queue for a group: its sub-code, the issuer and the placement word
(R351, R353). -/
structure GCommand where
  sub : Nat := 0
  holder : Holder := .guest
  word : Word := 0
  thread : Nat := 0
  /-- The Pilot has recorded it; it has begun it (R351, R353). -/
  recorded : Bool := false
  /-- Its number in the order of recording (R351, R353). -/
  no : Nat := 0
  begun : Bool := false
  /-- It cut its group with PILOT as holder (R349). -/
  cutBy : Bool := false
  /-- The placement whose tiles it has leased (R349). -/
  place : List (Nat × Nat × Nat) := []
deriving DecidableEq, Repr

/-- A configuration block of an image, as the loader decoded it (R44). -/
structure Block where
  col : Nat := 0
  row : Nat := 0
  prof : Nat := 0
  pair : Bool := false
  retain : Bool := false
  words : List Word32 := []
  routes : List Word32 := []
  params : List (Nat × Word) := []
  header : Word32 := 0
  trailer : Word32 := 0
deriving DecidableEq, Repr

/-- A thread record of an image's HELM section with its code words (R70). -/
structure HelmCode where
  col : Nat := 0
  row : Nat := 0
  unit : Nat := 0
  thread : Nat := 0
  off : Nat := 0
  words : List Word32 := []
deriving DecidableEq, Repr

/-- An image, parsed by the loader (R69, R70). -/
structure Image where
  cols : Nat := 0
  rows : Nat := 0
  cfgid : Nat := 0
  drain : Nat := 0
  profiles : List (Nat × List Nat) := []
  blocks : List Block := []
  actors : List Actor := []
  cuts : List (Nat × Nat × Nat × Nat) := []
  seeds : List (Nat × Word32) := []
  helm : List HelmCode := []
deriving DecidableEq, Repr

/-- A payload of a layer's Beacon queue (R281, R293). -/
structure Payload where
  ctx : Nat := 0
  thread : Nat := 0
  row : Nat := 0
  bytes : List Byte := []
  tags : BitVec 4 := 0
  poi : Bool := false
deriving DecidableEq, Repr

/-- A logical tile's state as a move, an eviction or a snapshot keeps it: the tile, its threads by unit and
thread, its TILE channels and its TILE barrier homes (R344, R345, R350). -/
structure SavedTile where
  col : Nat := 0
  row : Nat := 0
  tile : Tile := {}
  threads : List (Nat × Thread) := []
  chans : List (Nat × Chan) := []
  homes : List (Nat × Home) := []
deriving DecidableEq, Repr

/-- The latest complete snapshot record of a group (R344): its place in the store and what it holds. -/
structure Snapshot where
  off : Nat := 0
  len : Nat := 0
  cpc : BitVec 16 := 0
  gerr : BitVec 32 := 0
  tiles : List SavedTile := []
  regions : Table Region := []
  actors : List Actor := []
  /-- The GROUP channels and barrier homes, and the payloads saved with the group (R344, R345). -/
  chans : List (Nat × Chan) := []
  homes : List (Nat × Home) := []
  payloads : List Payload := []
deriving DecidableEq, Repr

/-- A kernel and its group on this device (R326, R339). -/
structure Group where
  ctx : Nat := 0
  queue : Nat := 0
  kernel : KernelState := .submitted
  st : GroupState := .unplaced
  prior : GroupState := .firing
  /-- The state before MOVING (R339). -/
  before : GroupState := .cut
  launch : BitVec 512 := 0
  /-- What the loader has copied of the image (R52, R326). -/
  copy : List Byte := []
  image : Image := {}
  helmBase : Nat := 0
  seeds : List (Nat × Beat) := []
  /-- Logical tiles and the compute tiles they stand on. -/
  tiles : List (Nat × Nat × Nat) := []
  origin : Nat := 0
  straddle : Bool := false
  ports : Table Nat := []
  regions : Table Region := []
  actors : List Actor := []
  ch : Holders := {}
  fh : Holders := {}
  overrun : Bool := false
  cpc : BitVec 16 := 0
  snapep : BitVec 8 := 0
  snapskip : Bool := false
  lcmd : Nat := 0
  lres : Nat := 0
  /-- The number of the command that LCMD and LRES tell of (R353). -/
  lcmdNo : Nat := 0
  gerr : BitVec 32 := 0
  errRaised : Bool := false
  commands : List GCommand := []
  /-- Responses to be applied at resumption or release (R387). -/
  actions : List (Record × Nat) := []
  /-- A byte of its image or seeds could not be read (R329, R387). -/
  unreadable : Bool := false
  /-- Index of the next block to configure (R426). -/
  nextBlock : Nat := 0
  acks : List Nat := []
  started : Bool := false
  seeded : Bool := false
  /-- fc of the last firing, take or emission, for stillness (R228). -/
  lastMove : Nat := 0
  /-- The last fc in which a thread of it was seen not HALTED (R338). -/
  haltAt : Nat := 0
  stopAt : Nat := 0
  /-- The fc in which the freeze that holds it began (R348). -/
  frozenAt : Option Nat := none
  /-- k.YLIM as it stood when its verification began, and whether its partition was in SERVICE mode then and when its stop
  was requested (R332, R346, R393). -/
  ylim : Nat := 20000
  service : Bool := false
  stopService : Bool := false
  /-- Tiles saved by an eviction, the places they stood on, and the bank rows since spilled: tile, bank and
  row (R350). -/
  saved : List SavedTile := []
  savedPlace : List (Nat × Nat × Nat) := []
  spilledRows : List (Nat × Nat × Nat) := []
  /-- A snapshot is due at the coming cut, and the latest complete one (R343, R344). -/
  snapDue : Bool := false
  snap : Option Snapshot := none
  /-- Payloads of its threads saved with it (R296). -/
  payloads : List Payload := []
  /-- Tiles that have reported themselves configured (R336). -/
  reported : List Nat := []
  /-- The fc in which each region's configuration-complete wave started (R336). -/
  waves : Table Nat := []
  /-- A context stop that came before it was ARMED (R327). -/
  stopWhenArmed : Holders := {}
deriving DecidableEq, Repr

/-- A Sieve block (R257) and the sweep in progress (R258). -/
structure Sieve where
  hbase : Table Word := []
  hlen : Table Word := []
  hmap : Table Word := []
  nch : Nat := 0
  epoch : BitVec 32 := 0
  ovr : Bool := false
  badcfg : Bool := false
  /-- 0 IDLE, 1 SWEEPING, 2 SCRUBBING, 3 DONE. -/
  st : Nat := 0
  /-- The heaps copied at GO: base, length, map. -/
  heaps : List (Nat × Nat × Nat) := []
  sweepNch : Nat := 0
  finished : List Nat := []
  /-- By stack, the line from which its Sieve goes on (R259). -/
  nextLine : Table Nat := []
  /-- The standing groups were scrubbed, and the next identity when the scrub cut was requested (R258,
  R261). -/
  scrubbed : Bool := false
  cutId : Nat := 0
  /-- Pages of the maps whose faults were answered ABORT: their bits read 0 (R259). -/
  skipped : List Nat := []
deriving DecidableEq, Repr

/-- A context's fault queue (R383). -/
structure FaultQ where
  badResp : Bool := false
  host : Bool := false
  base : Nat := 0
  log2n : Nat := 0
  nch : Nat := 0
  seq : BitVec 32 := 0
  drop : Nat := 0
  slots : Table Record := []
deriving DecidableEq, Repr

/-- A context (R298, R300). `epoch` names its keys: 0 once they are destroyed (R303). -/
structure Context where
  st : Nat := 0
  part : Nat := 0
  iface : Option Nat := none
  migr : Bool := false
  debug : Bool := false
  roottab : Nat := 0
  tecap : Cap := {}
  bwbase : Nat := 0
  bwlen : Nat := 0
  bwoff : Nat := 0
  ssbase : Nat := 0
  sslen : Nat := 0
  spbase : Nat := 0
  drain : Nat := 0
  snapint : BitVec 16 := 0
  policy : List (List Byte) := []
  /-- The creation record's bytes, for M (R301). -/
  created : List Byte := []
  measM : List Byte := []
  measT : List Byte := []
  changes : Nat := 0
  epoch : Nat := 0
  events : Table (BitVec 16) := []
  drainLate : Bool := false
  designated : Bool := false
  fq : FaultQ := {}
  sieve : Sieve := {}
  ssnext : Nat := 0
  /-- Destination serial and role of a migration (R307). -/
  migration : Option (Nat × Bool) := none
  leaseAt : Nat := 0
deriving DecidableEq, Repr

/-- The states of a Beacon run (R287). -/
inductive RunState where
  | free | granted (x : Nat) | reclaim (x : Nat)
deriving DecidableEq, Repr

/-- A beacon buffer: bytes (canonical), tagged granules, poisoned rows (R286). -/
structure BeaconBuf where
  cells : List Host.Cell := []
  tags : List Nat := []
  poison : List Nat := []
  /-- Rows written since the refill point (R290). -/
  fresh : List Nat := []
deriving DecidableEq, Repr

/-- A layer's Beacon unit and power manager (R289, R433). -/
structure Layer where
  /-- 0 AWAKE, 1 SLEEPING, 2 REFILLING. -/
  bstate : Nat := 0
  sleepBit : Bool := false
  /-- It applies slots: what it does changes at a frame's start (R289, R290). -/
  listen : Bool := true
  /-- The row from which its refill goes on (R290). -/
  refillRow : Nat := 0
  buf : BeaconBuf := {}
  queue : List Payload := []
  bud : Nat := 64
  ramp : Nat := 64
  budNext : Nat := 64
  rampNext : Nat := 64
  /-- The governor window from which the written budget and ramp limit are in force (R433). -/
  limitsFrom : Nat := 0
  tj : Nat := 0
  throt : Bool := false
  ready : Bool := false
  ports : List Nat := []
deriving DecidableEq, Repr

/-- A stack's base die: its Beacon and ready bit (R280, R286, R288). -/
structure Stack where
  runs : Table RunState := []
  /-- Grant changes announced in slot 0 of the next frame: run and new state. -/
  announce : List (Nat × RunState) := []
  pending : List (Nat × RunState) := []
  frame : Nat := 0
  /-- Slot assignment of the frame: run to layer. -/
  assign : Table Nat := []
  /-- The payloads that the slots of this fc carry, by slot (R280, R288). -/
  carried : Table Payload := []
  /-- The layers that have reported pending payloads for the next frame, with the context (R288). -/
  reported : List (Nat × Nat) := []
  lastFirst : Table Nat := []
  base : BeaconBuf := {}
  /-- Barrier completions waiting for slots 1-4: context, barrier, phase. -/
  completions : List (Nat × Nat × Bool) := []
  /-- Sieve tag clears waiting for slots 13, 14: granule number, and the revoked capability examined there. -/
  clears : List (Nat × Cap) := []
  /-- The refill point of a waking layer: the authoritative copy then. -/
  refill : Table BeaconBuf := []
  ready : Bool := false
deriving DecidableEq, Repr

/-- A partition (R393). Credits are kept in units of 1/1024 request (R398). -/
structure Partition where
  valid : Bool := false
  mode : Bool := false
  buf : Nat := 4
  keymask : BitVec 8 := 0
  ways : BitVec 32 := 0xFFFFFFFF
  burst : Nat := 0
  rate : Nat := 0
  tiles : List Nat := []
  credit : Table Int := []
  creditAt : Table Nat := []
  /-- What its limiters hold: coming events by stack (R398). -/
  heldReqs : Table (List Instr) := []
deriving DecidableEq, Repr

/-- The PCIe face of a virtual function (R399, R402, R404). -/
structure Iface where
  part : Nat := 0
  /-- 0 CONFIG_UNLOCKED, 1 CONFIG_LOCKED, 2 RUN, 3 ERROR. -/
  st : Nat := 0
  ctl : BitVec 4 := 0
  apbase : BitVec 21 := 0
  snapCtl : BitVec 4 := 0
  snapApbase : BitVec 21 := 0
  bbseq : BitVec 32 := 0
  keyed : Bool := false
  /-- The MSI-X table by doubleword, and the pending bits (R402, R405). -/
  msiTab : Table Word := []
  msiPend : List Nat := []
deriving DecidableEq, Repr

/-- A link (R412, R415). -/
structure Link where
  st : Nat := 0
  attempts : Nat := 0
  pausePend : Bool := false
  draining : Bool := false
  rthresh : BitVec 32 := 1024
  wmin : Nat := 2
  wcode : Nat := 0
  trains : Nat := 0
  retryHi : Bool := false
  spares : Option Nat := none
  worst : Nat := 0
  bad : List Nat := []
  replay : BitVec 32 := 0
  crcErr : BitVec 32 := 0
  /-- Sequence numbers sent and not acknowledged, next to send, next expected. -/
  unacked : List Nat := []
  nextSeq : Word := 0
  expSeq : Word := 0
  /-- Sequence numbers sent and not yet received: the unacknowledged ones go again after a retry or a training (R414). -/
  wire : List Nat := []
  /-- How often each unacknowledged flit has been replayed (R412). -/
  replays : Table Nat := []
  /-- The half or quarter of the data lanes in use at a reduced width (R413). -/
  lanePart : Nat := 0
  lastRx : Nat := 0
  lastTx : Nat := 0
  /-- The fc in which the current training attempt began (R412). -/
  trainAt : Nat := 0
deriving DecidableEq, Repr

/-- The device manager's ring (R388). -/
structure HRing where
  table : Nat := 0
  log2n : Nat := 0
  en : Bool := false
  seq : BitVec 32 := 0
  drops : Nat := 0
  dropNow : Nat := 0
  slots : Table Record := []
deriving DecidableEq, Repr

/-- The Lodestone mailbox and Lodestone's own state (R407, R408, R309). -/
structure Lodestone where
  buf : Nat := 0
  len : Nat := 0
  op : Nat := 0
  lastop : Nat := 0
  status : Nat := 0
  result : BitVec 32 := 0
  ovr : Bool := false
  busy : Bool := false
  /-- The address of the request's buffer; the buffer as it was read when LM_CMD was written, none if it was unreadable
  (R407). -/
  reqAt : Nat := 0
  req : Option (List Byte) := none
  /-- The request was carried out and waits for its completion. -/
  answered : Bool := false
  keys : Table (Word × List Byte) := []
  /-- The running firmware measurement F (R301), and the counter C (R309). -/
  f : List Byte := List.replicate 64 0
  counter : Nat := 0
  /-- A counter value whose flash write failed, with the SVN activated (R309). -/
  flashFail : Option (Nat × Nat) := none
  epochs : Nat := 0
  ready : Bool := false
  /-- The defect map was verified, or refused (R431). -/
  mapGood : Bool := false
  dmfail : Bool := false
deriving DecidableEq, Repr

/-- A TLBINV broadcast not yet acknowledged by every translator (R375, R376). -/
structure Inval where
  id : Nat := 0
  thread : Nat := 0
  ctx : Nat := 0
  st2 : Bool := false
  all : Bool := false
  page : Nat := 0
  waiting : List Translator := []
deriving DecidableEq, Repr

/-- Whose turn a step takes (log 4). -/
inductive Turn where
  | thread (t : Nat)
  /-- A thread's access or fetch that waited goes on; it issues nothing (R215). -/
  | resume (t : Nat)
  | element (p n : Nat)
  | matrix (p : Nat)
  | event (i : Instr)
deriving DecidableEq, Repr

/-- The whole package. Tables are sparse: an absent entry is the object's default. -/
structure State where
  /-- k.CYCLE: fc since package reset (R209). -/
  fc : Nat := 0
  /-- The host's and the hardware's turns of the next fc, in order of arrival (log 4). -/
  agenda : List Turn := []
  /-- The turns of this fc still to be taken, first at the head (R11; log 4). -/
  now : List Turn := []
  /-- The thread each helm unit and control core issued last, by a quarter of its key (R215). -/
  issued : Table Nat := []
  /-- The thread an instruction acts on, and the place an element operation acts on (log 4). -/
  cur : Nat := 16384
  curTile : Nat := 0
  curSlot : Nat := 0
  /-- The free-value counter (log 3). -/
  fresh : Nat := 0
  /-- Source of identities and of arrival order. -/
  ids : Nat := 1
  threads : Table Thread := []
  tiles : Table Tile := []
  mem : Memory := {}
  chans : List (ChanId × Chan) := []
  homes : List (HomeId × Home) := []
  engines : List EngReq := []
  invals : List Inval := []
  walks : List PendingWalk := []
  raised : List Record := []
  contexts : Table Context := []
  /-- XL_S1ROOT and XL_S2ROOT by context (R368). -/
  s1root : Table Word := []
  s2root : Table Word := []
  /-- Host pages ATS refuses, by function and page (R370, R378). -/
  atsRefused : List (Nat × Nat) := []
  /-- The address translation caches: port tile, or base die for its walkers and engines; function and host page (R378). -/
  atc : List (Nat × Nat × Nat) := []
  /-- The ATS invalidations completed, latest first: function and host page (R378). -/
  atsDone : List (Nat × Nat) := []
  /-- The base dies' caches of table entries, by stack (R369). -/
  walkers : Table (List TableEntry) := []
  queues : Table Queue := []
  /-- The partition the Pilot visited last (R321). -/
  lastPart : Nat := 31
  lastAdmit : Option Nat := none
  groups : Table Group := []
  parts : Table Partition := [(0, { valid := true })]
  ifaces : Table Iface := []
  stackTab : Table Stack := []
  layers : Table Layer := []
  links : Table Link := []
  ring : HRing := {}
  lode : Lodestone := {}
  ylim : Nat := 20000
  /-- The reserved virtual channels of the tile network's router ports (R396). -/
  vcs : Table (List Vc) := []
  /-- L1 generation by port tile x 128 + context (R265). -/
  l1gen : Table Nat := []
  /-- The lines the L2 slices hold, by line (R23, R263). -/
  l2 : Table L2Way := []
  /-- The tenant that the memory channels expect at a frame, by storage frame (R24; log 96). -/
  tenants : Table Nat := []
  /-- The L1s' lines, by line x 2,048 + PTID of the port tile (R23, R265). -/
  l1 : Table L1Line := []
  /-- MC_PORT by PTID: LOCAL, REMOTE; MC_STACK by stack: LOCAL, OUT, IN (R380). -/
  mcPort : Table (BitVec 32 × BitVec 32) := []
  mcStack : Table (BitVec 32 × BitVec 32 × BitVec 32) := []
  /-- The board's flash holding the defect map, and the verified DIS and PASS sets (R431). -/
  flash : List Byte := []
  dis : List Nat := []
  pass : List Nat := []
  /-- Messages sent to the host: MSI-X function (64: the physical function), vector and T bit (R405). -/
  msix : List (Nat × Nat × Bool) := []
  /-- The last request sent to a host frame: function and T bit (R405). -/
  hostDma : Option (Nat × Bool) := none
  /-- The last completion of a host read: Unsupported Request, poisoned, data (R403, R405). -/
  hostReply : Option (Bool × Bool × BitVec 512) := none
  /-- The last SPDM measurement block answered: function and report (R301, R400). -/
  spdmReply : Option (Nat × List Byte) := none
  /-- The firmware's trap-entry capability (R236; log 2). -/
  fwEntry : Cap := {}
  /-- Traps of control cores reported to Lodestone (R236). -/
  coreReports : List Nat := []
  /-- The package's clocks are stopped (R433). -/
  stopped : Bool := false
deriving DecidableEq, Repr

/-- The firmware capability FWCAP of R424: [0, 2^57), PERMS 0x2923. -/
def fwcap : Cap := { hi := 0x00A48C02C8000000, lo := 0, tag := true }

/-- A thread that nothing has written yet: IDLE, a control core's at H with FWCAP in c1 (R206, R210,
R424; firmware entry makes it READY, log 12); the registers of R208 whose reset the spec leaves open
are 0 (log 2). -/
def Thread.initial (t : Nat) : Thread :=
  if t < 16384 then {}
  else
    { c := (Vector.replicate 16 {}).set 1 fwcap, priv := 2, hasCode := true }

/-- Faults: none but the stop of the clocks. -/
inductive Fault where
  /-- Raised by `step` alone: TJ reached 115 °C and the package stopped its clocks (R433). Safe: the
  hardware does nothing either until a package reset. -/
  | clocksStopped
deriving DecidableEq, Repr

/-- Refusals: instructions and events whose meaning the model does not give. -/
inductive Refusal where
  /-- Raised by `exec`'s refused arms only: not modelled yet. Safe. -/
  | notModelled (mnemonic : String)
deriving DecidableEq, Repr

/-- The package right after package reset: every register at the spec's reset value, memory with
nothing listed; log 2 names the values the spec leaves open. -/
def State.reset : State := {}

end Sys2Proof.Machine
end

