-- ==== Sys2Proof/Machine/Map.lean ====
section
/-! DEFINITION. Sparse tables: reading and writing an entry, keys strictly rising; and bit helpers. -/

namespace Sys2Proof.Machine

/-- The entry at k, if the table lists one. -/
def find {α : Type} : Table α → Nat → Option α
  | [], _ => none
  | (j, v) :: t, k => if j = k then some v else if k < j then none else find t k

/-- The entry at k, or the default. -/
def look {α : Type} (d : α) (t : Table α) (k : Nat) : α := (find t k).getD d

/-- The table with entry k set. -/
def put {α : Type} : Table α → Nat → α → Table α
  | [], k, v => [(k, v)]
  | (j, u) :: t, k, v =>
    if k < j then (k, v) :: (j, u) :: t else if j = k then (k, v) :: t else (j, u) :: put t k v

/-- The table without entry k. -/
def del {α : Type} : Table α → Nat → Table α
  | [], _ => []
  | (j, u) :: t, k => if j = k then t else (j, u) :: del t k

/-- The table with entry k mapped, an absent one being the default. -/
def upd {α : Type} (d : α) (t : Table α) (k : Nat) (f : α → α) : Table α := put t k (f (look d t k))

/-- An association list's entry at a key that is no number. -/
def assoc {κ α : Type} [DecidableEq κ] (d : α) : List (κ × α) → κ → α
  | [], _ => d
  | (j, v) :: t, k => if j = k then v else assoc d t k

/-- The association list with an entry set. -/
def assocSet {κ α : Type} [DecidableEq κ] : List (κ × α) → κ → α → List (κ × α)
  | [], k, v => [(k, v)]
  | (j, u) :: t, k, v => if j = k then (k, v) :: t else (j, u) :: assocSet t k v

/-- A set of numbers as a rising list: insertion. -/
def insertNat (k : Nat) : List Nat → List Nat
  | [] => [k]
  | j :: t => if k < j then k :: j :: t else if k = j then j :: t else j :: insertNat k t

/-- Insertion into a list ordered by `le`, after the elements that stand before x. -/
def insertBy {α : Type} (le : α → α → Bool) (x : α) : List α → List α
  | [] => [x]
  | y :: t => if le y x then y :: insertBy le x t else x :: y :: t

/-- A list sorted by `le`; equal elements keep their order. -/
def sortBy {α : Type} (le : α → α → Bool) : List α → List α
  | [] => []
  | x :: t => insertBy (fun a b => le a b && !(le b a)) x (sortBy le t)

/-- Whether bit n of w is set. -/
def bit (w n : Nat) : Bool := w / 2 ^ n % 2 == 1

/-- A Bool as a number. -/
def b2n (b : Bool) : Nat := if b then 1 else 0

/-- A Bool as a word. -/
def b2w (b : Bool) : Word := if b then 1 else 0

/-- The bits [lo + n - 1 : lo] of a word, as a number (R3). -/
def bits (w : Word) (lo n : Nat) : Nat := w.toNat / 2 ^ lo % 2 ^ n

/-- SignExtend(v, n) (R8), as an integer. -/
def sext (v n : Nat) : Int := if v % 2 ^ n < 2 ^ (n - 1) then (v % 2 ^ n : Int) else (v % 2 ^ n : Int) - 2 ^ n

/-- An integer as a 64-bit word, wrapping. -/
def wrap (i : Int) : Word := BitVec.ofInt 64 i

/-- A number as a 64-bit word, wrapping. -/
def wd (n : Nat) : Word := BitVec.ofNat 64 n

/-- The n bytes of v, least significant first (R3). -/
def toBytes : Nat → Nat → List Byte
  | 0, _ => []
  | n + 1, v => BitVec.ofNat 8 v :: toBytes n (v / 256)

/-- The number that bytes hold, least significant first (R3). -/
def fromBytes : List Byte → Nat
  | [] => 0
  | b :: bs => b.toNat + 256 * fromBytes bs

/-- v rounded down to a multiple of 2^e. -/
def roundDown (v e : Nat) : Nat := v / 2 ^ e * 2 ^ e

/-- v rounded up to a multiple of 2^e. -/
def roundUp (v e : Nat) : Nat := (v + 2 ^ e - 1) / 2 ^ e * 2 ^ e

end Sys2Proof.Machine
end

