-- ==== Sys2Proof/Machine/Operands.lean ====
section
/-! DEFINITION. Capabilities: fields, bounds, CapCheck and the derivation functions (R8, R241-R251). -/

namespace Sys2Proof.Machine

/-- What a capability check reports (R8, R234, R381): the first failing cause. -/
inductive CapFault where
  | tag | seal | perm | bounds | align | xlatcfg
deriving DecidableEq, Repr

/-- The detail code of a capability fault (R234, R381). -/
def CapFault.code : CapFault → Nat
  | .tag => 1 | .seal => 2 | .perm => 3 | .bounds => 4 | .align => 5 | .xlatcfg => 6

/-! ## Permission bits (R242) -/

/-- LOAD. -/
def permLoad : Nat := 0x0001
/-- STORE. -/
def permStore : Nat := 0x0002
/-- LOAD_CAP. -/
def permLoadCap : Nat := 0x0004
/-- STORE_CAP. -/
def permStoreCap : Nat := 0x0008
/-- EXECUTE. -/
def permExecute : Nat := 0x0010
/-- CONFIG. -/
def permConfig : Nat := 0x0020
/-- STREAM. -/
def permStream : Nat := 0x0040
/-- BEACON. -/
def permBeacon : Nat := 0x0080
/-- ATOMIC. -/
def permAtomic : Nat := 0x0100
/-- SEAL. -/
def permSeal : Nat := 0x0200
/-- UNSEAL. -/
def permUnseal : Nat := 0x0400
/-- GLOBAL. -/
def permGlobal : Nat := 0x0800
/-- STORE_LOCAL. -/
def permStoreLocal : Nat := 0x1000
/-- SYSTEM. -/
def permSystem : Nat := 0x2000

/-! ## Fields (R241) -/

/-- PERMS. -/
def Cap.perms (c : Cap) : Nat := bits c.hi 42 16
/-- SEAL. -/
def Cap.sealType (c : Cap) : Nat := bits c.hi 34 8
/-- E. -/
def Cap.exp (c : Cap) : Nat := bits c.hi 28 6
/-- T. -/
def Cap.top14 (c : Cap) : Nat := bits c.hi 14 14
/-- B. -/
def Cap.base14 (c : Cap) : Nat := bits c.hi 0 14
/-- ADDR. -/
def Cap.addr (c : Cap) : Word := c.lo
/-- Whether every permission bit of p is present. -/
def Cap.has (c : Cap) (p : Nat) : Bool := c.perms &&& p == p

/-- The high doubleword of the given fields (R241); the reserved bits are the argument's. -/
def packHi (reserved perms sealT e t b : Nat) : Word :=
  wd (reserved * 2 ^ 58 + perms * 2 ^ 42 + sealT * 2 ^ 34 + e * 2 ^ 28 + t * 2 ^ 14 + b)

/-- c with PERMS replaced. -/
def Cap.withPerms (c : Cap) (p : Nat) : Cap :=
  { c with hi := packHi (bits c.hi 58 6) p c.sealType c.exp c.top14 c.base14 }

/-- c with SEAL replaced. -/
def Cap.withSeal (c : Cap) (s : Nat) : Cap :=
  { c with hi := packHi (bits c.hi 58 6) c.perms s c.exp c.top14 c.base14 }

/-- c with E, T and B replaced. -/
def Cap.withBounds (c : Cap) (e t b : Nat) : Cap :=
  { c with hi := packHi (bits c.hi 58 6) c.perms c.sealType e t b }

/-- The unsigned 57-bit address. -/
def Cap.va (c : Cap) : Nat := bits c.lo 0 57

/-- Bits [63:57] all equal bit 56 (R241, R245). -/
def canonical (a : Word) : Bool := bits a 56 8 == 0 || bits a 56 8 == 255

/-- Decode (R243): base and top; the clamp gives (0, 0). -/
def Cap.decode (c : Cap) : Nat × Nat :=
  let e := Nat.min c.exp 44
  let a := c.va
  let atop := a / 2 ^ (e + 14)
  let amid := a / 2 ^ e % 2 ^ 14
  let down : Int := if amid < c.base14 then 1 else 0
  let base : Int := ((atop : Int) - down) * 2 ^ (e + 14) + c.base14 * 2 ^ e
  let top : Int := base + ((c.top14 + 2 ^ 14 - c.base14) % 2 ^ 14 : Nat) * 2 ^ e
  if base < 0 || 2 ^ 57 < top then (0, 0) else (base.toNat, top.toNat)

/-- Decoded base. -/
def Cap.base (c : Cap) : Nat := c.decode.1
/-- Decoded top, exclusive. -/
def Cap.top (c : Cap) : Nat := c.decode.2

/-- R244: v is representable for c. -/
def Cap.representable (c : Cap) (v : Word) : Bool :=
  canonical v && c.base ≤ bits v 0 57 && bits v 0 57 < c.base + 2 ^ (Nat.min c.exp 44 + 14)

/-- R245: an access of size bytes at a lies within the bounds. -/
def Cap.inBounds (c : Cap) (a : Word) (size : Nat) : Bool :=
  canonical a && c.base ≤ bits a 0 57 && bits a 0 57 + size ≤ c.top

/-- CapCheck (R8); `low` tells that it is made for a helm thread at U or an element, for which a SYSTEM
capability fails with PERM (R242). -/
def capCheck (low : Bool) (c : Cap) (a : Word) (size perms : Nat) : Option CapFault :=
  if !c.tag then some .tag
  else if c.sealType ≠ 0 then some .seal
  else if (low && c.has permSystem) || !c.has perms then some .perm
  else if !c.inBounds a size then some .bounds
  else none

/-- CapCheck, then the alignment of the address to n bytes (R223). -/
def capAlign (low : Bool) (c : Cap) (a : Word) (size perms n : Nat) : Option CapFault :=
  match capCheck low c a size perms with
  | some f => some f
  | none => if a.toNat % n = 0 then none else some .align

/-- FetchCheck (R220). -/
def fetchCheck (low : Bool) (c : Cap) (t : Word) : Option CapFault := capAlign low c t 4 permExecute 4

/-! ## Derivation (R248-R250) -/

/-- SetAddr (R250). -/
def Cap.setAddr (c : Cap) (v : Word) : Cap :=
  { c with lo := v, tag := c.tag && c.sealType == 0 && c.representable v }

/-- The least e in 0 to 44 with RoundUp(t) - RoundDown(b) within the mantissa (R249). -/
def fitExp (b t : Nat) : Nat :=
  ((List.range 45).find? fun e => roundUp t e - roundDown b e ≤ (2 ^ 14 - 1) * 2 ^ e).getD 44

/-- SetBounds (R249). -/
def Cap.setBounds (c : Cap) (len : Nat) (exact : Bool) : Cap :=
  let b := c.va
  let t := b + len
  if 2 ^ 57 < len || 2 ^ 57 < t || !canonical c.lo then { c with tag := false }
  else
    let e := fitExp b t
    let b2 := roundDown b e
    let t2 := roundUp t e
    let r := c.withBounds e (t2 / 2 ^ e % 2 ^ 14) (b2 / 2 ^ e % 2 ^ 14)
    { r with tag := c.tag && c.sealType == 0 && c.base ≤ b2 && t2 ≤ c.top &&
        (!exact || (b2 == b && t2 == t)) }

/-- CANDPERM (R248). -/
def Cap.andPerm (c : Cap) (m : Word) : Cap :=
  { c.withPerms (c.perms &&& bits m 0 16 &&& 0x3FFF) with tag := c.tag && c.sealType == 0 }

/-- CSEAL (R248): c sealed with the type that b's address names. -/
def Cap.sealWith (low : Bool) (c b : Cap) : Cap :=
  let v := b.lo
  { c.withSeal (bits v 0 8) with
    tag := c.tag && c.sealType == 0 && (capCheck low b v 1 permSeal).isNone && 1 ≤ v.toNat && v.toNat ≤ 255 }

/-- CUNSEAL (R248): the seal removed, GLOBAL kept only if the authority has it. -/
def Cap.unsealWith (low : Bool) (c b : Cap) : Cap :=
  let p := if c.has permGlobal && b.has permGlobal then c.perms ||| permGlobal
    else c.perms &&& (0xFFFF - permGlobal)
  { (c.withSeal 0).withPerms p with
    tag := c.tag && c.sealType != 0 && (capCheck low b (wd c.sealType) 1 permUnseal).isNone }

/-- El of R251: the least e with RoundUp(l, 2^e) within the mantissa. -/
def fitLenExp (l : Nat) : Nat := fitExp 0 l

/-- CTESTSUB (R251). -/
def Cap.isSub (a d : Cap) : Bool :=
  d.tag == a.tag && a.base ≤ d.base && d.top ≤ a.top && d.perms &&& (0xFFFF - (a.perms &&& 0xFFFF)) == 0

end Sys2Proof.Machine
end

