-- ==== Sys2Proof/Machine/Ops.lean ====
section
/-! DEFINITION. The named operations on the state: objects, registers, the pc, blocking, fault
records, traps and their return, message channels. -/

namespace Sys2Proof.Machine

/-! ## Threads and places -/

/-- Whether a thread key names a control core's thread (R205). -/
def isCore (t : Nat) : Bool := 16384 ≤ t
/-- The key of a compute tile's thread. -/
def threadKey (p u n : Nat) : Nat := p * 8 + u * 4 + n
/-- The tile of a tile thread. -/
def ptidOf (t : Nat) : Nat := t / 8
/-- The unit of a tile thread. -/
def unitOf (t : Nat) : Nat := t / 4 % 2
/-- The stack a thread runs on (R17, R211). -/
def stackOf (t : Nat) : Nat := if isCore t then (t - 16384) / 16 else ptidOf t / 512
/-- The stack of a tile (R17). -/
def stackOfTile (p : Nat) : Nat := p / 512
/-- The layer of a tile, 0 to 31, counted over the package (R17). -/
def layerOfTile (p : Nat) : Nat := p / 64
/-- k.TID's PLACE (R211). -/
def placeOf (t : Nat) : Nat :=
  if isCore t then (t - 16384) / 16 * 512 + (t - 16384) / 4 % 4 else ptidOf t

namespace State

/-- A thread. -/
def thread (s : State) (t : Nat) : Thread := (find s.threads t).getD (Thread.initial t)
/-- The state with a thread set. -/
def setThread (s : State) (t : Nat) (x : Thread) : State := { s with threads := put s.threads t x }
/-- The thread an instruction acts on. -/
def th (s : State) : Thread := s.thread s.cur
/-- The state with the acting thread set. -/
def setTh (s : State) (x : Thread) : State := s.setThread s.cur x
/-- A tile. -/
def tile (s : State) (p : Nat) : Tile := look {} s.tiles p
/-- The state with a tile set. -/
def setTile (s : State) (p : Nat) (x : Tile) : State := { s with tiles := put s.tiles p x }
/-- A slot of a tile. -/
def slot (s : State) (p n : Nat) : Slot := look {} (s.tile p).slots n
/-- The state with a slot set. -/
def setSlot (s : State) (p n : Nat) (x : Slot) : State :=
  s.setTile p { s.tile p with slots := put (s.tile p).slots n x }
/-- A helm unit of a tile. -/
def unit (s : State) (p u : Nat) : Unit := if u = 0 then (s.tile p).unit0 else (s.tile p).unit1
/-- The state with a helm unit set. -/
def setUnit (s : State) (p u : Nat) (x : Unit) : State :=
  s.setTile p (if u = 0 then { s.tile p with unit0 := x } else { s.tile p with unit1 := x })
/-- A context. -/
def context (s : State) (x : Nat) : Context := look {} s.contexts x
/-- The state with a context set. -/
def setContext (s : State) (x : Nat) (c : Context) : State := { s with contexts := put s.contexts x c }
/-- A group by its handle (R352). -/
def group (s : State) (g : Nat) : Group := look {} s.groups g
/-- The state with a group set. -/
def setGroup (s : State) (g : Nat) (x : Group) : State := { s with groups := put s.groups g x }
/-- A queue. -/
def queue (s : State) (q : Nat) : Queue := look {} s.queues q
/-- The state with a queue set. -/
def setQueue (s : State) (q : Nat) (x : Queue) : State := { s with queues := put s.queues q x }
/-- A partition. -/
def part (s : State) (p : Nat) : Partition := look {} s.parts p
/-- The state with a partition set. -/
def setPart (s : State) (p : Nat) (x : Partition) : State := { s with parts := put s.parts p x }
/-- An interface. -/
def iface (s : State) (n : Nat) : Iface := look {} s.ifaces n
/-- The state with an interface set. -/
def setIface (s : State) (n : Nat) (x : Iface) : State := { s with ifaces := put s.ifaces n x }
/-- A stack's Beacon. -/
def stack (s : State) (k : Nat) : Stack := look {} s.stackTab k
/-- The state with a stack's Beacon set. -/
def setStack (s : State) (k : Nat) (x : Stack) : State := { s with stackTab := put s.stackTab k x }
/-- A layer. -/
def layer (s : State) (l : Nat) : Layer := look {} s.layers l
/-- The state with a layer set. -/
def setLayer (s : State) (l : Nat) (x : Layer) : State := { s with layers := put s.layers l x }
/-- A link. -/
def link (s : State) (n : Nat) : Link := look {} s.links n
/-- The state with a link set. -/
def setLink (s : State) (n : Nat) (x : Link) : State := { s with links := put s.links n x }
/-- A channel. -/
def chan (s : State) (c : ChanId) : Chan := assoc {} s.chans c
/-- The state with a channel set. -/
def setChan (s : State) (c : ChanId) (x : Chan) : State := { s with chans := assocSet s.chans c x }
/-- A barrier's home. -/
def home (s : State) (h : HomeId) : Home := assoc {} s.homes h
/-- The state with a barrier's home set. -/
def setHome (s : State) (h : HomeId) (x : Home) : State := { s with homes := assocSet s.homes h x }
/-- The state with a coming event at the agenda's tail (log 4). -/
def post (s : State) (i : Instr) : State := { s with agenda := s.agenda ++ [.event i] }
/-- The agenda with an event, unless it already comes. -/
def postOnce (s : State) (i : Instr) : State :=
  if s.agenda.contains (.event i) then s else s.post i
/-- The state with an event still to come in the present fc, after all others. -/
def postNow (s : State) (i : Instr) : State := { s with now := s.now ++ [.event i] }
/-- The state with an event that comes in fc n, or is looked at from the next fc on. -/
def postAt (s : State) (n : Nat) (i : Instr) : State := if n ≤ s.fc then s.postNow i else s.post i
/-- The state with an event that comes next of all. -/
def postFirst (s : State) (i : Instr) : State := { s with now := .event i :: s.now }
/-- The next free value (log 3). -/
def free (s : State) : Word := Config.freeValue s.fresh
/-- The state whose next free value is another one (log 3). -/
def used (s : State) : State := { s with fresh := s.fresh + 1 }

/-- The context of a thread, 0 on a control core (R211). -/
def ctxOf (s : State) (t : Nat) : Nat := if isCore t then 0 else ((s.tile (ptidOf t)).owner).getD 0
/-- The context of the acting thread. -/
def ctx (s : State) : Nat := s.ctxOf s.cur
/-- The handle of the group of a tile, 0 for none (R382). -/
def handleOf (s : State) (p : Nat) : Nat := ((s.tile p).group).getD 0
/-- The group of the acting thread's tile. -/
def curGroup (s : State) : Nat := s.handleOf (ptidOf s.cur)
/-- Whether the acting thread is a control core's. -/
def onCore (s : State) : Bool := isCore s.cur
/-- The acting thread is at U (R206, R242). -/
def low (s : State) : Bool := s.th.priv == 0
/-- An instruction of level H raises PRIVILEGE: on a compute tile, and below H (R206, R207, R37). -/
def belowH (s : State) : Bool := !s.onCore || s.th.priv.toNat < 2

/-! ## Registers (R34, R208) -/

/-- A general register; g0 reads zero. -/
def g (s : State) (r : Reg) : Word := if r = 0 then 0 else s.th.g[r]
/-- A capability register. -/
def c (s : State) (r : CReg) : Cap := s.th.c[r]
/-- A result written to a general register; g0 discards it. -/
def setG (s : State) (r : Reg) (v : Word) : State :=
  if r = 0 then s else s.setTh { s.th with g := s.th.g.set r v }
/-- A result written to a capability register; c0 discards it. -/
def setC (s : State) (r : CReg) (v : Cap) : State :=
  if r = 0 then s else s.setTh { s.th with c := s.th.c.set r v }
/-- The address of the current instruction. -/
def pc (s : State) : Word := s.th.pcc.lo
/-- The pc at the next word; the thread is READY and waits for nothing (R212). -/
def advance (s : State) : State :=
  s.setTh { s.th with pcc := { s.th.pcc with lo := s.pc + 4 }, st := .ready, wait := .none,
                      arrived := false }
/-- A general result and the next pc: how a register instruction ends. -/
def retire (s : State) (d : Reg) (v : Word) : State := (s.setG d v).advance
/-- A capability result and the next pc. -/
def retireC (s : State) (d : CReg) (v : Cap) : State := (s.setC d v).advance

/-! ## Fault records (R381, R382) -/

/-- A record arises; its write is a coming event (R384). -/
def raise (s : State) (r : Record) : State :=
  let epoch := (r.ctx.map fun x => (s.context x).epoch).getD 0
  { s with raised := s.raised ++ [{ r with id := s.ids, arose := s.fc, epoch }], ids := s.ids + 1 }.post
    (.evFaultRecordWrite s.ids)

/-- PLACE of a base-die unit (R382). -/
def basePlace (k : Nat) : Nat := k * 512 + 0x1FF

/-- A record raised by the helm unit of thread t: SRC 2, PLACE its tile, SLOT 57 or 58 (R382). -/
def helmRecord (s : State) (t cause detail : Nat) (addr aux : Word) : Record :=
  if isCore t then
    { cause, detail, src := 2, place := basePlace (stackOf t), addr, aux, toH := true,
      lanes := wd (t % 4 * 256), raiser := .thread t, waits := true }
  else
    { cause, detail, src := 2, place := ptidOf t, slot := 57 + unitOf t, ctx := some (s.ctxOf t), addr,
      aux, lanes := wd (t % 4 * 256), group := wd (s.handleOf (ptidOf t)), raiser := .thread t,
      waits := true }

/-! ## Traps (R234-R237) -/

/-- The trap-entry capability of a thread (R236). -/
def tecap (s : State) (t : Nat) : Cap := if isCore t then s.fwEntry else (s.context (s.ctxOf t)).tecap

/-- The level a trap of thread t enters: G, or H on a control core (R236). -/
def trapLevel (t : Nat) : BitVec 2 := if isCore t then 2 else 1

/-- A trap with no handler: the thread is TRAPPED and a record is raised (R236, R381). -/
def trapped (s : State) (t cause detail : Nat) (val addr : Word) : State :=
  let x := s.thread t
  let s1 := s.setThread t { x with st := .trapped, wait := .none, savedAt := addr, pageAbort := none, instr := none }
  let r := s.helmRecord t 4 cause addr val
  let s2 := s1.raise { r with lanes := r.lanes + wd (detail % 256) }
  if isCore t then { s2 with coreReports := s2.coreReports ++ [t] } else s2

/-- The thread as trap entry leaves it (R236). -/
def enterTrap (s : State) (t cause detail : Nat) (val addr : Word) : Thread :=
  let x := s.thread t
  let te := s.tecap t
  { x with epcc := x.pcc, epc := addr, eval := val,
           ecause := wd (x.priv.toNat * 65536 + detail % 256 * 256 + cause % 256),
           priv := trapLevel t, inTrap := true,
           pcc := te.setAddr (wd te.base + x.tvec), st := .ready, wait := .none, arrived := false,
           pageAbort := none, instr := none }

/-- TakeTrap (R236) for a thread. -/
def takeTrapOf (s : State) (t cause detail : Nat) (val addr : Word) : State :=
  if (s.thread t).inTrap || s.tecap t = {} then s.trapped t cause detail val addr
  else s.setThread t (s.enterTrap t cause detail val addr)

/-- TakeTrap of the acting thread, saving the current instruction's address. -/
def trap (s : State) (cause detail : Nat) (val : Word) : State :=
  s.takeTrapOf s.cur cause detail val s.pc

/-- ILLEGAL_OP of instruction i, whose word is EVAL (R43, R234). -/
def illegal (s : State) (i : Instr) : State := s.trap 1 0 (wd ((encodeHelm i).getD 0))
/-- PRIVILEGE of instruction i, whose word is EVAL (R43, R234). -/
def privilege (s : State) (i : Instr) : State := s.trap 2 0 (wd ((encodeHelm i).getD 0))
/-- CAP (R234). -/
def trapCap (s : State) (f : CapFault) (a : Word) : State := s.trap 3 f.code a
/-- ENGARG (R234). -/
def engarg (s : State) (w : Word) : State := s.trap 6 0 w

/-- The return from a trap handler (R237): pcc := epcc with address EPC, the saved level, INTRAP 0. -/
def trapReturn (s : State) : State :=
  let x := s.th
  s.setTh { x with pcc := x.epcc.setAddr x.epc, priv := BitVec.ofNat 2 (bits x.ecause 16 2),
                   inTrap := false, st := .ready, wait := .none }

/-! ## Blocking and yielding (R213, R214) -/

/-- Every outbound queue of a thread's unit is empty (R228). -/
def unitDrained (s : State) (t : Nat) : Bool :=
  (s.unit (ptidOf t) (unitOf t)).outq.all fun p => p.2.isEmpty

/-- Thread t, with the address it is to resume at, yields: YIELDING once its outbound streams have drained, which
it waits for before (R214); a BARVW keeps the mark that its arrival is made (R359). -/
def yieldThread (s : State) (t : Nat) (x : Thread) : State :=
  s.setThread t (if isCore t || s.unitDrained t then
      { x with st := .yielding, wait := .none, instr := none }
    else { x with st := .waiting, wait := .drain, instr := none })

/-- A blocking instruction finds its condition unmet: at a yield check with a stop request pending the
thread yields with the address of the instruction, else it waits (R212, R214). -/
def block (s : State) (w : Wait) (check : Bool) : State :=
  let x := s.th
  if check && x.stopReq then s.yieldThread s.cur x
  else if x.st = .waiting && x.wait = w then s
  else s.setTh { x with st := .waiting, wait := w, waitSince := s.fc }

/-- SYIELD and SLEEP with a stop request: the instruction completes and the thread yields (R214). -/
def yield (s : State) : State := let s1 := s.advance; s1.yieldThread s1.cur s1.th

/-! ## Message channels (R229, R230) -/

/-- Where channel n of a thread lives. -/
def chanAt (s : State) (t n : Nat) : ChanId :=
  if isCore t then .core n
  else if n < 64 then .tile (ptidOf t) n
  else if n < 128 then .group (s.handleOf (ptidOf t)) n
  else if n < 192 then .stack (s.ctxOf t) (stackOf t) n
  else .package (s.ctxOf t) n

/-- The threads blocked on a full channel or an empty one, in the order they began to wait; those that
began together in ascending PLACE, UNIT and THREAD. -/
def waiters (s : State) (w : Wait) : List Nat :=
  (sortBy (fun a b => a.2.waitSince < b.2.waitSince || (a.2.waitSince == b.2.waitSince && a.1 ≤ b.1))
    (s.threads.filter fun p => p.2.st = .waiting && p.2.wait = w)).map (·.1)

/-- Whether a free entry of the channel goes to sender t: it has room, and no held message and no thread that began
waiting before stands first; of those that began in one fc the held messages come first (R230). -/
def maySend (s : State) (t : Nat) (c : ChanId) : Bool :=
  (s.chan c).msgs.length < 16 &&
  match s.waiters (.chanFree c) with
  | w :: _ => w = t && ((s.chan c).held.head?).all fun o => (s.thread w).waitSince < o.since
  | [] => (s.chan c).held.isEmpty

/-- Whether the channel holds a message that is next for receiver t (R230). -/
def mayRecv (s : State) (t : Nat) (c : ChanId) : Bool :=
  let ws := s.waiters (.chanMsg c)
  let ahead := if ws.contains t then (ws.takeWhile (· ≠ t)).length else ws.length
  ahead < (s.chan c).msgs.length

/-- A message the hardware sends, for an engine response with the thread it answers: it enters the channel, or the
hardware holds it while the channel is full (R230). -/
def sendFor (s : State) (c : ChanId) (m : Word) (t : Option Nat) : State :=
  let x := s.chan c
  if x.msgs.length < 16 && x.held.isEmpty && (s.waiters (.chanFree c)).isEmpty then
    s.setChan c { x with msgs := x.msgs ++ [m] }
  else (s.setChan c { x with held := x.held ++ [{ since := s.fc, word := m, thread := t }] }).postOnce (.evHeldMessageEnter c)

/-- A message the hardware sends (R230). -/
def sendHeld (s : State) (c : ChanId) (m : Word) : State := s.sendFor c m none

/-- The oldest message leaves the channel; a held one may then enter. -/
def takeMsg (s : State) (c : ChanId) : State :=
  let x := s.chan c
  let s1 := s.setChan c { x with msgs := x.msgs.tail }
  if x.held.isEmpty then s1 else s1.postOnce (.evHeldMessageEnter c)

/-- The stack whose Pilot acts for a group: the lowest-numbered one it stands on, or stood on before its eviction
(R25; log 103). -/
def pilotStack (g : Group) : Nat :=
  match (g.tiles ++ g.savedPlace).map fun t => stackOfTile t.2.2 with
  | [] => 0
  | k :: l => l.foldl Nat.min k

/-- The group's error counter rises by one, saturating; its first count raises ERRCOUNT. It is zero until the group is
ARMED (R392). -/
def countError (s : State) (gh : Nat) : State :=
  let x := s.group gh
  if (find s.groups gh).isNone || x.st = .leased || x.st = .configuring then s
  else
    let e := if x.gerr = 0xFFFFFFFF then x.gerr else x.gerr + 1
    let s1 := s.setGroup gh { x with gerr := e, errRaised := true }
    if x.errRaised then s1
    else s1.raise { cause := 8, detail := 1, src := 10, place := basePlace (pilotStack x),
                    ctx := some x.ctx, aux := wd e.toNat, group := wd gh }

/-- A freeze holds what stands of the group (R348). -/
def groupHeld (s : State) (gh : Nat) : Bool := (s.group gh).frozenAt.isSome

/-- A thread is HALTED; its group notes the fc (R338). -/
def haltThread (s : State) (t : Nat) : State :=
  let s1 := s.setThread t { s.thread t with st := .halted }
  let h := s.handleOf (ptidOf t)
  if isCore t || (find s.groups h).isNone then s1 else s1.setGroup h { s1.group h with haltAt := s.fc }

/-- The group stands on no tiles until it is placed again (R350). -/
def groupAway (s : State) (gh : Nat) : Bool := (s.group gh).st = .evicted

/-- Copies in flight no longer count as committed: their context left ACTIVE, or their interface RUN (R406). -/
def spoilCopies (s : State) (x : Nat) : State :=
  { s with engines := s.engines.map fun (e : EngReq) => if e.ctx = x then { e with spoilt := true } else e }

/-! ## Rate limiters (R398) -/

/-- The most credit a limiter holds, in 1/1024 request: Max(BURST, RATE). -/
def creditCap (x : Partition) : Int := 1024 * (Nat.max x.burst x.rate : Nat)

/-- The credit of partition p's limiter on stack k now: it starts full and rises by RATE / 1024 per fc. -/
def creditNow (s : State) (p k : Nat) : Int :=
  let x := s.part p
  let c := (find x.credit k).getD (creditCap x) + x.rate * ((s.fc - look 0 x.creditAt k : Nat) : Int)
  if creditCap x < c then creditCap x else c

/-- A data request of context x is held at stack k: the partition has a rate and less than one credit. -/
def limited (s : State) (x k : Nat) : Bool :=
  let p := (s.context x).part
  (s.part p).rate ≠ 0 && s.creditNow p k < 1024

/-- The credit of partition p's limiter on stack k set. -/
def setCredit (s : State) (p k : Nat) (c : Int) : State :=
  let y := s.part p
  s.setPart p { y with credit := put y.credit k c, creditAt := put y.creditAt k s.fc }

/-- A request of context x leaves its limiter on stack k: C falls by 1. -/
def charge (s : State) (x k : Nat) : State :=
  let p := (s.context x).part
  if x ≥ 128 || (s.part p).rate = 0 then s else s.setCredit p k (s.creditNow p k - 1024)

/-- A walk for context x is charged at stack k and never held: C falls by 1, to -65,536 at least. -/
def chargeWalk (s : State) (x k : Nat) : State :=
  let p := (s.context x).part
  if x ≥ 128 || (s.part p).rate = 0 then s
  else
    let c := s.creditNow p k - 1024
    s.setCredit p k (if c < -67108864 then -67108864 else c)

/-- Requests of context x to host frames may be issued: its interface is CONFIG_UNLOCKED or RUN (R405). -/
def hostOpen (s : State) (x : Nat) : Bool :=
  match (s.context x).iface with
  | some f => (s.iface f).st == 0 || (s.iface f).st == 2
  | none => true

/-- A request is held at its limiter on stack k: its event comes again when LIMITER_RELEASE lets it. -/
def holdEvent (s : State) (x k : Nat) (i : Instr) : State :=
  let p := (s.context x).part
  let y := s.part p
  (s.setPart p { y with heldReqs := upd [] y.heldReqs k (fun (l : List Instr) => l ++ [i]) }).postOnce
    (.evLimiterRelease p k)

end State

/-- Every meaning of this model answers a next state. -/
abbrev Result := Host.Outcome State Fault Refusal

end Sys2Proof.Machine
end

