-- ==== Sys2Proof/Machine/Digest.lean ====
section
/-! DEFINITION. The digests the spec names: CRC-32 of IEEE 802.3 (R45), SHAKE256 (R72, R301, R309) and KMAC256
(R303), and the verification of Ed448 signatures (R72, R309, R431). -/

namespace Sys2Proof.Machine

/-- One bit of the reflected CRC-32 (R45). -/
def crcBit (c : BitVec 32) : BitVec 32 := if c.getLsbD 0 then (c >>> 1) ^^^ 0xEDB88320 else c >>> 1
/-- One byte of the CRC-32. -/
def crcByte (c : BitVec 32) (b : Byte) : BitVec 32 :=
  (List.range 8).foldl (fun a _ => crcBit a) (c ^^^ b.setWidth 32)
/-- CRC-32 (R45). -/
def crc32 (bs : List Byte) : BitVec 32 := ~~~(bs.foldl crcByte 0xFFFFFFFF)

/-- The feedback register of Keccak's round constants, after t steps. -/
def keccakRegister (t : Nat) : Nat :=
  (List.range t).foldl (fun r _ => 2 * r % 256 ^^^ (if r < 128 then 0 else 0x71)) 1

/-- The constant of round i: bit 2^j - 1 comes from the register after 7 i + j steps. -/
def keccakConstant (i : Nat) : Word :=
  wd (((List.range 7).filter fun j => keccakRegister (7 * i + j) % 2 = 1).map fun j => 2 ^ (2 ^ j - 1)).sum

/-- The walk over lanes 1 to 24, as x + 5 y, from (1, 0) by (x, y) to (y, 2 x + 3 y): each lane with its rotation, the
triangular number of its step. -/
def keccakWalk : Nat → Nat → Nat → List (Nat × Nat)
  | 0, _, _ => []
  | n + 1, x, y => (x + 5 * y, (25 - (n + 1)) * (26 - (n + 1)) / 2 % 64) :: keccakWalk n y ((2 * x + 3 * y) % 5)

/-- The rotation of a lane; lane 0 does not turn. -/
def keccakTurn (i : Nat) : Nat := ((keccakWalk 24 1 0).lookup i).getD 0

/-- The parity of a column of the lanes. -/
def keccakColumn (a : List Word) (x : Nat) : Word :=
  (List.range 5).foldl (fun v y => v ^^^ a.getD (x % 5 + 5 * y) 0) 0

/-- Theta: each lane takes up the parities of the columns beside it. -/
def keccakTheta (a : List Word) : List Word :=
  let cs := (List.range 5).map (keccakColumn a)
  a.zipIdx.map fun v => v.1 ^^^ cs.getD ((v.2 + 4) % 5) 0 ^^^ (cs.getD ((v.2 + 1) % 5) 0).rotateLeft 1

/-- Rho and pi: lane (x, y) of the result is lane (x + 3 y, x), turned. -/
def keccakMove (turns : List Nat) (a : List Word) : List Word :=
  (List.range 25).map fun i =>
    let from_ := (i % 5 + 3 * (i / 5)) % 5 + 5 * (i % 5)
    (a.getD from_ 0).rotateLeft (turns.getD from_ 0)

/-- Chi: each lane takes up the two that follow it in its row. -/
def keccakChi (a : List Word) : List Word :=
  a.zipIdx.map fun v =>
    let next := fun (k : Nat) => a.getD (v.2 / 5 * 5 + (v.2 + k) % 5) 0
    v.1 ^^^ (next 2 &&& ~~~next 1)

/-- One round of Keccak-f[1600] on 25 lanes, with its constant (iota). -/
def keccakRound (turns : List Nat) (a : List Word) (rc : Word) : List Word :=
  (keccakChi (keccakMove turns (keccakTheta a))).modifyHead (· ^^^ rc)

/-- Keccak-f[1600]. -/
def keccak (a : List Word) : List Word :=
  ((List.range 24).map keccakConstant).foldl (keccakRound ((List.range 25).map keccakTurn)) a

/-- A 136-byte block absorbed. -/
def shakeAbsorb (a : List Word) (block : List Byte) : List Word :=
  keccak ((List.range 25).map fun i =>
    a.getD i 0 ^^^ (if i < 17 then wd (fromBytes ((block.drop (8 * i)).take 8)) else 0))

/-- A message padded to blocks of 136 bytes behind its domain byte. -/
def shakePad (dom : Byte) (m : List Byte) : List Byte :=
  let k := 136 - m.length % 136
  m ++ (if k = 1 then [dom ||| 0x80] else [dom] ++ List.replicate (k - 2) 0 ++ [0x80])

/-- The sponge of Keccak-f[1600] with blocks of 136 bytes, n bytes of output, at most 136. -/
def sponge (dom : Byte) (n : Nat) (m : List Byte) : List Byte :=
  let p := shakePad dom m
  let a := (List.range (p.length / 136)).foldl (fun a i => shakeAbsorb a ((p.drop (136 * i)).take 136))
    (List.replicate 25 0)
  (a.flatMap fun l => toBytes 8 l.toNat).take n

/-- SHAKE256 with n bytes of output, at most 136. -/
def shakeOf (n : Nat) (m : List Byte) : List Byte := sponge 0x1F n m

/-- SHAKE256 with 64 bytes of output (R72, R301). -/
def shake256 (m : List Byte) : List Byte := shakeOf 64 m

/-! ## KMAC256 (R303) -/

/-- A length in its least number of bytes, most significant first, behind that number. -/
def lengthBytes (n : Nat) : List Byte :=
  if n < 256 then [1, BitVec.ofNat 8 n] else [2, BitVec.ofNat 8 (n / 256), BitVec.ofNat 8 n]

/-- A string behind its length in bits. -/
def lengthString (bs : List Byte) : List Byte := lengthBytes (8 * bs.length) ++ bs

/-- Strings filled up with zeros to whole blocks. -/
def blockFilled (bs : List Byte) : List Byte :=
  let l := lengthBytes 136 ++ bs
  l ++ List.replicate ((136 - l.length % 136) % 136) 0

/-- KMAC256 of a message with n bytes of output, n below 32 (R303). -/
def kmac256 (key m : List Byte) (n : Nat) (custom : List Byte) : List Byte :=
  sponge 0x04 n (blockFilled (lengthString [0x4B, 0x4D, 0x41, 0x43] ++ lengthString custom) ++
    blockFilled (lengthString key) ++ m ++ [BitVec.ofNat 8 (8 * n), 1])

/-! ## Ed448 verification (R72, R309, R431; log 7) -/

/-- The field's prime. -/
def edPrime : Nat := 2 ^ 448 - 2 ^ 224 - 1
/-- The order of the base point. -/
def edOrder : Nat := 2 ^ 446 - 0x8335dc163bb124b65129c96fde933d8d723a70aadc873d6d54a7bb0d
/-- A power modulo the prime, over the bits of the exponent from the top. -/
def edPow (b : Nat) (bits : List Bool) : Nat :=
  bits.foldl (fun r t => if t then r * r % edPrime * b % edPrime else r * r % edPrime) 1
/-- The bits of an exponent, the top one first. -/
def topBits (e n : Nat) : List Bool := ((List.range n).map fun i => e.testBit i).reverse
/-- The curve's constant d, -39081. -/
def edD : Nat := edPrime - 39081

/-- A point in projective coordinates. -/
structure EdPoint where
  x : Nat := 0
  y : Nat := 1
  z : Nat := 1
deriving DecidableEq, Repr

/-- The sum of two points of the curve x^2 + y^2 = 1 + d x^2 y^2. -/
def EdPoint.add (p q : EdPoint) : EdPoint :=
  let a := p.z * q.z % edPrime
  let b := a * a % edPrime
  let c := p.x * q.x % edPrime
  let f := p.y * q.y % edPrime
  let e := edD * c % edPrime * f % edPrime
  let g := b + edPrime - e
  let h := b + e
  { x := a * g % edPrime * ((p.x + p.y) * (q.x + q.y) % edPrime + 2 * edPrime - c - f) % edPrime,
    y := a * h % edPrime * (f + edPrime - c) % edPrime,
    z := g * h % edPrime }

/-- A multiple of a point. -/
def EdPoint.times (p : EdPoint) (k : Nat) : EdPoint :=
  (topBits k 456).foldl (fun r t => if t then (r.add r).add p else r.add r) {}

/-- Two points are one. -/
def EdPoint.same (p q : EdPoint) : Bool :=
  p.x * q.z % edPrime = q.x * p.z % edPrime && p.y * q.z % edPrime = q.y * p.z % edPrime

/-- The point that 57 bytes encode: y below and the sign of x in the top bit. -/
def edDecode (bs : List Byte) : Option EdPoint :=
  let v := fromBytes bs
  let y := v % 2 ^ 455
  let u := (y * y + edPrime - 1) % edPrime
  let w := (edD * y % edPrime * y + edPrime - 1) % edPrime
  let r := u * u % edPrime * u % edPrime * w % edPrime
  let t := r * edPow (r * u % edPrime * u % edPrime * w % edPrime * w % edPrime) (topBits ((edPrime - 3) / 4) 446) % edPrime
  if bs.length ≠ 57 || edPrime ≤ y || w * t % edPrime * t % edPrime ≠ u then none
  else if t = 0 && 2 ^ 455 ≤ v then none
  else some { x := if t % 2 = v / 2 ^ 455 then t else edPrime - t, y }

/-- The base point. -/
def edBase : EdPoint :=
  { x := 224580040295924300187604334099896036246789641632564134246125461686950415467406032909029192869357953282578032075146446173674602635247710,
    y := 298819210078481492676017930443930673437544040154080242095928241372331506189835876003536878655418784733982303233503462500531545062832660 }

/-- Ed448 (RFC 8032) with an empty context: a signature of 114 bytes over a message, under a key of 57 bytes. -/
def ed448Verify (key m sig : List Byte) : Bool :=
  let r := sig.take 57
  let k := fromBytes (sig.drop 57)
  let dom : List Byte := [0x53, 0x69, 0x67, 0x45, 0x64, 0x34, 0x34, 0x38, 0, 0]
  match edDecode key, edDecode r with
  | some a, some q =>
    sig.length = 114 && k < edOrder &&
    (edBase.times (4 * k)).same ((q.times 4).add (a.times (4 * (fromBytes (shakeOf 114 (dom ++ r ++ key ++ m)) % edOrder))))
  | _, _ => false

end Sys2Proof.Machine
end

