-- ==== Sys2Proof/Machine/Seal.lean ====
section
/-! DEFINITION. The sealing of a line: AES-256-XTS, KMAC256 and the line's metadata (R253, R303, R304). The spec names
AES, XTS and KMAC and does not define them: they are written from FIPS 197, IEEE 1619 and SP 800-185 (log 7). -/

namespace Sys2Proof.Machine

/-! ## AES-256 -/

/-- A byte times x in the field of AES. -/
def aesTwice (a : Nat) : Nat := if a < 128 then 2 * a else 2 * a ^^^ 0x11B

/-- A product in the field of AES; n bits of the second factor count. -/
def aesTimes : Nat → Nat → Nat → Nat
  | 0, _, _ => 0
  | n + 1, a, b => (if b % 2 = 1 then a else 0) ^^^ aesTimes n (aesTwice a) (b / 2)

/-- The inverse of a field element, its power 254; that of 0 is 0. -/
def aesInverse (a : Nat) : Nat :=
  ((List.range 7).foldl (fun (v : Nat × Nat) _ =>
    let q := aesTimes 8 v.2 v.2
    (aesTimes 8 v.1 q, q)) (1, a)).1

/-- A byte turned left by each of some numbers of bits, the turns added. -/
def turnedSum (a : Nat) (ks : List Nat) : Nat := ks.foldl (fun v k => v ^^^ (a * 2 ^ k % 256 + a / 2 ^ (8 - k))) 0

/-- The substitution of a byte. -/
def aesSub (a : Nat) : Nat := turnedSum (aesInverse a) [0, 1, 2, 3, 4] ^^^ 0x63

/-- The substitution undone. -/
def aesUnsub (a : Nat) : Nat := aesInverse (turnedSum a [1, 3, 6] ^^^ 0x05)

/-- Bytes added in the field, place by place. -/
def addBytes (a b : List Nat) : List Nat := a.zipWith (· ^^^ ·) b

/-- The next word of a key schedule, from the words so far, newest first: word i follows words i - 1 and i - 8. -/
def keyWord (ws : List (List Nat)) (i : Nat) : List Nat :=
  let last := ws.headD []
  let t := if i % 8 = 0 then addBytes ((last.drop 1 ++ last.take 1).map aesSub) [2 ^ (i / 8 - 1), 0, 0, 0]
    else if i % 8 = 4 then last.map aesSub else last
  addBytes (ws.getD 7 []) t

/-- The fifteen round keys of an AES-256 key of 32 bytes. -/
def roundKeys (key : List Nat) : List (List Nat) :=
  let first := (List.range 8).map fun i => (key.drop (4 * i)).take 4
  let ws := ((List.range 52).foldl (fun a i => keyWord a (i + 8) :: a) first.reverse).reverse
  (List.range 15).map fun r => ((ws.drop (4 * r)).take 4).flatten

/-- The rows of a block of 16 bytes, each turned by k times its number of places. -/
def turnRows (k : Nat) (b : List Nat) : List Nat :=
  (List.range 16).map fun i => b.getD ((i + 4 * (k * (i % 4))) % 16) 0

/-- The columns of a block mixed by a circulant of four factors. -/
def mixColumns (f : List Nat) (b : List Nat) : List Nat :=
  (List.range 16).map fun i =>
    (List.range 4).foldl (fun v k => v ^^^ aesTimes 8 (b.getD (i / 4 * 4 + (i + k) % 4) 0) (f.getD k 0)) 0

/-- A block of 16 bytes enciphered under AES-256. -/
def aesEncrypt (key b : List Nat) : List Nat :=
  let ks := roundKeys key
  let last := (List.range 13).foldl (fun v r =>
    addBytes (mixColumns [2, 3, 1, 1] (turnRows 1 (v.map aesSub))) (ks.getD (r + 1) [])) (addBytes b (ks.getD 0 []))
  addBytes (turnRows 1 (last.map aesSub)) (ks.getD 14 [])

/-- A block of 16 bytes deciphered under AES-256. -/
def aesDecrypt (key b : List Nat) : List Nat :=
  let ks := roundKeys key
  let first := (turnRows 3 (addBytes b (ks.getD 14 []))).map aesUnsub
  let v := (List.range 13).foldl (fun v r =>
    (turnRows 3 (mixColumns [14, 11, 13, 9] (addBytes v (ks.getD (13 - r) [])))).map aesUnsub) first
  addBytes v (ks.getD 0 [])

/-! ## XTS of a 64-byte line -/

/-- The tweak of the next block: times x in the field of 2^128. -/
def nextTweak (t : Nat) : Nat := if t < 2 ^ 127 then 2 * t else (2 * t - 2 ^ 128) ^^^ 0x87

/-- A number's bytes as numbers, least significant first. -/
def numBytes (n v : Nat) : List Nat := (toBytes n v).map (·.toNat)

/-- The four blocks of a line, each under its tweak before and after `f`. -/
def xtsBlocks (f : List Nat → List Nat) : Nat → Nat → List Nat → List Nat
  | 0, _, _ => []
  | n + 1, t, bs => addBytes (f (addBytes (bs.take 16) (numBytes 16 t))) (numBytes 16 t) ++
    xtsBlocks f n (nextTweak t) (bs.drop 16)

/-! ## The seal of a line (R303, R304) -/

/-- The key of a stamp: the two AES-256 keys and the MAC key (R303). -/
def Seal.dataKey (x : Seal) : List Byte := Config.dataKey x.owner x.key

/-- A part of 32 bytes of a stamp's key, as numbers. -/
def Seal.keyPart (x : Seal) (i : Nat) : List Nat := ((x.dataKey.drop (32 * i)).take 32).map (·.toNat)

/-- The first tweak of a line: PA / 64 enciphered (R303). -/
def Seal.tweak (x : Seal) : Nat := fromBytes ((aesEncrypt (x.keyPart 1) (numBytes 16 x.pa)).map (BitVec.ofNat 8))

/-- A line's bytes as its stamp seals them (R303). -/
def Seal.sealed (x : Seal) (bs : List Byte) : List Byte :=
  (xtsBlocks (aesEncrypt (x.keyPart 0)) 4 x.tweak (bs.map (·.toNat))).map (BitVec.ofNat 8)

/-- Sealed bytes as a stamp opens them (R303). -/
def Seal.opened (x : Seal) (ct : List Byte) : List Byte :=
  (xtsBlocks (aesDecrypt (x.keyPart 0)) 4 x.tweak (ct.map (·.toNat))).map (BitVec.ofNat 8)

/-- The 28 bits of MAC that the metadata keeps of a sealed line: of Concat(tags, ct, PA / 64), whose last part stands
lowest and so first in little-endian order (R3, R303). -/
def Seal.mac (x : Seal) (tags : BitVec 4) (ct : List Byte) : Nat :=
  fromBytes (kmac256 ((x.dataKey.drop 64).take 32) (toBytes 8 x.pa ++ ct ++ [BitVec.ofNat 8 tags.toNat]) 4
    [0x4F, 0x54, 0x4C, 0x2D, 0x4C, 0x49, 0x4E, 0x45]) % 2 ^ 28

/-- A line's metadata: MAC, its complement where the line is poisoned, and tags (R303, R304). -/
def Seal.metadata (x : Seal) (tags : BitVec 4) (poi : Bool) (bs : List Byte) : Nat :=
  (x.mac tags (x.sealed bs) ^^^ (if poi then 0xFFFFFFF else 0)) * 16 + tags.toNat

/-- What a read finds in a line (R304). -/
inductive SealCheck where
  | good | poisoned | failed
deriving DecidableEq, Repr

/-- The line sealed under stamp x, read under stamp y (R304). -/
def judgeLine (x y : Seal) (tags : BitVec 4) (poi : Bool) (bs : List Byte) : SealCheck :=
  let found := x.metadata tags poi bs / 16
  let mac := y.mac tags (x.sealed bs)
  if found = mac then .good else if found = mac ^^^ 0xFFFFFFF then .poisoned else .failed

end Sys2Proof.Machine
end

