-- ==== Sys2Proof/Machine/Mem.lean ====
section
/-! DEFINITION. Physical memory: bytes, tags, poison, seals and the HBM contents beneath dirty lines
(R24, R253, R254, R277, R278, R303, R304, R363, R364). -/

namespace Sys2Proof.Machine

/-! ## Bytes in canonical form -/

/-- A byte of a canonical list; an unlisted one reads 0 (log 1). -/
def getByte (m : List Host.Cell) (k : Nat) : Byte := look 0 m k

/-- A byte written; a 0 is not listed. -/
def setByte (m : List Host.Cell) (k : Nat) (v : Byte) : List Host.Cell :=
  if v = 0 then del m k else put m k v

/-- n bytes from k upward. -/
def getBytes (m : List Host.Cell) (k : Nat) : Nat → List Byte
  | 0 => []
  | n + 1 => getByte m k :: getBytes m (k + 1) n

/-- Bytes written from k upward. -/
def setBytes (m : List Host.Cell) (k : Nat) : List Byte → List Host.Cell
  | [] => m
  | b :: bs => setBytes (setByte m k b) (k + 1) bs

/-- A member added to or removed from a set. -/
def setMem (l : List Nat) (k : Nat) (on : Bool) : List Nat :=
  if on then insertNat k l else l.filter (· ≠ k)

/-- The keys of a canonical list rise strictly and no listed byte is 0. -/
def cellsWf : List Host.Cell → Bool
  | [] => true
  | [(_, v)] => v != 0
  | (j, v) :: (k, w) :: t => v != 0 && j < k && cellsWf ((k, w) :: t)

/-- The memory's canonical form. -/
def Memory.wf (m : Memory) : Bool := cellsWf m.cells

/-- The memory's canonical form holds in a state. -/
def State.memWf (s : State) : Bool := s.mem.wf

/-! ## Where a physical address is stored (R363, R364) -/

/-- The home stack of a frame with FIX = 0 (R364). -/
def homeOf (pa : Nat) : Nat :=
  (pa / 2 ^ 12 % 4) ^^^ (pa / 2 ^ 18 % 4) ^^^ (pa / 2 ^ 26 % 4) ^^^ (pa / 2 ^ 34 % 4)

/-- The stack-local address of a frame with FIX = 0: Concat(PA[39:14], PA[11:0]) (R364). -/
def localOf (pa : Nat) : Nat := pa / 2 ^ 14 % 2 ^ 26 * 2 ^ 12 + pa % 2 ^ 12

/-- Where an access goes: the storage key of its first byte, its physical address, the key epoch and
key id that seal it, whether it is a host frame, its home stack and whether the page grants capability
stores. -/
structure Phys where
  key : Nat := 0
  pa : Nat := 0
  ctx : Nat := 0
  owner : Nat := 0
  keyId : Nat := 0
  host : Bool := false
  home : Nat := 0
  cs : Bool := false
deriving DecidableEq, Repr

/-- The storage key of a device address: home and stack-local address. -/
def deviceKey (fix : Option Nat) (pa : Nat) : Nat :=
  match fix with
  | some h => h * 2 ^ 40 + pa
  | none => homeOf pa * 2 ^ 40 + localOf pa

/-- The home stack of a device address (R364). -/
def homeFix (fix : Option Nat) (pa : Nat) : Nat := match fix with
  | some h => h
  | none => homeOf pa

/-- The storage key of a host address of function f. -/
def hostKey (f pcie : Nat) : Nat := 2 ^ 48 * (1 + f) + pcie

/-- A firmware address (R424). -/
def firmwarePhys (pa : Nat) : Phys :=
  { key := deviceKey none pa, pa, ctx := 128, home := homeOf pa, cs := true }

/-- The address i bytes on, within one page. -/
def Phys.plus (p : Phys) (i : Nat) : Phys := { p with key := p.key + i, pa := p.pa + i }

/-- The stamp of an access: the keys and the address under which it seals a line (R303). -/
def Phys.stamp (p : Phys) : Seal := { owner := p.owner, key := p.keyId, pa := p.pa / 64 }

/-! ## Lines -/

namespace State

/-- The state with its memory set. -/
def setMemory (s : State) (m : Memory) : State := { s with mem := m }

/-- The tags of a line (R253). -/
def lineTags (s : State) (line : Nat) : BitVec 4 :=
  BitVec.ofNat 4 (((List.range 4).map fun i => if s.mem.tags.contains (line * 4 + i) then 2 ^ i else 0).sum)

/-- The line's contents at its L2 slice: bytes, tags and poison, with the HBM's beneath (R277). -/
def hbmLine (s : State) (line ctx : Nat) : L2Line :=
  { ctx, bytes := getBytes s.mem.cells (line * 64) 64, tags := s.lineTags line,
    poi := s.mem.poison.contains line, sealed := find s.mem.seals line }

/-- A line restored to its HBM contents: what an invalidation without write-back leaves (R278). -/
def dropLine (s : State) (line : Nat) : State :=
  match find s.mem.dirty line with
  | none => s
  | some h => s.setMemory { s.mem with
      cells := setBytes s.mem.cells (line * 64) h.bytes,
      tags := (List.range 4).foldl (fun l i => setMem l (line * 4 + i) (h.tags.getLsbD i)) s.mem.tags,
      poison := setMem s.mem.poison line h.poi,
      seals := match h.sealed with
        | some v => put s.mem.seals line v
        | none => del s.mem.seals line,
      dirty := del s.mem.dirty line }

/-- A line written back: what its slice held is now in HBM (R277). -/
def writeBack (s : State) (line : Nat) : State := s.setMemory { s.mem with dirty := del s.mem.dirty line }

/-! ## The L2 slices (R23, R263, R393, R395; log 8) -/

/-- The home stack of a stored line. -/
def lineStack (line : Nat) : Nat := line / 2 ^ 34

/-- A line leaves its L2 slice: a marked one is dropped, a dirty one written back, charged to its owner (R277, R278,
R398). -/
def evictLine (s : State) (line : Nat) : State :=
  let s1 := match find s.mem.dirty line with
    | some h => if h.mark then s.dropLine line else (s.writeBack line).chargeWalk h.ctx (lineStack line)
    | none => s
  { s1 with l2 := del s1.l2 line }

/-- The ways into which a line of a context may be filled: those of its partition's mask; the firmware's go into any
(R393, R395). -/
def waysOf (s : State) (x : Nat) : List Nat :=
  (List.range 32).filter fun w => 128 ≤ x || (s.part (s.context x).part).ways.getLsbD w

/-- The lines that stand in the set of a line. -/
def sameSet (s : State) (line : Nat) : List (Nat × L2Way) := s.l2.filter fun e => Config.l2Set e.1 = Config.l2Set line

/-- The ways of a context's mask that hold nothing in a line's set. -/
def freeWays (s : State) (x line : Nat) : List Nat :=
  (s.waysOf x).filter fun w => !(s.sameSet line).any (·.2.way = w)

/-- One of some ways, as a free value chooses (log 8). -/
def pickWay (s : State) (ways : List Nat) : Nat := ways.getD (s.free.toNat % ways.length) 0

/-- The lines a fill displaces: none while a way of the mask is free in the set, else those of the way chosen (R395). -/
def fillVictims (s : State) (x line : Nat) : List Nat :=
  if s.l2.length < (s.waysOf x).length then []
  else if (s.freeWays x line).isEmpty then
    ((s.sameSet line).filter fun e => e.2.way = s.pickWay (s.waysOf x)).map (·.1)
  else []

/-- The way a fill takes. -/
def fillWay (s : State) (x line : Nat) : Nat :=
  s.pickWay (if (s.freeWays x line).isEmpty then s.waysOf x else s.freeWays x line)

/-- A line filled into a way of its context's mask (R395). -/
def fillLine (s : State) (x line : Nat) : State :=
  let s1 := (s.fillVictims x line).foldl evictLine s
  { s1 with l2 := put s1.l2 line { ctx := x, way := s.fillWay x line } }.used

/-- The slice holds the line of an access for its context (R395). -/
def l2Holds (s : State) (p : Phys) : Bool :=
  match find s.l2 (p.key / 64) with
  | some e => e.ctx == p.ctx
  | none => false

/-- A request to a host frame bears the T bit while its interface is in RUN (R405). -/
def sendHost (s : State) (p : Phys) : State :=
  let f := p.key / 2 ^ 48 - 1
  { s with hostDma := some (f, (s.iface f).st = 2) }

/-- An access at its L2 slice: a hit only on a line of its own context; a line that another context holds there leaves
first (R277, R395). Host memory is cached in no slice. -/
def reach (s : State) (p : Phys) : State :=
  if p.host then s.sendHost p
  else if s.l2Holds p then s
  else (if (find s.l2 (p.key / 64)).isSome then s.evictLine (p.key / 64) else s).fillLine p.ctx (p.key / 64)

/-- The tenant that the memory channel of a missing line expects, where it is not the one presented (R24, R381;
log 96). -/
def otherTenant (s : State) (p : Phys) : Option Nat :=
  if p.host || 128 ≤ p.ctx || s.l2Holds p then none else (find s.tenants (p.key / 4096)).filter (· ≠ p.ctx)

/-- The TENANT record of a request that a memory channel turns away (R381, R382). -/
def tenantRecord (p : Phys) (expected : Nat) : Record :=
  { cause := 0x12, src := 7, place := basePlace p.home, addr := wd p.pa,
    aux := wd (expected % 128 + p.ctx % 128 * 256), toH := true }

/-- The stamp a line bears is that of the access; a line never sealed is good (R303, R304; log 1). -/
def sealGood (s : State) (p : Phys) : Bool :=
  p.host || match find s.mem.seals (p.key / 64) with
    | none => true
    | some x => x.owner == p.owner && x.key == p.keyId && x.pa == p.pa / 64

/-- A line sealed under stamp x as another stamp opens it: the bytes that its keys give, under its own seal, which leaves
what HBM holds as it is (R303, R304). -/
def openedBy (s : State) (line : Nat) (x y : Seal) (poi : Bool) : State :=
  s.setMemory { s.mem with
    cells := setBytes s.mem.cells (line * 64) (y.opened (x.sealed (getBytes s.mem.cells (line * 64) 64))),
    poison := setMem s.mem.poison line poi,
    seals := put s.mem.seals line y }

/-- The line of an access as its keys open it, where its MAC allows that (R304). -/
def reopened (s : State) (p : Phys) : State :=
  let line := p.key / 64
  match if s.sealGood p then none else find s.mem.seals line with
  | none => s
  | some x =>
    match judgeLine x p.stamp (s.lineTags line) (s.mem.poison.contains line) (getBytes s.mem.cells (line * 64) 64) with
    | .good => s.openedBy line x p.stamp false
    | .poisoned => s.openedBy line x p.stamp true
    | .failed => s

/-- A line written as poisoned: tags zero (R304). -/
def poisonLine (s : State) (p : Phys) : State :=
  let line := p.key / 64
  s.setMemory { s.mem with
    poison := setMem s.mem.poison line true,
    tags := s.mem.tags.filter (· / 4 ≠ line),
    seals := put s.mem.seals line p.stamp }

/-- The INTEGRITY record of a failed line, with the fields of the unit that read it (R304, R381, R382). -/
def integrityRecord (r : Record) (p : Phys) (va : Word) : Record :=
  { r with cause := 6, detail := 1, ctx := some p.ctx, addr := va }

/-- A read passes its line's seal check; a failing line is rewritten as poisoned and recorded (R304), without a
record in firmware space (R424). -/
def checkLine (s : State) (p : Phys) (va : Word) (r : Record) : State :=
  let s1 := s.reopened p
  if s1.sealGood p then s1
  else if 128 ≤ p.ctx then s.poisonLine p
  else (s.poisonLine p).raise (integrityRecord r p va)

/-- A `.lastuse` mark consumed by a read of the line's context (R278). -/
def consumeMark (s : State) (p : Phys) : State :=
  match find s.mem.dirty (p.key / 64) with
  | some h => if h.mark && h.ctx == p.ctx then s.evictLine (p.key / 64) else s
  | none => s

/-- A line marked `.lastuse` that was evicted before this access: dropped without write-back (R278; the
eviction is a free value, log 8). -/
def evictMarked (s : State) (p : Phys) : State :=
  match find s.mem.dirty (p.key / 64) with
  | some h => if h.mark && !Config.lineHeld (p.key / 64) s.fresh then (s.evictLine (p.key / 64)).used else s
  | none => s

/-- Whether the byte at a place is poisoned (R304). -/
def poisonedAt (s : State) (p : Phys) : Bool := s.mem.poison.contains (p.key / 64)
/-- The tag of the granule at a place. -/
def tagAt (s : State) (p : Phys) : Bool := !p.host && s.mem.tags.contains (p.key / 16)
/-- n bytes at a place. -/
def bytesAt (s : State) (p : Phys) (n : Nat) : List Byte := getBytes s.mem.cells p.key n
/-- The number that n bytes at a place hold. -/
def valueAt (s : State) (p : Phys) (n : Nat) : Nat := fromBytes (s.bytesAt p n)

/-- The granules that n bytes from key k touch. -/
def granules (k n : Nat) : List Nat := (List.range ((k % 16 + n + 15) / 16)).map (k / 16 + ·)

/-- The HBM contents of a line are kept when its context first makes it dirty; a store clears its mark (R277, R278). -/
def makeDirty (s : State) (p : Phys) : State :=
  if p.host then s.sendHost p
  else
    let s1 := s.reach p
    let line := p.key / 64
    let h := match find s1.mem.dirty line with
      | some h => { h with mark := false }
      | none => s1.hbmLine line p.ctx
    s1.setMemory { s1.mem with dirty := put s1.mem.dirty line h }

/-- A store of bytes within one line that its memory channel lets in: the bytes, the tags of the granules touched (set
only for a whole granule stored with a tag), the poison of the line and its seal (R254, R303, R304). -/
def writeLine (s : State) (p : Phys) (bs : List Byte) (tag poi : Bool) : State :=
  let line := p.key / 64
  let s0 := s.makeDirty p
  let whole := bs.length = 64
  let bad := poi || (s0.poisonedAt p && !whole)
  let cells := setBytes s0.mem.cells p.key bs
  let cleared := s0.mem.tags.filter fun g => !(granules p.key bs.length).contains g
  let tags := if tag && !bad && !p.host then insertNat (p.key / 16) cleared else cleared
  s0.setMemory { s0.mem with
    cells,
    tags := if bad then tags.filter (· / 4 ≠ line) else tags,
    poison := if p.host then s0.mem.poison else setMem s0.mem.poison line bad,
    seals := if p.host then s0.mem.seals
      else put s0.mem.seals line p.stamp }

/-- A store within one line; one that its memory channel turns away is discarded and recorded (R24, R381). -/
def storeLine (s : State) (p : Phys) (bs : List Byte) (tag poi : Bool) : State :=
  match s.otherTenant p with
  | some x => s.raise (tenantRecord p x)
  | none => s.writeLine p bs tag poi

/-- The line of an access as its slice has it: filled where it was not held, its seal checked, an early eviction of a
marked line before (R278, R304, R395). -/
def lineReady (s : State) (p : Phys) (va : Word) (r : Record) : State := ((s.evictMarked p).reach p).checkLine p va r

/-- A store that does not cover its line reads it first, and so checks its seal (R304). -/
def store (s : State) (p : Phys) (bs : List Byte) (tag poi : Bool) (va : Word) (r : Record) : State :=
  let s1 := if bs.length = 64 || (s.otherTenant p).isSome then s else s.lineReady p va r
  s1.storeLine p bs tag poi

/-- A read of n bytes within one line: the bytes, the granule's tag (16-byte reads only), the poison,
and the state after seal checks and mark consumption (R254, R278, R304); poison where its memory channel turns it away
(R24, R381). -/
def loadLine (s : State) (p : Phys) (n : Nat) (va : Word) (r : Record) : List Byte × Bool × Bool × State :=
  match s.otherTenant p with
  | some x => (List.replicate n 0, false, true, s.raise (tenantRecord p x))
  | none =>
    let s1 := s.lineReady p va r
    (s1.bytesAt p n, n = 16 && s1.tagAt p, s1.poisonedAt p, s1.consumeMark p)

/-- The raiser's fields of a record of a port tile for a group (R382). -/
def portSource (port gh : Nat) : Record := { src := 3, place := port, group := wd gh }

/-- The raiser's fields of a record of a base die's unit (R382): 4 a walker, 5 admission or loader, 9 an engine. -/
def baseSource (src k gh : Nat) : Record := { src, place := basePlace k, group := wd gh }

end State

/-! ## Beacon buffers (R284-R286) -/

/-- n bytes of a beacon buffer. -/
def BeaconBuf.read (b : BeaconBuf) (o n : Nat) : List Byte := getBytes b.cells o n

/-- A row written into a beacon buffer: bytes, tags and poison (R281, R286). -/
def BeaconBuf.writeRow (b : BeaconBuf) (p : Payload) (fresh : Bool) : BeaconBuf :=
  let r := p.row
  { cells := setBytes b.cells (r * 64) p.bytes,
    tags := (List.range 4).foldl (fun l i => setMem l (r * 4 + i) (p.tags.getLsbD i && !p.poi)) b.tags,
    poison := setMem b.poison r p.poi,
    fresh := if fresh then insertNat r b.fresh else b.fresh }

/-- A Sieve tag clear in a beacon buffer (R282). -/
def BeaconBuf.clearTag (b : BeaconBuf) (granule : Nat) : BeaconBuf :=
  { b with tags := setMem b.tags granule false }

end Sys2Proof.Machine
end

