-- ==== Sys2Proof/Machine/Page.lean ====
section
/-! DEFINITION. Two-stage translation: entries, walks, access rules and translation caches (R363-R370,
R375). -/

namespace Sys2Proof.Machine

/-- What an access needs of the leaves (R367). -/
structure Need where
  r : Bool := false
  w : Bool := false
  x : Bool := false
deriving DecidableEq, Repr

/-- Needs of a load, a store, a fetch and an atomic (R367). -/
def Need.load : Need := { r := true }
/-- A store. -/
def Need.store : Need := { w := true }
/-- A fetch. -/
def Need.fetch : Need := { x := true }
/-- An atomic. -/
def Need.both : Need := { r := true, w := true }

/-- Why a translation fails (R366, R367, R369, R381 details). -/
inductive WalkCause where
  | notValid | misconfig | perm | cfgid | poison | unresolved | ats
deriving DecidableEq, Repr

/-- DETAIL of a page record (R381). -/
def WalkCause.code : WalkCause → Nat
  | .notValid => 1 | .misconfig => 2 | .perm => 3 | .cfgid => 4 | .poison => 5 | .unresolved => 6 | .ats => 7

/-- A failed translation (R370): the stage, the cause, the GPA or PCIe address, and WALK. -/
structure WalkFail where
  stage2 : Bool := false
  cause : WalkCause := .notValid
  aux : Nat := 0
  walk : Bool := false
deriving DecidableEq, Repr

/-- Who asks for a translation: its context, whether U = 0 pages are usable, the CFGID it is held to
(none: it ignores CID), the stack whose walkers serve it and at whose limiter a walk for it is charged, its port tile
(none: it asks at the base die), and whether it goes without a host frame's ATS translation (R150, R367, R369, R378,
R398). -/
structure Asker where
  ctx : Nat := 0
  high : Bool := false
  noAts : Bool := false
  cfgid : Option Nat := none
  stack : Nat := 0
  port : Option Nat := none
deriving DecidableEq, Repr

/-- Bit n of an entry. -/
def ebit (e : Word) (n : Nat) : Bool := bits e n 1 == 1
/-- The address field of an entry (R365). -/
def frameOf (e : Word) : Nat := bits e 12 36 * 2 ^ 12

/-- Where an asker's ATS translations are kept: its port tile, or its base die (R378). -/
def Asker.holder (k : Asker) : Nat := k.port.getD (State.basePlace k.stack)

/-- R366: an entry with V = 1 breaks a rule. `st2` tells the stage, `level` the level. -/
def misconfigured (st2 : Bool) (level : Nat) (e : Word) : Bool :=
  if ebit e 1 then
    level == 0 || bits e 48 16 != 0 || bits e 2 10 != 0
  else
    ebit e 60 ||
    (if st2 then bits e 48 12 != 0 || bits e 10 2 != 0 || ebit e 5 || 3 ≤ level
     else bits e 61 3 != 0 || 3 ≤ level) ||
    (ebit e 9 && level != 0) ||
    frameOf e % 2 ^ (if level = 0 then (if ebit e 9 then 16 else 12) else if level = 1 then 21 else 30) != 0

/-- log2 of a leaf's page size (R366). -/
def leafLog (level : Nat) (e : Word) : Nat :=
  if level = 0 then (if ebit e 9 then 16 else 12) else if level = 1 then 21 else 30

/-- The combined result of a stage-2 walk: address, home and what the leaf grants (R364, R367). -/
structure Leaf2 where
  pa : Nat := 0
  fix : Option Nat := none
  r : Bool := true
  w : Bool := true
  x : Bool := true
  cs : Bool := true
  log : Nat := 12
deriving DecidableEq, Repr

namespace State

/-- The interface bound to a context, as hardware asks it (R298). -/
def boundIface (s : State) (x : Nat) : Option Nat := (s.context x).iface

/-- A stage-2 frame keeps the limits of R363 and R364. -/
def frameLegal (s : State) (x : Nat) (fix : Option Nat) (pa : Nat) : Bool :=
  match fix with
  | some _ => pa < Config.stackBytes
  | none => if pa / 2 ^ 47 % 2 = 1 then (s.boundIface x).isSome else pa < Config.deviceBytes

/-- The storage of a physical address of a context (R363, R364). -/
def physOf (s : State) (x : Nat) (fix : Option Nat) (pa keyId : Nat) (cs : Bool) : Phys :=
  if pa / 2 ^ 47 % 2 = 1 then
    { key := hostKey ((s.boundIface x).getD 0) (pa % 2 ^ 47), pa, ctx := x, host := true }
  else
    { key := deviceKey fix pa, pa, ctx := x, owner := (s.context x).epoch, keyId, home := homeFix fix pa, cs }

/-- The function and host page that an access of context x to a host frame asks ATS for (R378). -/
def atsKey (s : State) (x pa : Nat) : Nat × Nat := ((s.boundIface x).getD 0, pa % 2 ^ 47 / 4096)

/-- ATS refuses a host frame whose translation the asker's port tile does not hold (R370, R378). -/
def atsStops (s : State) (k : Asker) (pa : Nat) : Bool :=
  pa / 2 ^ 47 % 2 = 1 && !s.atc.contains (k.holder, s.atsKey k.ctx pa) && s.atsRefused.contains (s.atsKey k.ctx pa)

/-- The ATS translation of a host frame is held at the asker's port tile once it is fetched (R378). -/
def atsFetch (s : State) (k : Asker) (pa : Nat) : State :=
  if pa / 2 ^ 47 % 2 = 1 && !s.atc.contains (k.holder, s.atsKey k.ctx pa) then
    { s with atc := s.atc ++ [(k.holder, s.atsKey k.ctx pa)] }
  else s

/-- The key under which a walker opens a table line: that of the stamp it bears, where its owner is the one whose table
it is; else key 0 (log 96). -/
def tableKey (s : State) (p : Phys) : Phys :=
  match find s.mem.seals (p.key / 64) with
  | some x => if x.owner = p.owner then { p with keyId := x.key } else p
  | none => p

/-- The table entry that a base die's walkers hold of a place (R369). -/
def heldEntry (s : State) (k : Nat) (st2 : Bool) (x key : Nat) : Option TableEntry :=
  (look [] s.walkers k).find? fun e => e.ctx == x && e.st2 == st2 && e.key == key

/-- A table entry that a walker has read is held by its base die (R369). -/
def holdEntry (s : State) (k : Nat) (e : TableEntry) : State :=
  { s with walkers := upd [] s.walkers k fun l =>
      (l.filter fun o => !(o.ctx == e.ctx && o.st2 == e.st2 && o.key == e.key)) ++ [e] }

/-- An entry read at the L2 slice of its line (R365, R369), with the state after the line's checks; none where it is
poisoned. -/
def entryAt (s : State) (k : Asker) (p : Phys) (va : Nat) : Option Word × State :=
  let r := s.loadLine (s.tableKey p) 8 (wd va) (baseSource 4 k.stack 0)
  (if r.2.2.1 then none else some (wd (fromBytes r.1)), r.2.2.2)

/-- A walker's read of an entry that serves the addresses of its stage from `lo` on, 2^log of them: one that its base
die still holds, or the entry in memory, which it then holds if it names a table (R369). -/
def readEntry (s : State) (k : Asker) (st2 : Bool) (p : Phys) (va lo log : Nat) : Option Word × State :=
  match s.heldEntry k.stack st2 k.ctx p.key with
  | some h => if Config.walkHeld p.key s.fresh then (some h.value, s.used) else s.used.entryAt k p va
  | none =>
    match s.entryAt k p va with
    | (some e, s1) =>
      (some e, if ebit e 0 && ebit e 1 then
        s1.holdEntry k.stack { ctx := k.ctx, st2, key := p.key, lo := roundDown lo log, log, value := e } else s1)
    | r => r

/-- An entry rewritten by the walker's compare-and-swap: A, and D for a store; its granule loses its tag (R254, R273,
R369). -/
def markEntry (s : State) (p : Phys) (e : Word) (d : Bool) : State :=
  let e2 := e ||| 0x40 ||| (if d then 0x80 else 0)
  if e2 = e then s
  else
    let s1 := s.makeDirty p
    s1.setMemory { s1.mem with cells := setBytes s1.mem.cells p.key (toBytes 8 e2.toNat),
                               tags := s1.mem.tags.filter (· ≠ p.key / 16) }

/-- The stage-2 walk from the given level down (R365, R366, R369), for the GPA of a stage-1 entry or of the access
(`walk`); what it fails with, and the state that it leaves (R370). -/
def walk2 (s : State) (k : Asker) (va gpa : Nat) (walk d : Bool) : Nat → Nat → Except (WalkFail × State) (Leaf2 × State)
  | level, table =>
    let fail := fun (c : WalkCause) (t : State) => Except.error (({ stage2 := true, cause := c, aux := gpa, walk } : WalkFail), t)
    let pa := table + gpa / 2 ^ (12 + 9 * level) % 512 * 8
    if s.atsStops k pa then .error ({ stage2 := true, cause := .ats, aux := pa % 2 ^ 47 }, s)
    else
      let p := { (s.atsFetch k pa).physOf k.ctx none pa 0 false with owner := 0 }
      match (s.atsFetch k pa).readEntry k true p va gpa (12 + 9 * level) with
      | (none, s1) => fail .poison s1
      | (some e, s1) =>
        if !ebit e 0 then fail .notValid s1
        else if misconfigured true level e then fail .misconfig s1
        else if ebit e 1 then
          match level with
          | 0 => fail .misconfig s1
          | n + 1 => walk2 s1 k va gpa walk d n (frameOf e)
        else
          let log := leafLog level e
          let fix := if ebit e 63 then some (bits e 61 2) else none
          let pa := frameOf e + gpa % 2 ^ log
          if !s1.frameLegal k.ctx fix pa then fail .misconfig s1
          else .ok ({ pa, fix, r := ebit e 2, w := ebit e 3, x := ebit e 4, cs := ebit e 8, log },
            s1.markEntry p e (d && ebit e 3))

/-- Stage 2 of a GPA (R368): with EN = 0 the PA is the GPA. -/
def stage2 (s : State) (k : Asker) (va gpa : Nat) (walk d : Bool) : Except (WalkFail × State) (Leaf2 × State) :=
  let root := look 0 s.s2root k.ctx
  if ebit root 0 then s.walk2 k va gpa walk d 3 (frameOf root)
  else if s.frameLegal k.ctx none gpa then .ok ({ pa := gpa }, s)
  else .error ({ stage2 := true, cause := .misconfig, aux := gpa, walk }, s)

/-- The stage-1 leaf a walk finds: its GPA, page size, grants, key and identity, where the entry stands
and its value. -/
structure Leaf1 where
  gpa : Nat := 0
  r : Bool := true
  w : Bool := true
  x : Bool := true
  u : Bool := true
  cs : Bool := true
  key : Nat := 0
  cid : Nat := 0
  log : Nat := 12
  entry : Option (Nat × Phys × Word) := none
deriving DecidableEq, Repr

/-- The storage of a stage-1 table entry: its GPA translated by stage 2, whose leaf must grant R, and W where the walker
writes it (R369, R370). -/
def tableAt (s : State) (k : Asker) (va ga : Nat) (d : Bool) : Except (WalkFail × State) (Phys × State) :=
  match s.stage2 k va ga true d with
  | .error f => .error f
  | .ok (l, s1) =>
    if !l.r || (d && !l.w) then .error ({ stage2 := true, cause := .perm, aux := ga, walk := true }, s1)
    else if s1.atsStops k l.pa then .error ({ stage2 := true, cause := .ats, aux := l.pa % 2 ^ 47 }, s1)
    else .ok ((s1.atsFetch k l.pa).physOf k.ctx l.fix l.pa 0 false, s1.atsFetch k l.pa)

/-- The stage-1 walk from the given level down: each entry's GPA is translated first (R369). -/
def walk1 (s : State) (k : Asker) (va : Nat) : Nat → Nat → Except (WalkFail × State) (Leaf1 × State)
  | level, table =>
    let ga := table + va / 2 ^ (12 + 9 * level) % 512 * 8
    match s.tableAt k va ga false with
    | .error f => .error f
    | .ok (p, s0) =>
      match s0.readEntry k false p va va (12 + 9 * level) with
      | (none, s1) => .error ({ cause := .poison }, s1)
      | (some e, s1) =>
        if !ebit e 0 then .error ({ cause := .notValid }, s1)
        else if misconfigured false level e then .error ({ cause := .misconfig }, s1)
        else if ebit e 1 then
          match level with
          | 0 => .error ({ cause := .misconfig }, s1)
          | n + 1 => walk1 s1 k va n (frameOf e)
        else
          let log := leafLog level e
          .ok ({ gpa := frameOf e + va % 2 ^ log, r := ebit e 2, w := ebit e 3, x := ebit e 4,
                 u := ebit e 5, cs := ebit e 8, key := bits e 10 2, cid := bits e 48 12, log,
                 entry := some (ga, p, e) }, s1)

/-- Stage 1 of a VA (R368): with EN = 0 the GPA is the VA, NOTVALID above 56 bits' low 48. -/
def stage1 (s : State) (k : Asker) (va : Nat) : Except (WalkFail × State) (Leaf1 × State) :=
  let root := look 0 s.s1root k.ctx
  if ebit root 0 then s.walk1 k va 4 (frameOf root)
  else if va / 2 ^ 48 = 0 then .ok ({ gpa := va }, s)
  else .error ({ cause := .notValid }, s)

/-- The A and D bits of the stage-1 leaf are set; the stage-2 leaf of its table must grant W (R369). -/
def markLeaf1 (s : State) (k : Asker) (va : Nat) (l : Leaf1) (d : Bool) : Except (WalkFail × State) State :=
  match l.entry with
  | none => .ok s
  | some (ga, p, e) =>
    if ebit e 6 && (!d || ebit e 7) then .ok s
    else match s.tableAt k va ga true with
      | .error f => .error f
      | .ok (_, s1) => .ok (s1.markEntry (s1.tableKey p) e d)

/-- A walk of both stages in the order of R367: the cached form of the translation, or why it fails; with either the
state that the walk leaves, its A and D bits set (R369). -/
def walk (s : State) (k : Asker) (va : Nat) (n : Need) : Except (WalkFail × State) (XEntry × State) :=
  match s.stage1 k va with
  | .error f => .error f
  | .ok (l1, s1) =>
    if (n.r && !l1.r) || (n.w && !l1.w) || (n.x && !l1.x) || (!l1.u && !k.high) then
      .error ({ cause := .perm }, s1)
    else if l1.cid ≠ 0 && (match k.cfgid with
        | some c => l1.cid != c % 4096
        | none => false) then .error ({ cause := .cfgid }, s1)
    else match s1.markLeaf1 k va l1 n.w with
      | .error f => .error f
      | .ok s2 =>
        match s2.stage2 k va l1.gpa false n.w with
        | .error f => .error f
        | .ok (l2, s3) =>
          if (n.r && !l2.r) || (n.w && !l2.w) || (n.x && !l2.x) then
            .error ({ stage2 := true, cause := .perm, aux := l1.gpa }, s3)
          else if s3.atsStops k l2.pa && !k.noAts then .error ({ stage2 := true, cause := .ats, aux := l2.pa % 2 ^ 47 }, s3)
          else
            let log := Nat.min l1.log l2.log
            .ok ({ ctx := k.ctx, va := roundDown va log, size := 2 ^ log, gpa := roundDown l1.gpa log,
                   log1 := l1.log, log2 := l2.log,
                   pa := roundDown l2.pa log, fix := l2.fix, r := l1.r && l2.r, w := l1.w && l2.w,
                   x := l1.x && l2.x, u := l1.u, cs := l1.cs && l2.cs, key := l1.key, cid := l1.cid,
                   d := n.w }, if k.noAts then s3 else s3.atsFetch k l2.pa)

end State

/-- Whether a cached translation covers the address and allows the access (R367). -/
def XEntry.serves (e : XEntry) (k : Asker) (va : Nat) (n : Need) : Bool :=
  e.ctx == k.ctx && e.va ≤ va && va < e.va + e.size && (!n.r || e.r) && (!n.w || (e.w && e.d)) &&
  (!n.x || e.x) && (e.u || k.high) &&
  (e.cid == 0 || match k.cfgid with
    | some c => e.cid == c % 4096
    | none => true)

/-- The storage a cached translation gives. -/
def State.physBy (s : State) (e : XEntry) (va : Nat) : Phys :=
  s.physOf e.ctx e.fix (e.pa + (va - e.va)) e.key e.cs

/-- The cached translation that serves an access; one of a host frame needs the frame's ATS translation (R378). -/
def State.cached (s : State) (cache : List XEntry) (k : Asker) (va : Nat) (n : Need) : Option XEntry :=
  cache.find? fun e => e.serves k va n &&
    (k.noAts || e.pa / 2 ^ 47 % 2 = 0 || s.atc.contains (k.holder, s.atsKey e.ctx (e.pa + (va - e.va))))

/-- A walk charged at its limiter, whether it fails or not (R369, R398). -/
def State.chargedWalk (s : State) (k : Asker) (va : Nat) (n : Need) : Except (WalkFail × State) (XEntry × State) :=
  match s.walk k va n with
  | .error (f, s1) => .error (f, s1.chargeWalk k.ctx k.stack)
  | .ok (e, s1) => .ok (e, s1.chargeWalk k.ctx k.stack)

/-- A translation through a cache of `cap` entries: a hit, or a walk whose result is cached, the oldest
entry leaving a full cache (R150, R223; no failed translation is cached, R421). -/
def State.translate (s : State) (cache : List XEntry) (cap : Nat) (k : Asker) (va : Nat) (n : Need) :
    Except (WalkFail × State) (Phys × List XEntry × State) :=
  match s.cached cache k va n with
  | some e => .ok (s.physBy e va, cache, s)
  | none =>
    match s.chargedWalk k va n with
    | .error f => .error f
    | .ok (e, s1) =>
      let kept := cache.filter fun o => !(o.ctx == e.ctx && o.va == e.va)
      .ok (s1.physBy e va, (kept ++ [e]).drop (kept.length + 1 - cap), s1)

/-- What a TLBINV names: context, stage, ALL, or the page, which the leaf of its stage covers (R375). -/
def XEntry.dropped (e : XEntry) (i : Inval) : Bool :=
  e.ctx == i.ctx && (i.all ||
    if i.st2 then e.gpa / 2 ^ e.log2 == i.page % 2 ^ 36 * 4096 / 2 ^ e.log2
    else e.va / 2 ^ e.log1 == i.page * 4096 / 2 ^ e.log1)

/-- Whether a TLBINV drops a table entry that a base die holds (R375). -/
def TableEntry.dropped (e : TableEntry) (i : Inval) : Bool :=
  e.ctx == i.ctx && (i.st2 || (!e.st2 && (i.all || e.lo / 2 ^ e.log == i.page * 4096 / 2 ^ e.log)))

/-- The record of a failed translation (R370, R381, R382); `r` gives the raiser's fields. -/
def pageRecord (r : Record) (va : Word) (f : WalkFail) : Record :=
  if f.stage2 then
    { r with cause := 3, detail := f.cause.code, addr := va, aux := wd f.aux, walk := f.walk, toH := true,
             src := 4, slot := 255, place := State.basePlace (r.place / 512), lanes := 0, waits := true }
  else { r with cause := 2, detail := f.cause.code, addr := va, aux := 0, waits := true }

end Sys2Proof.Machine
end

