-- ==== Sys2Proof/Machine/Access.lean ====
section
/-! DEFINITION. Accesses by capability: unpaged windows, the revocation filter, request counting, and
the helm threads' loads and stores (R223, R252-R260, R285, R380, R424). -/

namespace Sys2Proof.Machine

/-- CapCheck with a further ground for PERM: an unpaged range the access may not touch (R257, R285). -/
def capCheckX (low : Bool) (c : Cap) (a : Word) (size perms : Nat) (denied : Bool) : Option CapFault :=
  if !c.tag then some .tag
  else if c.sealType ≠ 0 then some .seal
  else if (low && c.has permSystem) || !c.has perms || denied then some .perm
  else if !c.inBounds a size then some .bounds
  else none

/-- Two ranges of integers share a member. -/
def overlap (a n b m : Nat) : Bool := a < b + m && b < a + n && 0 < n && 0 < m

namespace State

/-- Whether a range touches the context's Sieve block (R257). -/
def touchesSieve (s : State) (x va size : Nat) : Bool :=
  overlap va size ((s.context x).roottab + 256) 256

/-- Whether a range touches the context's beacon window (R284, R285). -/
def touchesWindow (s : State) (x va size : Nat) : Bool :=
  overlap va size (s.context x).bwbase (s.context x).bwlen

/-- The buffer byte of a window address (R284). -/
def windowByte (s : State) (x va : Nat) : Nat := (s.context x).bwoff + (va - (s.context x).bwbase)

/-- What forbids an access beside its capability: the Sieve block without SYSTEM, a beacon window to
anything but a load (R257, R285). -/
def denied (s : State) (x : Nat) (c : Cap) (a : Word) (size : Nat) (store : Bool) : Bool :=
  (s.touchesSieve x (bits a 0 57) size && !c.has permSystem) ||
  (store && s.touchesWindow x (bits a 0 57) size)

/-- A context's revocation check is on (R260). -/
def checkOn (s : State) (x : Nat) : Bool :=
  let v := (s.context x).sieve.st
  v == 1 || v == 2

/-- A byte of a revocation map as the Sieve or the filter on stack k reads it, and the state that the read leaves: 0 in the
Sieve block, which only LDC.n64 reads, and where its walk fails; of a poisoned line a free value (R257, R259, R260, R304,
R369; log 30). -/
def mapLoad (s : State) (x k : Nat) (r : Record) (va : Nat) : Nat × State :=
  if s.touchesSieve x va 1 then (0, s)
  else match s.chargedWalk { ctx := x, stack := k } va Need.load with
  | .ok (e, s1) =>
    let l := s1.loadLine (s1.physBy e va) 1 (wd va) r
    (if l.2.2.1 then (Config.poisonedMap va).toNat else fromBytes l.1, l.2.2.2)
  | .error (_, s1) => (0, s1)

/-- A byte of a context's revocation map (R256, R259). -/
def mapByte (s : State) (x va : Nat) : Nat := (s.mapLoad x 0 {} va).1

/-- The map bytes that tell whether a capability is revoked: of the heaps of the sweep that hold its base (R256). -/
def mapPlaces (s : State) (x : Nat) (c : Cap) : List Nat :=
  ((s.context x).sieve.heaps.filter fun h => h.1 ≤ c.base && c.base < h.1 + h.2.1).map fun h => h.2.2 + (c.base - h.1) / 128

/-- What the reads of the map for a capability leave, where the context's check is on: lines filled and their seals
checked, A bits set, walks charged (R260, R304, R369). -/
def filterReads (s : State) (x k : Nat) (r : Record) (c : Cap) : State :=
  if s.checkOn x then (s.mapPlaces x c).foldl (fun (a : State) va => (a.mapLoad x k r va).2) s else s

/-- A capability is revoked: its decoded base lies in a heap of the sweep and the map bit of that
granule is 1 (R256, R258). -/
def revoked (s : State) (x : Nat) (c : Cap) : Bool :=
  (s.context x).sieve.heaps.any fun h =>
    h.1 ≤ c.base && c.base < h.1 + h.2.1 &&
      bit (s.mapByte x (h.2.2 + (c.base - h.1) / 16 / 8)) ((c.base - h.1) / 16 % 8)

/-- The revocation filter on the capability that authorises a request (R260). -/
def filtered (s : State) (x : Nat) (c : Cap) : Bool := s.checkOn x && s.revoked x c

/-- The tag of a granule read or written under the revocation filter (R260). -/
def filterTag (s : State) (x : Nat) (tag : Bool) (hi lo : Word) : Bool :=
  tag && !(s.checkOn x && s.revoked x { hi, lo, tag := true })

/-- A capability from 16 bytes, high doubleword above (R241). -/
def capOfBytes (bs : List Byte) (tag : Bool) : Cap :=
  { lo := wd (fromBytes (bs.take 8)), hi := wd (fromBytes (bs.drop 8)), tag }

/-- The 16 bytes of a capability (R241). -/
def capBytes (c : Cap) : List Byte := toBytes 8 c.lo.toNat ++ toBytes 8 c.hi.toNat

/-- The REVOKED record of a request (R260, R381). -/
def revokedRecord (x port gh detail : Nat) (va : Word) (c : Cap) (engine : Bool) : Record :=
  { cause := 5, detail, src := if engine then 9 else 3, place := port, ctx := some x, addr := va,
    aux := wd c.base, group := wd gh }

/-- The port tile of a group's stream port q for tile p: one per layer and port (R342). -/
def portTile (s : State) (gh p q : Nat) : Nat := look 0 (s.group gh).ports (layerOfTile p * 16 + q)

/-- A link carries traffic (R412): ACTIVE or DEGRADED. -/
def linkOpen (s : State) (n : Nat) : Bool := (s.link n).st == 2 || (s.link n).st == 3

/-- An edge between two stacks carries traffic: one of its eight modules does (R414). -/
def edgeOpen (s : State) (a b : Nat) : Bool :=
  (List.range 8).any fun m =>
    s.linkOpen (32 + 8 * (if a + b = 1 then 0 else if a + b = 2 then 1 else if a + b = 4 then 2 else 3) + m)

/-- The UCIe path from stack k to stack j carries traffic: first its edge in x, then that in y (R22, R414). -/
def pathOpen (s : State) (k j : Nat) : Bool :=
  let corner := j % 2 + k / 2 * 2
  (k % 2 = j % 2 || s.edgeOpen k corner) && (k / 2 = j / 2 || s.edgeOpen corner j)

/-- A request to a place may leave its limiter on stack k, its interface lets it go, and the path to its home carries
traffic (R22, R398, R405, R414). -/
def mayIssue (s : State) (k : Nat) (p : Phys) : Bool :=
  !s.limited p.ctx k && (if p.host then s.hostOpen p.ctx else s.pathOpen k p.home)

/-- A port tile that a group's Chart names is ready (R429). -/
def portUp (s : State) (gh port : Nat) : Bool :=
  !((s.group gh).ports.any fun e => e.2 = port) || (s.layer (layerOfTile port)).ports.contains port

/-- A request of a group may leave its port tile on stack k for a place: the port tile is ready, and the request may be issued
(R398, R405, R414, R429). -/
def leavesPort (s : State) (gh port k : Nat) (p : Phys) : Bool := s.portUp gh port && s.mayIssue k p

/-- A 64-byte data request charged at its limiter and counted at its port tile and stacks (R380, R398). -/
def countRequest (s0 : State) (port : Nat) (p : Phys) : State :=
  let s := s0.charge p.ctx (stackOfTile port)
  if p.host then s
  else
    let k := stackOfTile port
    let near := p.home = k
    let (l, r) := look (0, 0) s.mcPort port
    let s1 := { s with mcPort := put s.mcPort port (if near then (l + 1, r) else (l, r + 1)) }
    let (sl, so, si) := look ((0, 0, 0) : BitVec 32 × BitVec 32 × BitVec 32) s1.mcStack k
    if near then { s1 with mcStack := put s1.mcStack k (sl + 1, so, si) }
    else
      let s2 := { s1 with mcStack := put s1.mcStack k (sl, so + 1, si) }
      let (hl, ho, hi) := look ((0, 0, 0) : BitVec 32 × BitVec 32 × BitVec 32) s2.mcStack p.home
      { s2 with mcStack := put s2.mcStack p.home (hl, ho, hi + 1) }

/-! ## The port tiles' L1s (R265, R266, R423; log 31) -/

/-- The group's L1s are fused (R266): FUSEL1, bit 0 of FLAGS, byte 61 of its launch record (R312). -/
def fused (s : State) (gh : Nat) : Bool := (s.group gh).launch.getLsbD 488

/-- The port tile whose L1 an access of a group to a place uses: that of its stream port, or the slice of the fused L1
of its layer that the physical address selects (R266, R342, R423). -/
def slicePort (s : State) (gh port : Nat) (p : Phys) : Nat :=
  let ts := ((s.group gh).ports.map (·.2)).eraseDups.filter fun t => layerOfTile t = layerOfTile port
  if s.fused gh then ts.getD (Config.fusedSlice (p.key / 64) % ts.length) port else port

/-- Where a line of a port tile's L1 is kept. -/
def l1Key (port : Nat) (p : Phys) : Nat := p.key / 64 * 2048 + port

/-- The L1 line that may serve a load: of the requesting context and of its present generation there (R265). -/
def l1At (s : State) (port : Nat) (p : Phys) : Option L1Line :=
  (find s.l1 (l1Key port p)).filter fun l => l.ctx = p.ctx && l.gen = look 0 s.l1gen (port * 128 + p.ctx) && !p.host

/-- The L1 serves a load of a place: it has the line, and still holds it (log 31). -/
def l1Serves (s : State) (port : Nat) (p : Phys) : Bool :=
  (s.l1At port p).isSome && Config.l1Held (p.key / 64) s.fresh

/-- A full L1 gives one of its 4,096 lines up (R23). -/
def makeRoom (s : State) (port : Nat) : State :=
  let mine := (s.l1.map (·.1)).filter fun k => k % 2048 = port
  if mine.length < 4096 then s
  else { s with l1 := del s.l1 (mine.getD (Config.l1Victim s.fresh % mine.length) 0) }.used

/-- A line filled from its L2 slice (R265). -/
def fillL1 (s : State) (port : Nat) (p : Phys) : State :=
  let h := s.hbmLine (p.key / 64) p.ctx
  let s1 := if (find s.l1 (l1Key port p)).isSome then s else s.makeRoom port
  let l : L1Line :=
    { ctx := p.ctx, gen := look 0 s.l1gen (port * 128 + p.ctx), bytes := h.bytes, tags := h.tags, poi := h.poi }
  { s1 with l1 := put s1.l1 (l1Key port p) l }

/-- A load sent to the memory path fills the L1, but for host memory, a line its read consumes, and one that its memory
channel turns away (R24, R265, R278). -/
def fillLoad (s : State) (port : Nat) (p : Phys) (n : Nat) (va : Word) (gh : Nat) : List Byte × Bool × Bool × State :=
  let r := (s.countRequest port p).loadLine p n va (portSource port gh)
  let consumed := (s.otherTenant p).isSome || match find s.mem.dirty (p.key / 64) with
    | some h => h.mark
    | none => false
  (r.1, r.2.1, r.2.2.1, if p.host || consumed then r.2.2.2 else r.2.2.2.fillL1 port p)

/-- A load through a port tile: served by its L1, or by the memory path (R265, R423). -/
def portLoad (s : State) (port : Nat) (p : Phys) (n : Nat) (va : Word) (gh : Nat) : List Byte × Bool × Bool × State :=
  match s.l1At port p with
  | none => s.fillLoad port p n va gh
  | some l =>
    let o := p.key % 64
    if Config.l1Held (p.key / 64) s.fresh then ((l.bytes.drop o).take n, n = 16 && l.tags.getLsbD (o / 16), l.poi, s.used)
    else s.used.fillLoad port p n va gh

/-- What a store leaves of the copy in its port tile's L1: the bytes written, or nothing of a copy that is no longer of
the present generation (R265, R269; log 31). -/
def updateL1 (s : State) (port : Nat) (p : Phys) (bs : List Byte) : State :=
  match find s.l1 (l1Key port p) with
  | none => s
  | some l =>
    if l.ctx ≠ p.ctx then s
    else if (s.l1At port p).isNone then { s with l1 := del s.l1 (l1Key port p) }
    else
      let h := s.hbmLine (p.key / 64) p.ctx
      let o := p.key % 64
      let gs := (granules p.key bs.length).map (· % 4)
      let l1 : L1Line := { l with
        bytes := l.bytes.take o ++ bs ++ l.bytes.drop (o + bs.length)
        tags := BitVec.ofNat 4 (((List.range 4).map fun i =>
          if (if gs.contains i then h.tags else l.tags).getLsbD i then 2 ^ i else 0).sum)
        poi := h.poi || (l.poi && bs.length ≠ 64) }
      { s with l1 := put s.l1 (l1Key port p) l1 }

/-- A store through a port tile is sent on to the L2 slice and updates the L1's copy (R265, R423). -/
def portStore (s : State) (port : Nat) (p : Phys) (bs : List Byte) (tag poi : Bool) (va : Word) (gh : Nat) : State :=
  ((s.countRequest port p).store p bs tag poi va (portSource port gh)).updateL1 port p bs

/-- An atomic, performed at the L2 slice, leaves no copy of its line in its port tile's L1 (R264, R271). -/
def dropL1 (s : State) (port : Nat) (p : Phys) : State := { s with l1 := del s.l1 (l1Key port p) }

/-! ## Helm threads -/

/-- The port tile a helm thread's accesses use (R224). -/
def helmPort (s : State) (t : Nat) : Nat := s.portTile (s.handleOf (ptidOf t)) (ptidOf t) 0

/-- Who a helm thread's translations are for (R367). -/
def helmAsker (s : State) (t : Nat) : Asker :=
  { ctx := s.ctxOf t, high := (s.thread t).priv != 0,
    cfgid := some (s.group (s.handleOf (ptidOf t))).image.cfgid, stack := stackOf t, port := some (s.helmPort t) }

/-- The trap of a thread whose page fault was answered ABORT or declared unresolvable, at the address that
faulted (R220, R223). -/
def trapPage (s : State) (stage : Nat) (va : Word) : State :=
  (s.setTh { s.th with pageAbort := none }).trap 4 stage va

/-- A page fault of the acting thread: its record is raised and the thread waits; no yield check
(R213, R220, R223, R370). -/
def pageFault (s : State) (va : Word) (f : WalkFail) : State :=
  (s.raise (pageRecord (s.helmRecord s.cur 2 0 va 0) va f)).block .access false

/-- The translation of the acting tile thread's access by its unit's cache of 16; an error is the state
in which the thread has trapped or waits (R220, R223). -/
def helmTranslate (s : State) (a : Word) (n : Need) : Except State (Phys × State) :=
  match s.th.pageAbort with
  | some f => .error (s.trapPage f.1 f.2)
  | none =>
    let p := ptidOf s.cur
    let u := unitOf s.cur
    match s.translate (s.unit p u).cache 16 (s.helmAsker s.cur) (bits a 0 57) n with
    | .error (f, s1) => .error (s1.pageFault a f)
    | .ok (ph, cache, s1) => .ok (ph, s1.setUnit p u { s1.unit p u with cache })

/-- Where a control core's access goes (R424): memory, a register, or nowhere. -/
inductive FirmwarePlace where
  | memory (p : Phys)
  | register (offset : Nat)
  | nowhere
deriving DecidableEq, Repr

/-- The firmware space (R424). -/
def firmwarePlace (a : Word) : FirmwarePlace :=
  if a.toNat < Config.deviceBytes then .memory (firmwarePhys a.toNat)
  else if 0x0080000000000000 ≤ a.toNat && a.toNat < 0x0080000001000000 then
    .register (a.toNat - 0x0080000000000000)
  else .nowhere

/-- What a load answers. -/
structure Loaded where
  bytes : List Byte := []
  tag : Bool := false
  poi : Bool := false
deriving DecidableEq, Repr

/-- A load of n bytes from the beacon buffer of a layer (R285). -/
def beaconLoad (s : State) (x l va n : Nat) : Loaded :=
  let o := s.windowByte x va
  let b := (s.layer l).buf
  { bytes := b.read o n, tag := n = 16 && b.tags.contains (o / 16), poi := b.poison.contains (o / 64) }

/-- The acting thread's request waits for its interface, for a link of its path, or at its limiter (R398, R405,
R414). -/
def holdHelm (s : State) (p : Phys) : State :=
  if p.host && !s.hostOpen p.ctx then s.block .host false
  else if s.onCore || !p.host && !s.pathOpen (stackOf s.cur) p.home then s.block (.edge (stackOf s.cur) p.home) false
  else s.block (.limiter (s.context p.ctx).part (stackOf s.cur)) false

/-- A load through a revoked capability: its record, and the trap (R260). -/
def revokedLoad (s : State) (port : Nat) (a : Word) (c : Cap) : State :=
  ((s.filterReads s.ctx (stackOf s.cur) (portSource port s.curGroup) c).raise
    (revokedRecord s.ctx port s.curGroup 1 a c false)).trapCap .tag a

/-- A load of a tile thread from its layer's beacon buffer, under the revocation filter (R252, R260, R285). -/
def helmWindow (s : State) (c : Cap) (a : Word) (n : Nat) : Except State (Loaded × State) :=
  let l := layerOfTile (ptidOf s.cur)
  if (s.layer l).bstate = 2 then .error (s.block (.refill l) false)
  else if s.filtered s.ctx c then .error (s.revokedLoad (s.helmPort s.cur) a c)
  else
    let b := s.beaconLoad s.ctx l (bits a 0 57) n
    let k := capOfBytes b.bytes true
    .ok ({ b with tag := s.filterTag s.ctx b.tag k.hi k.lo },
      s.filterReads s.ctx (stackOf s.cur) (portSource (s.helmPort s.cur) s.curGroup) c)

/-- A translated load of a tile thread, with the revocation filter and its trap (R223, R260). -/
def helmLoadAt (s : State) (c : Cap) (a : Word) (n : Nat) (ph : Phys) : Except State (Loaded × State) :=
  let x := s.ctx
  let port := s.slicePort s.curGroup (s.helmPort s.cur) ph
  if s.filtered x c then .error (s.revokedLoad port a c)
  else if !s.l1Serves port ph && !s.leavesPort s.curGroup port (stackOf s.cur) ph then .error (s.holdHelm ph)
  else
    let (bs, tag, poi, s2) :=
      (s.filterReads x (stackOf s.cur) (portSource port s.curGroup) c).portLoad port ph n a s.curGroup
    let k := capOfBytes bs tag
    .ok ({ bytes := bs, tag := s2.filterTag x tag k.hi k.lo, poi }, s2)

/-- A load by the acting thread, after its capability check: the bytes, or the state in which it trapped or waits.
Of a register or of the Sieve block it loads zero: only LDC.n64 reads those (R223, R257, R285, R424). -/
def helmLoad (s : State) (c : Cap) (a : Word) (n : Nat) (need : Need) : Except State (Loaded × State) :=
  if s.onCore then
    match firmwarePlace a with
    | .memory p =>
      if !s.pathOpen (stackOf s.cur) p.home then .error (s.holdHelm p)
      else
        let (bs, tag, poi, s1) := s.loadLine p n a {}
        .ok ({ bytes := bs, tag, poi }, s1)
    | .register _ => .ok ({ bytes := List.replicate n 0 }, s)
    | .nowhere => .error (s.trap 4 1 a)
  else if s.touchesSieve s.ctx (bits a 0 57) n then .ok ({ bytes := List.replicate n 0 }, s)
  else if s.touchesWindow s.ctx (bits a 0 57) n then s.helmWindow c a n
  else
    match s.helmTranslate a need with
    | .error t => .error t
    | .ok (ph, s1) => s1.helmLoadAt c a n ph

/-- A translated store of a tile thread: under the revocation filter it is discarded and recorded, or
its tag is cleared (R254, R260). -/
def helmStoreAt (s : State) (c : Cap) (a : Word) (bs : List Byte) (tag : Bool) (ph : Phys) : State :=
  let x := s.ctx
  let port := s.slicePort s.curGroup (s.helmPort s.cur) ph
  let s1 := s.filterReads x (stackOf s.cur) (portSource port s.curGroup) c
  if s.filtered x c then s1.raise (revokedRecord x port s.curGroup 2 a c false)
  else
    let k := capOfBytes bs tag
    s1.portStore port ph bs (s.filterTag x (tag && ph.cs) k.hi k.lo) false a s.curGroup

/-- A store by the acting thread, after its capability check; to a register or the Sieve block it is discarded:
only STC.n64 writes those (R223, R252, R257, R424). -/
def helmStore (s : State) (c : Cap) (a : Word) (bs : List Byte) (tag : Bool) : Except State State :=
  if s.onCore then
    match firmwarePlace a with
    | .memory p =>
      if !s.pathOpen (stackOf s.cur) p.home then .error (s.holdHelm p) else .ok (s.store p bs tag false a {})
    | .register _ => .ok s
    | .nowhere => .error (s.trap 4 1 a)
  else if s.touchesSieve s.ctx (bits a 0 57) bs.length then .ok s
  else
    match s.helmTranslate a Need.store with
    | .error t => .error t
    | .ok (ph, s1) =>
      if !s1.leavesPort s1.curGroup (s1.slicePort s1.curGroup (s1.helmPort s1.cur) ph) (stackOf s1.cur) ph then .error (s1.holdHelm ph)
      else .ok (s1.helmStoreAt c a bs tag ph)

/-- A control core's access to the register range (R424). -/
def inRegisters (a : Word) : Bool := 0x0080000000000000 ≤ a.toNat && a.toNat < 0x0080000001000000

/-- The first failing cause of a helm access: CapCheck with the unpaged ranges and the register range, then
alignment (R223, R225, R252, R424). -/
def accessFault (s : State) (c : Cap) (a : Word) (size perms n : Nat) (store : Bool) :
    Option CapFault :=
  match capCheckX s.low c a size perms
      (if s.onCore then inRegisters a && !c.has permSystem else s.denied s.ctx c a size store) with
  | some f => some f
  | none => if a.toNat % n = 0 then none else some .align

/-- The first failing cause of a data access: in the Sieve block no alignment is asked (R257). -/
def dataFault (s : State) (c : Cap) (a : Word) (size perms n : Nat) (store : Bool) : Option CapFault :=
  match s.accessFault c a size perms n store with
  | some .align => if !s.onCore && s.touchesSieve s.ctx (bits a 0 57) size then none else some .align
  | f => f

end State
end Sys2Proof.Machine
end

