-- ==== Sys2Proof/Machine/Fault.lean ====
section
/-! DEFINITION. Fault records: their layout, the context queues, the device manager's ring, responses
and actions (R381-R391). -/

namespace Sys2Proof.Machine

/-- FLAGS (R382). -/
def Record.flags (r : Record) : Nat := b2n r.walk + 2 * b2n r.redirect

/-- The counters I0 to I5, 24 bits each (R382). -/
def packIdx : List Nat → Nat
  | [] => 0
  | i :: t => i % 2 ^ 24 + 2 ^ 24 * packIdx t

/-- A record's 64 bytes (R382). -/
def Record.encode (r : Record) (drop : Nat) : List Byte :=
  toBytes 8 (r.cause + r.detail * 2 ^ 8 + r.src * 2 ^ 16 + r.flags * 2 ^ 24 + r.place * 2 ^ 32 +
    r.slot * 2 ^ 48 + (match r.ctx with
      | some x => (128 + x % 128) * 2 ^ 56
      | none => 0)) ++
  toBytes 8 r.addr.toNat ++ toBytes 8 r.aux.toNat ++ toBytes 8 r.lanes.toNat ++
  toBytes 18 (packIdx r.idx) ++ toBytes 2 (Nat.min drop 65535) ++ toBytes 4 r.seq ++ toBytes 8 r.group.toNat

/-- The actions a record's cause allows (R381); the numbers of R386 and R388. -/
def actionsOf (cause : Nat) : List Nat :=
  if cause = 1 then [1, 2, 3] else if cause = 2 || cause = 4 then [1, 3]
  else if cause = 3 then [1, 5, 6] else [0]

/-- The next value of a 32-bit record counter: it counts from 1 and skips 0 (R383, R388). -/
def nextSeq (n : BitVec 32) : BitVec 32 := if n + 1 = 0 then 1 else n + 1

/-- The context fault queue is enabled (R383). -/
def FaultQ.enabled (q : FaultQ) : Bool :=
  4 ≤ q.log2n && q.log2n ≤ 12 && 192 ≤ q.nch && q.nch ≤ 255

/-- The lowest free slot of 2^n (R384). -/
def freeSlot (slots : Table Record) (n : Nat) : Option Nat :=
  (List.range (slots.length + 1)).find? fun i => i < 2 ^ n && (find slots i).isNone

/-- IF_CTL as the hardware takes it: the snapshot while CONFIG_LOCKED or RUN (R14, R404). -/
def Iface.force (y : Iface) : BitVec 4 := if y.st = 1 || y.st = 2 then y.snapCtl else y.ctl

namespace State

/-- A message of a virtual function or, as 64, of the physical function: sent, pended or dropped by its
interface's state, MSIEN and mask (R402, R404, R405). -/
def sendMsix (s : State) (f v : Nat) : State :=
  if 64 ≤ f then { s with msix := s.msix ++ [(f, v, false)] }
  else
    let y := s.iface f
    let en := y.force.getLsbD 2
    let masked := (look 0x100000000 y.msiTab (2 * v + 1)).getLsbD 32
    if y.st = 3 || !en then s
    else if y.st = 1 || masked then s.setIface f { y with msiPend := insertNat v y.msiPend }
    else { s with msix := s.msix ++ [(f, v, y.st == 2)] }

/-- The state without a raised record. -/
def dropRaised (s : State) (id : Nat) : State := { s with raised := s.raised.filter (·.id ≠ id) }

/-- A record written to the H ring, dropped, or left RAISED (R384, R388). -/
def writeH (s : State) (r : Record) : State :=
  let g := s.ring
  match if g.en && 4 ≤ g.log2n && g.log2n ≤ 12 then freeSlot g.slots g.log2n else none with
  | some i =>
    let seq := nextSeq g.seq
    let r2 := { r with seq := seq.toNat }
    let s1 := s.storeLine (firmwarePhys (g.table + 64 * i)) (r2.encode g.dropNow) false false
    let s2 := ({ s1 with ring := { g with seq, dropNow := 0, slots := put g.slots i r2 } } : State).sendMsix 64 0
    (s2.dropRaised r.id).sendHeld (.core 192) (wd (seq.toNat * 2 ^ 32 + i))
  | none =>
    if r.waits then s
    else
      let up := fun n => Nat.min (n + 1) 65535
      { s.dropRaised r.id with ring := { g with drops := up g.drops, dropNow := up g.dropNow } }

/-- Where the 64 bytes of a context's record go, if its translation and its line allow the write, and the state that the
walk leaves (R367, R385). -/
def recordPlace (s : State) (x va k : Nat) : Option Phys × State :=
  match s.chargedWalk { ctx := x, stack := k } va Need.store with
  | .error (_, s1) => (none, s1)
  | .ok (e, s1) => let p := s1.physBy e va; (if s1.poisonedAt p then none else some p, s1)

/-- A record redirected to H (R381, R385). -/
def redirect (s : State) (r : Record) : State :=
  let r2 := { r with redirect := true, toH := true }
  ({ s with raised := s.raised.map fun (o : Record) => if o.id = r.id then r2 else o }).writeH r2

/-- A record written to slot i of its context's queue, then its notice and its message (R384). -/
def writeSlot (s : State) (x : Nat) (r : Record) (i : Nat) (p : Phys) : State :=
  let q := (s.context x).fq
  let seq := nextSeq q.seq
  let r2 := { r with seq := seq.toNat }
  let s2 := s.storeLine p (r2.encode q.drop) false false
  let s3 := (s2.dropRaised r.id).setContext x
    { s2.context x with fq := { q with seq, drop := 0, slots := put q.slots i r2 } }
  let s4 := s3.sendHeld (.package x q.nch) (wd (seq.toNat * 2 ^ 32 + i))
  match q.host, (s.context x).iface with
  | true, some f => s4.sendMsix f 16
  | _, _ => s4

/-- A record written to its context's queue, redirected, dropped, or left RAISED (R384, R385); one whose slot is a host
frame waits while the interface lets no request go (R405). -/
def writeContext (s : State) (x : Nat) (r : Record) : State :=
  let q := (s.context x).fq
  if !q.enabled then s.redirect r
  else match freeSlot q.slots q.log2n with
    | none =>
      if r.waits then s
      else (s.dropRaised r.id).setContext x { s.context x with fq := { q with drop := Nat.min (q.drop + 1) 65535 } }
    | some i =>
      match s.recordPlace x (q.base + 64 * i) (r.place / 512) with
      | (none, s1) => s1.redirect r
      | (some p, s1) => if p.host && !s.hostOpen x then s1.postOnce (.evFaultRecordWrite r.id) else s1.writeSlot x r i p

/-- A raised record goes to its destination (R381, R384). -/
def writeRecord (s : State) (r : Record) : State :=
  match r.ctx with
  | some x => if r.toH then s.writeH r else s.writeContext x r
  | none => s.writeH r

/-- Two records have one destination (R381). -/
def sameDest (a b : Record) : Bool :=
  let toRing := fun (r : Record) => r.toH || r.ctx.isNone
  toRing a == toRing b && (toRing a || a.ctx == b.ctx)

/-- Where a record stands among those that are written: by the fc in which it arose, then its PLACE and SLOT (R389); a
CTXERROR record that another record led to stands behind those of its fc (R390). -/
def recordRank (r : Record) : Nat :=
  r.arose * 2 ^ 20 + b2n (r.cause == 0x11 && r.detail != 0) * 2 ^ 19 + r.place * 2 ^ 8 + r.slot

/-- One record stands before another or beside it (R389). -/
def recordBefore (a b : Record) : Bool := recordRank a ≤ recordRank b

/-- A raised record is written once those of its destination that arose before it have taken what slots are free (R389). -/
def writeInOrder (s : State) (r : Record) : State :=
  let before := s.raised.filter fun o => sameDest o r && recordBefore o r && o.id ≠ r.id && (!recordBefore r o || o.id < r.id)
  (sortBy recordBefore before ++ [r]).foldl (fun (a : State) o =>
    if a.raised.any (·.id = o.id) then a.writeRecord o else a) s

/-! ## Responses -/

/-- The groups whose responses wait: CUT, MOVING, EVICTED and FROZEN ones (R387). -/
def actionHeld (s : State) (gh : Nat) : Bool :=
  match find s.groups gh with
  | none => false
  | some g => g.st = .cut || g.st = .moving || g.st = .evicted || g.st = .frozen

/-- A generator's stop answered with an action; it applies it when its region next comes to it (R147). -/
def answerGen (s : State) (p n act : Nat) : State :=
  let x := s.slot p n
  match x.run.stop with
  | none => s
  | some g =>
    (s.setSlot p n { x with run := { x.run with stop := some { g with action := some act } } }).post
      (.evRegionFire (s.handleOf p) x.region)

/-- A thread's page fault or trap answered (R223, R387): its access begins again; a TRAPPED one is READY at its saved
address with INTRAP 0; ABORT halts a TRAPPED one, and makes the other trap. -/
def answerThread (s : State) (t cause act stage : Nat) (addr : Word) : State :=
  let x := s.thread t
  if cause = 4 then
    if x.st ≠ .trapped then s
    else if act = 1 then
      s.setThread t { x with st := .ready, inTrap := false, pcc := { x.pcc with lo := x.savedAt } }
    else s.haltThread t
  else if x.st = .waiting && x.wait = .access then
    s.setThread t { x with wait := .again, pageAbort := if act = 1 then none else some (stage, addr) }
  else s

/-- A spilled request of stream port q on a page, answered: replayed, or aborted (R372, R387). -/
def answerReq (q page act : Nat) (r : Req) : Req :=
  if r.spilled && r.port = q && bits r.va 0 57 / 4096 = page then
    { r with spilled := false, aborted := act != 1 }
  else r

/-- The event that performs a request. -/
def reqEvent (p n : Nat) (r : Req) : Instr :=
  match r.kind with
  | .store => .evStoreAck p n r.id
  | _ => .evMemoryReply p n r.id

/-- The requests of a group's stream port that are still to be performed and wait for nothing, with the slots that hold
them: the replayed ones in spill order, then those that never spilled (R372). -/
def portReqs (s : State) (gh q : Nat) : List (Nat × Nat × Req) :=
  let all := (s.group gh).tiles.flatMap fun t => (List.range 8).flatMap fun i =>
    ((s.slot t.2.2 (40 + i)).run.reqs.filter fun r =>
      r.kind ≠ .complete && !r.spilled && r.reply.isNone && r.port = q).map
      fun r => (t.2.2, 40 + i, r)
  sortBy (fun a b => a.2.2.spillAt ≤ b.2.2.spillAt) (all.filter fun r => r.2.2.spillAt ≠ 0) ++
    all.filter fun r => r.2.2.spillAt = 0

/-- Spilled requests of a group's stream port on a page, answered and given their turns in spill order
(R372, R387). -/
def answerPort (s : State) (gh q page act : Nat) : State :=
  let s1 := (s.group gh).tiles.foldl (fun a t => (List.range 8).foldl (fun b i =>
    let x := b.slot t.2.2 (40 + i)
    if x.run.reqs.isEmpty then b
    else b.setSlot t.2.2 (40 + i) { x with run := { x.run with reqs := x.run.reqs.map (answerReq q page act) } }) a) s
  (s1.portReqs gh q).foldl (fun a r => a.post (reqEvent r.1 r.2.1 r.2.2)) s1

/-- The home that holds the participant k of a completed ECOLL phase (R232). -/
def collHome (s : State) (k : Nat) : Option HomeId :=
  (s.homes.find? fun h => h.2.collsDone.any (·.contains k)).map (·.1)

/-- An engine request paused by a page fault goes on; ABORT ends a copy or gather POISONED, and a
combination goes on without that page (R232, R387). -/
def answerEngine (s : State) (k act : Nat) : State :=
  match s.engines.find? (·.id == k) with
  | none => s
  | some e =>
    let e1 := if act = 1 then { e with paused := false }
      else if e.kind = 2 then { e with paused := false, aborts := e.aborts ++ [e.faultAt] }
      else { e with paused := false, status := 1, performed := true }
    let s1 : State := { s with engines := s.engines.map fun (o : EngReq) => if o.id = k then e1 else o }
    if e.kind = 2 then (match s1.collHome k with
      | some h => s1.post (.evEcollCombine h)
      | none => s1)
    else s1.post (if act = 1 then .evEngineTransfer k else .evEngineResponse k)

/-- A Sieve's page fault answered: it looks again, or the page's map bits read 0 (R259). -/
def answerSieve (s : State) (x k page act : Nat) : State :=
  let c := s.context x
  (if act = 1 then s
   else s.setContext x { c with sieve := { c.sieve with skipped := insertNat page c.sieve.skipped } }).post
    (.evSieveFinish x k)

/-- The raiser's fields of a page record (R382). -/
def raiserRecord (s : State) (r : Record) : Record :=
  match r.raiser with
  | .thread t => s.helmRecord t 2 0 r.addr 0
  | .port gh q page =>
    let spilled := (s.group gh).tiles.find? fun t => (List.range 8).any fun i =>
      (s.slot t.2.2 (40 + i)).run.reqs.any fun o => o.spilled && o.port = q && bits o.va 0 57 / 4096 = page
    { src := 3, place := s.portTile gh ((spilled.map (·.2.2)).getD 0) q, ctx := r.ctx, group := r.group,
      raiser := r.raiser }
  | .engine k =>
    { src := 9, place := ((s.engines.find? (·.id == k)).map fun (e : EngReq) => basePlace (stackOf e.thread)).getD 0,
      ctx := r.ctx, group := r.group, raiser := r.raiser }
  | .sieve _ k _ => { src := 9, place := basePlace k, ctx := r.ctx, raiser := r.raiser }
  | _ => { src := 5, place := basePlace 0, ctx := r.ctx, group := r.group, raiser := r.raiser }

/-- The access of a raiser whose PAGE2 fault was declared unresolvable fails (R223, R232, R259, R321, R329, R388). -/
def failRaiser (s : State) (r : Record) : State :=
  match r.raiser with
  | .thread t => s.answerThread t 3 5 2 r.addr
  | .engine k => s.answerEngine k 3
  | .admission q => (s.setQueue q { s.queue q with unreadable := true }).post .evAdmission
  | .loader g => (s.setGroup g { s.group g with unreadable := true }).post (.evImageVerify g)
  | .sieve x k page => s.answerSieve x k page 3
  | _ => s

/-- A raiser takes an action (R147, R223, R232, R321, R387). -/
def answerRaiser (s : State) (r : Record) (act : Nat) : State :=
  match r.raiser with
  | .none => s
  | .gen p n => s.answerGen p n act
  | .thread t => s.answerThread t r.cause act 1 r.addr
  | .port gh q page => s.answerPort gh q page act
  | .engine k => s.answerEngine k act
  | .admission q =>
    if act = 1 then s.post .evAdmission
    else (s.setQueue q { s.queue q with unreadable := true }).post .evAdmission
  | .sieve x k page => s.answerSieve x k page act
  | .loader g =>
    if act = 1 then s.post (.evImageVerify g)
    else (s.setGroup g { s.group g with unreadable := true }).post (.evImageVerify g)

/-- The action applied by the raiser (R387): on a page record's RETRY its translation is walked again first; 5 is
UNRESOLVABLE (R388). -/
def applyAction (s : State) (r : Record) (act : Nat) : State :=
  if act = 5 then s.failRaiser r
  else if act = 1 && (r.cause = 2 || r.cause = 3) && r.raiser ≠ .none then
    ({ s with walks := s.walks ++ [{ id := s.ids, rec_ := r }], ids := s.ids + 1 } : State).post (.evPageWalk s.ids)
  else s.answerRaiser r act

/-- The raiser of a record exists no longer: its group has retired or been discarded, or its context has ended (R386,
R390). -/
def raiserGone (s : State) (r : Record) : Bool :=
  (r.ctx.any fun x => (s.context x).epoch ≠ r.epoch) ||
  (r.group ≠ 0 && (match find s.groups r.group.toNat with
    | some g => g.st == .retired
    | none => true))

/-- The action goes to the raiser at once, or waits with its stopped group (R387); to a raiser that no longer
exists it is a DISMISS (R386). -/
def passAction (s : State) (r : Record) (act : Nat) : State :=
  let gh := r.group.toNat
  if s.raiserGone r then s
  else if s.actionHeld gh then
    s.setGroup gh { s.group gh with actions := (s.group gh).actions ++ [(r, act)] }
  else s.applyAction r act

/-- The records that wait for a slot of a destination are looked at again, in the order in which they arose (R389). -/
def retryRaised (s : State) (h : Bool) (x : Nat) : State :=
  (sortBy recordBefore (s.raised.filter fun r => if h then r.toH || r.ctx.isNone else !r.toH && r.ctx = some x)).foldl
    (fun (a : State) r => a.postOnce (.evFaultRecordWrite r.id)) s

/-- The response operand's fields (R386). -/
structure Response where
  opc : Nat
  zeroHi : Bool
  action : Nat
  seq : Nat
  zeroLo : Bool
  slot : Nat
deriving DecidableEq, Repr

/-- R386. -/
def responseOf (v : Word) : Response :=
  { opc := bits v 62 2, zeroHi := bits v 52 10 == 0, action := bits v 48 4, seq := bits v 16 32,
    zeroLo := bits v 12 4 == 0, slot := bits v 0 12 }

/-- The record a response answers, if it is valid (R386). -/
def answered (slots : Table Record) (p : Response) : Option Record :=
  match find slots p.slot with
  | some r =>
    if r.seq = p.seq && p.zeroHi && p.zeroLo && (actionsOf r.cause).contains p.action then some r else none
  | none => none

/-- A response to a context's queue (R384, R386). -/
def respond (s : State) (x : Nat) (v : Word) : State :=
  let p := responseOf v
  let q := (s.context x).fq
  match answered q.slots p with
  | none => s.setContext x { s.context x with fq := { q with badResp := true } }
  | some r =>
    ((s.setContext x { s.context x with fq := { q with slots := del q.slots p.slot } }).retryRaised
      false x).passAction r p.action

/-- A slot of the H ring freed. -/
def freeH (s : State) (i : Nat) : State :=
  { s with ring := { s.ring with slots := del s.ring.slots i } }.retryRaised true 0

/-- UNRESOLVABLE (R388): a PAGE1 record of detail UNRESOLVED takes the PAGE2 record's place, raised by the unit that met
the fault (R370, R382). A helm thread's, an engine's, the Sieve's and the loader's access fails (R223, R232, R321), as an
action does when its group goes on (R387); an element's waits for the answer to the new record. -/
def unresolvable (s : State) (r : Record) : State :=
  let now := match r.raiser with
    | .port .. => false
    | _ => true
  let s1 := s.raise { s.raiserRecord r with
    cause := 2, detail := 6, ctx := r.ctx, addr := r.addr, aux := 0, group := r.group, waits := true,
    raiser := if now then .none else r.raiser }
  if now then s1.passAction r 5 else s1

end State

/-- FAULT_RECORD_WRITE (R384): the raised record k is written, redirected or dropped, or stays RAISED. -/
def execEvFaultRecordWrite (k : Nat) (s : State) : Result :=
  .next (match s.raised.find? (·.id == k) with
    | some r => s.writeInOrder r
    | none => s)

end Sys2Proof.Machine
end

