-- ==== Sys2Proof/Machine/Integer.lean ====
section
/-! DEFINITION. Integer lane arithmetic shared by the helm thread (w = 64) and the word elements
(R112-R114, R120, R121, R217, R219). Lanes are w-bit patterns held as natural numbers. -/

namespace Sys2Proof.Machine

/-- Zeros above the highest set bit; w when a = 0 (R217, R121). -/
def clzN : Nat → Nat → Nat
  | 0, _ => 0
  | w + 1, a => if bit a w then 0 else 1 + clzN w a

/-- Zeros below the lowest set bit; w when a = 0 (R217, R121). -/
def ctzN : Nat → Nat → Nat
  | 0, _ => 0
  | w + 1, a => if a % 2 = 1 then 0 else 1 + ctzN w (a / 2)

/-- Number of set bits among the low w (R217, R121). -/
def popcN : Nat → Nat → Nat
  | 0, _ => 0
  | w + 1, a => a % 2 + popcN w (a / 2)

/-- Bit 2i := a bit i and bit 2i + 1 := b bit i, for i below h (R217, R121). -/
def bilvN : Nat → Nat → Nat → Nat
  | 0, _, _ => 0
  | h + 1, a, b => a % 2 + 2 * (b % 2) + 4 * bilvN h (a / 2) (b / 2)

/-- The even bits of a, in order, h of them (R217, R121). -/
def evenBits : Nat → Nat → Nat
  | 0, _ => 0
  | h + 1, a => a % 2 + 2 * evenBits h (a / 4)

/-- Even bits below, odd bits above (R217, R121); h is half the width. -/
def bdlvN (h a : Nat) : Nat := evenBits h a + 2 ^ h * evenBits h (a / 2)

/-- The low w bits reversed (R121). -/
def brevN : Nat → Nat → Nat
  | 0, _ => 0
  | w + 1, a => a % 2 * 2 ^ w + brevN w (a / 2)

/-- Bits [pos + len - 1 : pos] of a (R219, R121). -/
def bfxN (a pos len : Nat) : Nat := a / 2 ^ pos % 2 ^ len

/-- a with bits [pos + len - 1 : pos] replaced by b's low bits (R219, R121). -/
def bfiN (a b pos len : Nat) : Nat :=
  a % 2 ^ pos + b % 2 ^ len * 2 ^ pos + a / 2 ^ (pos + len) * 2 ^ (pos + len)

/-- The result of a division: quotient and remainder patterns and the flag (R114). -/
structure Division where
  quo : Nat
  rem : Nat
  flag : Bool
deriving DecidableEq, Repr

/-- Signed division of w-bit patterns (R114). -/
def divSigned (w a b : Nat) : Division :=
  let x := sext a w
  let y := sext b w
  if y = 0 then ⟨2 ^ w - 1, a % 2 ^ w, true⟩
  else if x = -(2 ^ (w - 1) : Int) ∧ y = -1 then ⟨2 ^ (w - 1), 0, true⟩
  else ⟨(Int.tdiv x y % 2 ^ w).toNat, (Int.tmod x y % 2 ^ w).toNat, false⟩

/-- Unsigned division of w-bit patterns (R114). -/
def divUnsigned (w a b : Nat) : Division :=
  if b % 2 ^ w = 0 then ⟨2 ^ w - 1, a % 2 ^ w, true⟩
  else ⟨a % 2 ^ w / (b % 2 ^ w), a % 2 ^ w % (b % 2 ^ w), false⟩

/-- The value an atomic stores, by AOP: SWAP, ADD, AND, OR, XOR, MIN, MAX, MINU, MAXU (R141, R225). -/
def amoValue (w op old b : Nat) : Nat :=
  match op with
  | 0 => b % 2 ^ w
  | 1 => (old + b) % 2 ^ w
  | 2 => old &&& b
  | 3 => old ||| b
  | 4 => old ^^^ b
  | 5 => if sext b w < sext old w then b else old
  | 6 => if sext old w < sext b w then b else old
  | 7 => if b < old then b else old
  | _ => if old < b then b else old

/-- Shift right with the top bit replicated (AShr, R6). -/
def asrN (w a s : Nat) : Nat := (sext a w / 2 ^ s % 2 ^ w).toNat

end Sys2Proof.Machine
end

