-- ==== Sys2Proof/Machine/Flags.lean ====
section
/-! DEFINITION. Flag and status computations: the k registers' words, saturation flags, context status
(R8, R209-R211, R235, R311, R383). -/

namespace Sys2Proof.Machine

/-- SatSigned(x, n): the clamped value and whether clamping occurred (R8). -/
def satSigned (x : Int) (n : Nat) : Int × Bool :=
  if x < -(2 ^ (n - 1) : Int) then (-(2 ^ (n - 1) : Int), true)
  else if (2 ^ (n - 1) : Int) - 1 < x then ((2 ^ (n - 1) : Int) - 1, true)
  else (x, false)

/-- SatUnsigned(x, n) (R8). -/
def satUnsigned (x : Int) (n : Nat) : Int × Bool :=
  if x < 0 then (0, true) else if (2 ^ n : Int) - 1 < x then ((2 ^ n : Int) - 1, true) else (x, false)

/-- k.STATUS (R210). -/
def statusWord (t : Nat) (x : Thread) : Word :=
  wd (b2n x.scrub * 128 + b2n x.stopReq * 64 + b2n x.inTrap * 32 + b2n (isCore t) * 16 + x.priv.toNat)

/-- k.TID (R211). -/
def State.tidWord (s : State) (t : Nat) : Word :=
  wd (s.ctxOf t * 2 ^ 16 + b2n (isCore t) * 2 ^ 15 + t % 4 * 2 ^ 12 +
    (if isCore t then 0 else unitOf t) * 2 ^ 11 + placeOf t)

/-- k.FAULTQ (R383). -/
def faultqWord (q : FaultQ) : Word :=
  wd (b2n q.badResp * 2 ^ 61 + b2n q.host * 2 ^ 60 + q.base + q.log2n * 256 + q.nch)

/-- A value written to k.ECAUSE (R235): EPRIV 3 is discarded, and 2 below H. -/
def ecauseWritten (old v : Word) (core : Bool) : Word :=
  let e := bits v 16 2
  let keep := e = 3 || (e = 2 && !core)
  wd ((if keep then bits old 16 2 else e) * 2 ^ 16 + bits v 0 16)

namespace State

/-- A write of k.FAULTQ (R383): OPC 0 configures, 1 responds. -/
def writeFaultq (s : State) (x : Nat) (v : Word) : State :=
  let q := (s.context x).fq
  let opc := bits v 62 2
  if opc = 1 then s.respond x v
  else if opc ≠ 0 then s
  else
    let q1 := if bits v 61 1 = 1 then { q with badResp := false } else q
    let q2 := if q.slots.isEmpty then
        { q1 with host := bits v 60 1 == 1, base := bits v 12 45 * 2 ^ 12, log2n := bits v 8 4,
                  nch := bits v 0 8 }
      else q1
    s.setContext x { s.context x with fq := q2 }

/-- The level a k register asks of a read (R209). -/
def readLevel : KReg → Nat
  | .tvec | .epc | .ecause | .eval | .faultq => 1
  | .status | .tid | .cycle | .rxsb | .ylim | .snapint | .govstall => 0

/-- The level a k register asks of a write; one with no write level takes its read level (R209). -/
def writeLevel : KReg → Nat
  | .tvec | .epc | .ecause | .eval | .faultq => 1
  | .ylim | .snapint => 2
  | .status | .tid | .cycle | .rxsb | .govstall => 0

/-- The value of a k register for the acting thread (R209). -/
def readK (s : State) (k : KReg) : Word :=
  match k with
  | .status => statusWord s.cur s.th
  | .tid => s.tidWord s.cur
  | .cycle => wd s.fc
  | .rxsb => s.th.rxsb
  | .tvec => s.th.tvec
  | .epc => s.th.epc
  | .ecause => s.th.ecause
  | .eval => s.th.eval
  | .ylim => wd s.ylim
  | .snapint => if s.onCore then 0 else wd (s.context s.ctx).snapint.toNat
  | .faultq => if s.onCore then 0 else faultqWord (s.context s.ctx).fq
  | .govstall => if s.onCore then 0 else (s.tile (ptidOf s.cur)).govStall

/-- A write of a k register by the acting thread (R13, R209, R235, R383). -/
def writeK (s : State) (k : KReg) (v : Word) : State :=
  match k with
  | .tvec => s.setTh { s.th with tvec := v }
  | .epc => s.setTh { s.th with epc := v }
  | .ecause => s.setTh { s.th with ecause := ecauseWritten s.th.ecause v s.onCore }
  | .eval => s.setTh { s.th with eval := v }
  | .ylim => if 1000 ≤ v.toNat && v.toNat < 2 ^ 32 then { s with ylim := v.toNat } else s
  | .faultq => if s.onCore then s else s.writeFaultq s.ctx v
  | .status | .tid | .cycle | .rxsb | .snapint | .govstall => s

/-- The compute tiles a context owns (R302). -/
def ownedTiles (s : State) (x : Nat) : List Nat :=
  (s.tiles.filter fun p => p.2.owner = some x).map (·.1)

/-- The groups of a context. -/
def groupsOf (s : State) (x : Nat) : List Nat := (s.groups.filter fun g => g.2.ctx = x).map (·.1)

/-- The placed groups of a context: LEASED to FROZEN (R339). -/
def placedGroups (s : State) (x : Nat) : List Nat :=
  (s.groups.filter fun g => g.2.ctx = x && g.2.st != .unplaced && g.2.st != .evicted &&
    g.2.st != .retired).map (·.1)

/-- CXSTAT's value for context x (R311). -/
def contextStatus (s : State) (x : Nat) : Word :=
  let c := s.context x
  wd ((s.ownedTiles x).length * 2 ^ 34 + Nat.min (s.placedGroups x).length 255 * 2 ^ 26 + c.part * 2 ^ 21 +
    c.iface.getD 0 * 2 ^ 15 + b2n c.iface.isSome * 2 ^ 14 + b2n c.drainLate * 128 + c.st)

end State
end Sys2Proof.Machine
end

