-- ==== Sys2Proof/Machine/Float.lean ====
section
/-! DEFINITION. Floating-point formats, exact values, Round and the special functions (R76-R78, R87-R90,
R115-R119). Finite values are exact: z times 2^k. -/

namespace Sys2Proof.Machine

/-- How a format spells NaN (R76): as IEEE 754, only as all ones (E4M3), or not at all. -/
inductive NanKind where
  | ieee | ones | none
deriving DecidableEq, Repr

/-- A floating format (R76, R79): exponent and fraction bits, bias, NaN; the IEEE ones have infinity. -/
structure FloatFmt where
  e : Nat
  f : Nat
  bias : Nat
  nan : NanKind := .ieee
deriving DecidableEq, Repr

/-- .f64 (R76). -/
def f64 : FloatFmt := { e := 11, f := 52, bias := 1023 }
/-- .f32 (R76). -/
def f32 : FloatFmt := { e := 8, f := 23, bias := 127 }
/-- .f16 (R76). -/
def f16 : FloatFmt := { e := 5, f := 10, bias := 15 }
/-- .bf16 (R76). -/
def bf16 : FloatFmt := { e := 8, f := 7, bias := 127 }
/-- .e4m3 (R76). -/
def e4m3 : FloatFmt := { e := 4, f := 3, bias := 7, nan := .ones }
/-- .e5m2 (R76). -/
def e5m2 : FloatFmt := { e := 5, f := 2, bias := 15 }
/-- E2M3 (R79). -/
def e2m3 : FloatFmt := { e := 2, f := 3, bias := 1, nan := .none }
/-- E3M2 (R79). -/
def e3m2 : FloatFmt := { e := 3, f := 2, bias := 3, nan := .none }
/-- E2M1 (R79). -/
def e2m1 : FloatFmt := { e := 2, f := 1, bias := 1, nan := .none }

/-- Width in bits. -/
def FloatFmt.width (m : FloatFmt) : Nat := 1 + m.e + m.f

/-- A value read from a format. `nan` keeps the top fraction bit, for class (R119). -/
inductive FVal where
  | nan (quiet : Bool)
  | inf (neg : Bool)
  | zero (neg : Bool)
  | fin (z : Int) (k : Int)
deriving DecidableEq, Repr

/-- The value of a code (R76), subnormals read as zero under DAZ (R78). -/
def FloatFmt.decode (m : FloatFmt) (daz : Bool) (c : Nat) : FVal :=
  let neg := bit c (m.e + m.f)
  let e := c / 2 ^ m.f % 2 ^ m.e
  let f := c % 2 ^ m.f
  let sg : Int := if neg then -1 else 1
  if m.nan = .ieee && e = 2 ^ m.e - 1 then
    if f = 0 then .inf neg else .nan (bit f (m.f - 1))
  else if m.nan = .ones && e = 2 ^ m.e - 1 && f = 2 ^ m.f - 1 then .nan true
  else if e = 0 then
    if f = 0 || daz then .zero neg else .fin (sg * f) (1 - (m.bias : Int) - m.f)
  else .fin (sg * (2 ^ m.f + f : Nat)) ((e : Int) - m.bias - m.f)

/-- The canonical NaN (R77); +0 in a format without one (R90). -/
def FloatFmt.nanCode (m : FloatFmt) : Nat :=
  match m.nan with
  | .ieee => (2 ^ m.e - 1) * 2 ^ m.f + 2 ^ (m.f - 1)
  | .ones => 2 ^ (m.e + m.f) - 1
  | .none => 0

/-- The sign bit of a format. -/
def FloatFmt.signBit (m : FloatFmt) (neg : Bool) : Nat := if neg then 2 ^ (m.e + m.f) else 0

/-- The code of ±largest finite (R76, R79). -/
def FloatFmt.largestCode (m : FloatFmt) : Nat :=
  match m.nan with
  | .ieee => (2 ^ m.e - 1) * 2 ^ m.f - 1
  | .ones => 2 ^ (m.e + m.f) - 2
  | .none => 2 ^ (m.e + m.f) - 1

/-- The code of infinity (IEEE formats). -/
def FloatFmt.infCode (m : FloatFmt) : Nat := (2 ^ m.e - 1) * 2 ^ m.f

/-- The result of overflow (R88). -/
def FloatFmt.overflow (m : FloatFmt) (sat : Bool) (mode : RMode) (neg : Bool) : Nat :=
  match m.nan with
  | .none => m.signBit neg + m.largestCode
  | .ones => if sat then m.signBit neg + m.largestCode else m.nanCode
  | .ieee =>
    if sat then m.signBit neg + m.largestCode
    else
      let toInf := match mode with
        | .ne | .sr => true
        | .tz => false
        | .pi => !neg
        | .ni => neg
      m.signBit neg + (if toInf then m.infCode else m.largestCode)

/-- Floor of log2 (n / d), for positive n and d. -/
def log2Quot (n d : Nat) : Int :=
  let e : Int := (Nat.log2 n : Int) - Nat.log2 d
  if (if 0 ≤ e then d * 2 ^ e.toNat ≤ n else d ≤ n * 2 ^ (-e).toNat) then e else e - 1

/-- Whether the quotient q with remainder r over d moves away from zero (R87, R89); rnd is the stepped
stochastic state. -/
def roundAway (mode : RMode) (rnd : Nat) (neg : Bool) (q r d : Nat) : Bool :=
  match mode with
  | .ne => d < 2 * r || (2 * r = d && q % 2 = 1)
  | .tz => false
  | .pi => r ≠ 0 && !neg
  | .ni => r ≠ 0 && neg
  | .sr => 2 ^ 32 ≤ r * 2 ^ 32 / d + rnd

/-- The bits a format gives an element's profile entry (R83). -/
structure FBits where
  sat : Bool := false
  daz : Bool := false
  ftz : Bool := false
deriving DecidableEq, Repr

/-- Round of the positive exact value n/d with an unbounded exponent: the code without its sign, which
goes on above the largest finite one (R87). -/
def FloatFmt.roundCode (m : FloatFmt) (mode : RMode) (rnd : Nat) (neg : Bool) (n d : Nat) : Nat :=
  let lo : Int := 1 - (m.bias : Int) - m.f
  let ex := log2Quot n d
  let q0 : Int := if ex - m.f < lo then lo else ex - m.f
  let n2 := if q0 < 0 then n * 2 ^ (-q0).toNat else n
  let d2 := if q0 < 0 then d else d * 2 ^ q0.toNat
  let q := n2 / d2 + (if roundAway mode rnd neg (n2 / d2) (n2 % d2) d2 then 1 else 0)
  if q < 2 ^ m.f then q
  else if q = 2 ^ (m.f + 1) then (q0 + 1 + m.f + m.bias).toNat * 2 ^ m.f
  else (q0 + m.f + m.bias).toNat * 2 ^ m.f + (q - 2 ^ m.f)

/-- Round of the nonzero exact value ±n/d: the code (R87, R88, R78). -/
def FloatFmt.roundQuot (m : FloatFmt) (b : FBits) (mode : RMode) (rnd : Nat) (neg : Bool) (n d : Nat) : Nat :=
  let code := m.roundCode mode rnd neg n d
  if code < 2 ^ m.f then (if b.ftz then m.signBit neg else m.signBit neg + code)
  else if m.largestCode < code then m.overflow b.sat mode neg
  else m.signBit neg + code

/-- The rounded magnitude exceeds the largest finite value (R88). -/
def FloatFmt.exceeds (m : FloatFmt) (mode : RMode) (rnd : Nat) (neg : Bool) (n d : Nat) : Bool :=
  m.largestCode < m.roundCode mode rnd neg n d

/-- Round of z times 2^k (R87); zero gives +0. -/
def FloatFmt.round (m : FloatFmt) (b : FBits) (mode : RMode) (rnd : Nat) (z k : Int) : Nat :=
  if z = 0 then 0
  else m.roundQuot b mode rnd (z < 0) (if 0 ≤ k then z.natAbs * 2 ^ k.toNat else z.natAbs)
    (if 0 ≤ k then 1 else 2 ^ (-k).toNat)

/-- A value before its single rounding: NaN, infinity, a signed zero, z times 2^k, or ±n/d. -/
inductive Exact where
  | nan
  | inf (neg : Bool)
  | zero (neg : Bool)
  | dyadic (z k : Int)
  | quot (neg : Bool) (n d : Nat)
deriving DecidableEq, Repr

/-- The code of an exact value under Round (R77, R87, R88, R90). -/
def FloatFmt.roundExact (m : FloatFmt) (b : FBits) (mode : RMode) (rnd : Nat) (x : Exact) : Nat :=
  match x with
  | .nan => m.nanCode
  | .inf neg => match m.nan with
    | .ieee => m.signBit neg + m.infCode
    | .ones => if b.sat then m.signBit neg + m.largestCode else m.nanCode
    | .none => m.signBit neg + m.largestCode
  | .zero neg => m.signBit neg
  | .dyadic z k => m.round b mode rnd z k
  | .quot neg n d => if n = 0 then m.signBit neg else m.roundQuot b mode rnd neg n d

/-- One step of the stochastic generator (R89). -/
def stepGen (s : BitVec 32) : BitVec 32 :=
  let a := s ^^^ (s <<< 13)
  let b := a ^^^ (a >>> 17)
  b ^^^ (b <<< 5)

/-! ## Arithmetic on exact values (R77, R115) -/

/-- Sign of a value; NaN counts as positive. -/
def FVal.neg : FVal → Bool
  | .nan _ => false
  | .inf n => n
  | .zero n => n
  | .fin z _ => z < 0

/-- A value as an exact one. -/
def FVal.exact : FVal → Exact
  | .nan _ => .nan
  | .inf n => .inf n
  | .zero n => .zero n
  | .fin z k => .dyadic z k

/-- The exact sum of z times 2^k and y times 2^j, at the lower exponent. -/
def addDyadic (z k y j : Int) : Int × Int :=
  if k ≤ j then (z + y * 2 ^ (j - k).toNat, k) else (z * 2 ^ (k - j).toNat + y, j)

/-- A sum that is exactly zero takes the sign of R77. -/
def zeroSum (mode : RMode) : Exact := .zero (mode = .ni)

/-- a + b (R77, R115). -/
def Exact.add (mode : RMode) (a b : Exact) : Exact :=
  match a, b with
  | .nan, _ | _, .nan => .nan
  | .inf x, .inf y => if x = y then .inf x else .nan
  | .inf x, _ => .inf x
  | _, .inf y => .inf y
  | .zero x, .zero y => if x = y then .zero x else zeroSum mode
  | .zero _, y => y
  | x, .zero _ => x
  | .dyadic z k, .dyadic y j =>
    let s := addDyadic z k y j
    if s.1 = 0 then zeroSum mode else .dyadic s.1 s.2
  | x, _ => x

/-- a times b (R77, R115). -/
def FVal.mul (a b : FVal) : Exact :=
  match a, b with
  | .nan _, _ | _, .nan _ => .nan
  | .inf x, .inf y => .inf (x != y)
  | .inf _, .zero _ | .zero _, .inf _ => .nan
  | .inf x, y => .inf (x != y.neg)
  | x, .inf y => .inf (x.neg != y)
  | .fin z k, .fin y j => .dyadic (z * y) (k + j)
  | x, y => .zero (x.neg != y.neg)

/-- The sign of a value flipped. -/
def FVal.negate : FVal → FVal
  | .nan q => .nan q
  | .inf n => .inf !n
  | .zero n => .zero !n
  | .fin z k => .fin (-z) k

/-- ±(n 2^i) / (d 2^j) as a quotient of numbers. -/
def quotOf (neg : Bool) (n d : Nat) (k : Int) : Exact :=
  if 0 ≤ k then .quot neg (n * 2 ^ k.toNat) d else .quot neg n (d * 2 ^ (-k).toNat)

/-- a / b (R115). -/
def FVal.div (a b : FVal) : Exact :=
  match a, b with
  | .nan _, _ | _, .nan _ => .nan
  | .inf _, .inf _ | .zero _, .zero _ => .nan
  | .inf x, y => .inf (x != y.neg)
  | x, .inf y => .zero (x.neg != y)
  | .zero x, y => .zero (x != y.neg)
  | x, .zero y => .inf (x.neg != y)
  | .fin z k, .fin y j => quotOf ((z < 0) != (y < 0)) z.natAbs y.natAbs (k - j)

/-- The integer square root of n below 2^b, by bits. -/
def isqrtBits (n : Nat) : Nat → Nat → Nat
  | 0, r => r
  | b + 1, r => isqrtBits n b (if (r + 2 ^ b) * (r + 2 ^ b) ≤ n then r + 2 ^ b else r)

/-- Floor of the square root. -/
def isqrt (n : Nat) : Nat := isqrtBits n (Nat.log2 n / 2 + 1) 0

/-- A positive value known from below on a grid of 2^-p: exact, or strictly above by less than one
grid step. -/
def sticky (neg : Bool) (q p : Nat) (inexact : Bool) : Exact :=
  if inexact then .quot neg (2 * q + 1) (2 ^ (p + 1)) else .quot neg q (2 ^ p)

/-- The grid of the roots and special functions, in bits (log 6). -/
def gridBits : Nat := 256

/-- √(n/d) scaled by 2^p as a floor, and whether it is inexact. -/
def sqrtQuot (n d p : Nat) : Nat × Bool :=
  let v := n * 2 ^ (2 * p) / d
  let r := isqrt v
  (r, r * r ≠ v || n * 2 ^ (2 * p) % d ≠ 0)

/-- √a (R115). -/
def FVal.sqrt (a : FVal) : Exact :=
  match a with
  | .nan _ => .nan
  | .inf n => if n then .nan else .inf false
  | .zero n => .zero n
  | .fin z k =>
    if z < 0 then .nan
    else
      let p := gridBits + 1100
      let r := sqrtQuot (if 0 ≤ k then z.natAbs * 2 ^ k.toNat else z.natAbs)
        (if 0 ≤ k then 1 else 2 ^ (-k).toNat) p
      sticky false r.1 p r.2

/-- 1 / √a (R117). -/
def FVal.rsqrt (a : FVal) : Exact :=
  match a with
  | .nan _ => .nan
  | .inf n => if n then .nan else .zero false
  | .zero n => .inf n
  | .fin z k =>
    if z < 0 then .nan
    else
      let p := gridBits + 1100
      let r := sqrtQuot (if 0 ≤ k then 1 else 2 ^ (-k).toNat)
        (if 0 ≤ k then z.natAbs * 2 ^ k.toNat else z.natAbs) p
      sticky false r.1 p r.2

/-! ## Fixed-point series (R117; log 6). Numbers are scaled by 2^fixBits. -/

/-- Bits of the fixed-point working precision. -/
def fixBits : Nat := 384

/-- Σ y^n / n!, terms until the fuel ends; y in fixed point. -/
def expSeries (y : Nat) : Nat → Nat → Nat → Nat → Nat
  | 0, _, _, acc => acc
  | fuel + 1, n, term, acc => expSeries y fuel (n + 1) (term * y / 2 ^ fixBits / n) (acc + term)

/-- Σ z^(2i+1) / (2i+1): the inverse hyperbolic tangent; z in fixed point. -/
def atanhSeries (z2 : Nat) : Nat → Nat → Nat → Nat → Nat
  | 0, _, _, acc => acc
  | fuel + 1, i, pw, acc => atanhSeries z2 fuel (i + 1) (pw * z2 / 2 ^ fixBits) (acc + pw / (2 * i + 1))

/-- atanh of a fixed-point number. -/
def atanhFix (z : Nat) : Nat := atanhSeries (z * z / 2 ^ fixBits) 140 0 z 0

/-- ln 2 in fixed point. -/
def ln2Fix : Nat := 2 * atanhFix (2 ^ fixBits / 3)

/-- Σ (-1)^i z^(2i+1) / (2i+1): the arctangent; z in fixed point. -/
def atanSeries (z2 : Int) : Nat → Nat → Int → Int → Int
  | 0, _, _, acc => acc
  | fuel + 1, i, pw, acc =>
    atanSeries z2 fuel (i + 1) (-(pw * z2 / 2 ^ fixBits)) (acc + pw / (2 * i + 1))

/-- arctan (1/n) in fixed point. -/
def atanInv (n : Nat) : Int :=
  let z : Int := 2 ^ fixBits / n
  atanSeries (z * z / 2 ^ fixBits) 100 0 z 0

/-- π in fixed point: 16 atan(1/5) - 4 atan(1/239). -/
def piFix : Nat := (16 * atanInv 5 - 4 * atanInv 239).toNat

/-- sin y / y as a series in y^2. -/
def sincSeries (y2 : Int) : Nat → Nat → Int → Int → Int
  | 0, _, _, acc => acc
  | fuel + 1, n, term, acc =>
    sincSeries y2 fuel (n + 1) (-(term * y2 / 2 ^ fixBits / ((2 * n) * (2 * n + 1)))) (acc + term)

/-- A fixed-point number cut to the grid, below its true value, times num / 2^e; always inexact. -/
def fixResult (neg : Bool) (v num : Nat) (k : Int) : Exact :=
  let q := v / 2 ^ (fixBits - gridBits - 32)
  quotOf neg ((2 * q + 1) * num) (2 ^ (gridBits + 33)) k

/-- 2^a (R117). -/
def FVal.exp2 (a : FVal) : Exact :=
  match a with
  | .nan _ => .nan
  | .inf n => if n then .zero false else .inf false
  | .zero _ => .dyadic 1 0
  | .fin z k =>
    let d : Int := if 0 ≤ k then 1 else 2 ^ (-k).toNat
    let n : Int := if 0 ≤ k then z * 2 ^ (Nat.min k.toNat 64) else z
    let i : Int := n / d
    let r := (n % d).toNat
    let j : Int := if i < -20000 then -20000 else if 20000 < i then 20000 else i
    if r = 0 then .dyadic 1 j
    else if z.natAbs * 2 ^ 200 < d.natAbs then
      (if 0 < z then .quot false (2 ^ 256 + 1) (2 ^ 256) else .quot false (2 ^ 256 - 1) (2 ^ 256))
    else
      let t := r * 2 ^ fixBits / d.natAbs
      fixResult false (expSeries (t * ln2Fix / 2 ^ fixBits) 110 1 (2 ^ fixBits) 0) 1 j

/-- log₂ a (R117). -/
def FVal.log2 (a : FVal) : Exact :=
  match a with
  | .nan _ => .nan
  | .inf n => if n then .nan else .inf false
  | .zero _ => .inf true
  | .fin z k =>
    if z < 0 then .nan
    else
      let n := z.natAbs
      let b := Nat.log2 n
      let e : Int := k + b
      if n = 2 ^ b then (if e = 0 then .zero false else .dyadic e 0)
      else
        let m := n * 2 ^ fixBits / 2 ^ b
        let y := atanhFix ((m - 2 ^ fixBits) * 2 ^ fixBits / (m + 2 ^ fixBits)) * 2 * 2 ^ fixBits / ln2Fix
        let v : Int := e * 2 ^ fixBits + y
        fixResult (v < 0) v.natAbs 1 0

/-- sin(πt) for 0 < t ≤ 1/2 with t = n / d. -/
def sinPi (neg : Bool) (n d : Nat) : Exact :=
  if 2 * n = d then .dyadic (if neg then -1 else 1) 0
  else
    let y := n * piFix / d
    let g := sincSeries ((y * y / 2 ^ fixBits : Nat) : Int) 60 1 (2 ^ fixBits) 0
    match fixResult neg (g.toNat * piFix / 2 ^ fixBits) n 0 with
    | .quot s a b => .quot s a (b * d)
    | x => x

/-- sin(πa) for a = n / d reduced to one turn: the sign, and the angle folded into the first quadrant. -/
def sinTurn (n d : Nat) : Exact :=
  let r := n % (2 * d)
  let neg := d < r
  let h := if neg then r - d else r
  if h = 0 || h = d then .zero neg
  else sinPi neg (if 2 * h ≤ d then h else d - h) d

/-- sin(πa) (R117). -/
def FVal.sinpi (a : FVal) : Exact :=
  match a with
  | .nan _ | .inf _ => .nan
  | .zero n => .zero n
  | .fin z k =>
    let d := if 0 ≤ k then 1 else 2 ^ (-k).toNat
    let n := if 0 ≤ k then z.natAbs * 2 ^ k.toNat else z.natAbs
    if n % d = 0 then .zero (z < 0)
    else match sinTurn n d with
      | .dyadic v j => .dyadic (if z < 0 then -v else v) j
      | .quot s p q => .quot (s != (z < 0)) p q
      | x => x

/-- cos(πa) (R117): the sine of the angle half a turn's quarter on. -/
def FVal.cospi (a : FVal) : Exact :=
  match a with
  | .nan _ | .inf _ => .nan
  | .zero _ => .dyadic 1 0
  | .fin z k =>
    let d := if 0 ≤ k then 2 else 2 ^ (-k).toNat * 2
    let n := if 0 ≤ k then z.natAbs * 2 ^ k.toNat * 2 else z.natAbs * 2
    if n * 2 ^ 150 < d then .quot false (2 ^ 256 - 1) (2 ^ 256)
    else match sinTurn (n + d / 2) d with
      | .zero _ => .zero false
      | x => x

/-- The order of two values that are no NaN: the sign of a - b (R118). -/
def FVal.cmp (a b : FVal) : Int :=
  match a, b with
  | .nan _, _ | _, .nan _ => 0
  | .inf x, .inf y => if x = y then 0 else if x then -1 else 1
  | .inf x, _ => if x then -1 else 1
  | _, .inf y => if y then 1 else -1
  | .zero _, .zero _ => 0
  | .zero _, .fin z _ => -z
  | .fin z _, .zero _ => z
  | .fin z k, .fin y j => (addDyadic z k (-y) j).1

/-- Whether a value is NaN. -/
def FVal.isNan : FVal → Bool
  | .nan _ => true
  | _ => false

/-- Round to an integer in a mode (R90). -/
def roundInt (mode : RMode) (rnd : Nat) (z k : Int) : Int :=
  if 0 ≤ k then z * 2 ^ k.toNat
  else
    let d := 2 ^ (-k).toNat
    let q := z.natAbs / d
    let r := z.natAbs % d
    let m := q + (if roundAway mode rnd (z < 0) q r d then 1 else 0)
    if z < 0 then -(m : Int) else m

end Sys2Proof.Machine
end

