-- ==== Sys2Proof/Machine/Formats.lean ====
section
/-! DEFINITION. The formats an element reads and writes: profile entries, lanes and packing, and the
fields of a slot's word (R46, R48, R74-R83, R110). -/

namespace Sys2Proof.Machine

/-- The format sets of R110. -/
inductive FmtSet where
  | empty | int | float | e | bits | mx | t3 | sd
deriving DecidableEq, Repr

/-- A format as an element uses it: its code and set, lane width, signedness, floating layout (of the
elements for MX), and the profile bits (R75, R76, R79, R83). -/
structure Fmt where
  code : Nat := 0
  kind : FmtSet := .empty
  w : Nat := 64
  signed : Bool := false
  fl : FloatFmt := f64
  b : FBits := {}
deriving DecidableEq, Repr

/-- An integer format of w bits. -/
def Fmt.ofInt (code w : Nat) (signed : Bool) : Fmt := { code, kind := .int, w, signed }
/-- A floating format. -/
def Fmt.ofFloat (code : Nat) (kind : FmtSet) (fl : FloatFmt) (b : FBits) : Fmt :=
  { code, kind, w := fl.width, fl, b }

/-- Whether SAT governs overflow in a format: only .e4m3, .e5m2 and .mx8 (R83, R88). -/
def satGoverns (code : Nat) : Bool := code == 0x14 || code == 0x15 || code == 0x18

/-- The format of a profile entry (R83). -/
def fmtOf (entry : Nat) : Fmt :=
  let b : FBits := { sat := bit entry 11 && satGoverns (entry % 256), daz := bit entry 10, ftz := bit entry 9 }
  match entry % 256 with
  | 0x01 => .ofInt 0x01 8 true | 0x02 => .ofInt 0x02 16 true
  | 0x03 => .ofInt 0x03 32 true | 0x04 => .ofInt 0x04 64 true
  | 0x05 => .ofInt 0x05 8 false | 0x06 => .ofInt 0x06 16 false
  | 0x07 => .ofInt 0x07 32 false | 0x08 => .ofInt 0x08 64 false
  | 0x09 => { code := 0x09, kind := .bits, w := 32 } | 0x0A => { code := 0x0A, kind := .bits }
  | 0x10 => .ofFloat 0x10 .float f64 b | 0x11 => .ofFloat 0x11 .float f32 b
  | 0x12 => .ofFloat 0x12 .float bf16 b | 0x13 => .ofFloat 0x13 .float f16 b
  | 0x14 => .ofFloat 0x14 .e e4m3 b | 0x15 => .ofFloat 0x15 .e e5m2 b
  | 0x18 => .ofFloat 0x18 .mx e4m3 b | 0x19 => .ofFloat 0x19 .mx e2m3 b
  | 0x1A => .ofFloat 0x1A .mx e3m2 b | 0x1B => .ofFloat 0x1B .mx e2m1 b
  | 0x1C => { code := 0x1C, kind := .mx, w := 8, signed := true }
  | 0x1E => { code := 0x1E, kind := .t3, w := 8 } | 0x1F => { code := 0x1F, kind := .sd }
  | _ => {}

/-- Entry i of a tile's profile (R83). -/
def Tile.fmt (t : Tile) (i : Nat) : Fmt := fmtOf (t.profile.getD i 0)

/-- Lane k of a beat (R74). -/
def laneOf (w d k : Nat) : Nat := d / 2 ^ (w * k) % 2 ^ w
/-- The lanes of a beat. -/
def lanesOf (w d : Nat) : List Nat := (List.range (64 / w)).map (laneOf w d)
/-- A beat from its lanes, lane 0 first; lanes above are zero (R112). -/
def packLanes (w : Nat) : List Nat → Nat
  | [] => 0
  | v :: t => v % 2 ^ w + 2 ^ w * packLanes w t

/-- The trits of a .t3 byte, or none for a reserved code (R81). -/
def tritsOf (v : Nat) : Option (List Int) :=
  if 243 ≤ v then none
  else some ((List.range 5).map fun i => ((v / 3 ^ i % 3 : Nat) : Int) - 1)

/-- The 40 trits of a .t3 beat; none when a byte is reserved (R81). -/
def tritsOfBeat (d : Nat) : Option (List Int) :=
  ((lanesOf 8 d).mapM tritsOf).map List.flatten

/-! ## A slot's word and parameters -/

/-- A class parameter of a slot, or its default. -/
def Slot.param (x : Slot) (sel d : Nat) : Nat := look d x.params sel
/-- The operation code of a slot's word (R46). -/
def Slot.op (x : Slot) : Nat := x.word.toNat / 2 ^ 24
/-- FSEL of a slot's word. -/
def Slot.fsel (x : Slot) : Nat := x.word.toNat / 2 ^ 21 % 8
/-- The copies of a slot's element (R48). -/
def Slot.copies (x : Slot) : Nat := 2 ^ (x.word.toNat / 2 ^ 18 % 8)
/-- CX of a slot's word. -/
def Slot.cx (x : Slot) : BitVec 9 := BitVec.ofNat 9 (x.word.toNat / 2 ^ 9)
/-- CY of a slot's word. -/
def Slot.cy (x : Slot) : BitVec 9 := BitVec.ofNat 9 x.word.toNat
/-- A constant of a slot (R107). -/
def Slot.const (x : Slot) (i : Nat) : Word := look 0 x.consts i
/-- The stochastic state of copy j (R89). -/
def Slot.gen (x : Slot) (j : Nat) : BitVec 32 :=
  (find x.gens j).getD (let v := x.seed ^^^ BitVec.ofNat 32 j; if v = 0 then 0x9E3779B9 else v)
/-- The element is configured and stands ARMED or GATED, and nothing holds it (R98). -/
def Slot.live (x : Slot) : Bool := (x.st = .armed || x.st = .gated) && !x.held
/-- A port of a slot: A, B, C, P by 0 to 3 (R47). -/
def Slot.port (x : Slot) (o : Nat) : List Arrived :=
  match o with
  | 0 => x.portA | 1 => x.portB | 2 => x.portC | _ => x.portP
/-- The slot with a port set. -/
def Slot.setPort (x : Slot) (o : Nat) (l : List Arrived) : Slot :=
  match o with
  | 0 => { x with portA := l } | 1 => { x with portB := l } | 2 => { x with portC := l }
  | _ => { x with portP := l }

/-- No consumer (R47). -/
def noConsumer : BitVec 9 := 0x1FF

/-- The self-timed operations (R105, R133, R153, R167, R180, R188, R419, and the edge ports, which pass
beats as they come). -/
def selfTimed (op : Nat) : Bool :=
  op == 0x3C || op == 0x3D || op == 0x41 || op == 0x43 || (0x48 ≤ op && op ≤ 0x4C) ||
  (0x50 ≤ op && op ≤ 0x52) || (0x54 ≤ op && op ≤ 0x58) || op == 0x5A || op == 0x5B ||
  (0x83 ≤ op && op ≤ 0x86) || (0x92 ≤ op && op ≤ 0x94) || (0xA0 ≤ op && op ≤ 0xCF)

/-- The latency of a region-timed operation (R110, R133, R153, R180). -/
def latOf (op : Nat) : Nat :=
  if op == 0x03 || op == 0x04 || op == 0x0E || op == 0x40 || op == 0x42 then 3
  else if op == 0x05 || op == 0x06 then 18
  else if 0x10 ≤ op && op ≤ 0x13 then 4
  else if op == 0x14 || op == 0x15 then 14
  else if op == 0x1A || op == 0x1B then 10
  else if 0x1C ≤ op && op ≤ 0x1F then 16
  else if 0x38 ≤ op && op ≤ 0x3B then 2
  else if 0x80 ≤ op && op ≤ 0x9F then 2
  else 1

/-- The ports a word operation reads (R110). -/
def wordReads (op : Nat) : List Nat :=
  if op == 0x0E || op == 0x0F || op == 0x10 then [0, 1, 2]
  else if op == 0x25 then [0, 1, 3]
  else if op == 0x00 || op == 0x07 || op == 0x08 || op == 0x15 || (0x18 ≤ op && op ≤ 0x1F) || op == 0x26 ||
    op == 0x2B || (0x30 ≤ op && op ≤ 0x32) || (0x34 ≤ op && op ≤ 0x36) || op == 0x38 || op == 0x39 ||
    (0x3B ≤ op && op ≤ 0x3E) || (0x48 ≤ op && op ≤ 0x4C) then [0]
  else [0, 1]

/-- The source code of port o in SRC (R106). -/
def Slot.src (x : Slot) (o : Nat) : Nat := x.param 0x10 0 / 2 ^ (3 * o) % 8

/-- The ports an element takes beats from (R107, R110, R133, R140, R153, R167, R180, R189, R162-R166). -/
def Slot.reads (x : Slot) : List Nat :=
  let op := x.op
  if op < 0x50 then (wordReads op).filter fun o => x.src o = 0
  else match op with
    | 0x50 | 0x52 => [0, 3] | 0x51 => [0, 1, 3] | 0x53 | 0x54 | 0x55 | 0x56 | 0x5B => [0]
    | 0x57 => if bit (x.param 0x2D 6) 3 then [0] else []
    | 0x58 | 0x59 => [] | 0x5A => [0, 1]
    | 0x60 => [3] | 0x61 | 0x62 | 0x67 => [0, 3] | 0x63 => [0, 1, 3]
    | 0x64 => if (if x.run.isOpen then look 0x300 x.run.held 0x1E else x.param 0x1E 0x300) / 4096 % 16 = 9 then [0, 1, 2, 3] else [0, 1, 3]
    | 0x65 => [] | 0x66 => [0]
    | 0x80 => if x.cy = noConsumer then [0] else [0, 1]
    | 0x81 => if x.cx = noConsumer then [0, 1] else [0, 1, 2]
    | 0x82 => if x.param 0x11 0 / 16 % 16 = 9 then [0, 1, 2] else [0, 1]
    | 0x83 | 0x85 | 0x86 | 0x87 => [0] | 0x84 => [0, 1, 2]
    | 0x90 => (List.range (x.param 0x15 0x7F90 / 16 % 4))
    | 0x91 => if bit (x.param 0x15 0x7F90) 3 then [0, 1] else [0]
    | 0x92 | 0x93 | 0x94 => [0]
    | 0xA0 => [0, 3] | 0xA1 => [0] | 0xA2 | 0xA3 => [0, 1, 3] | 0xA4 => [0, 1, 2, 3]
    | 0xA5 => [0, 1] | 0xA6 | 0xA7 => [0, 1, 3]
    | 0xB2 => [0, 1, 2, 3] | 0xB0 | 0xB1 => [0, 1, 3]
    | 0xC8 | 0xCA => (List.range 4).filter fun o => bit (x.param 0x10 0) (7 * o + 6)
    | 0xCC | 0xCF => [0]
    | _ => []

end Sys2Proof.Machine
end

