-- ==== Sys2Proof/Machine/Fabric.lean ====
section
/-! DEFINITION. Beats in the fabric: coming turns, delivery to ports, routes and edges, result queues,
taking beats, actor counters (R54, R55, R73, R100-R104, R162-R164, R411). -/

namespace Sys2Proof.Machine

/-- A beat poisoned, its KIND kept (R8, R91). -/
def Beat.poison (b : Beat) : Beat := { kind := b.kind, poi := true }
/-- Poison in place of a beat (R54). -/
def poisonBeat : Beat := { poi := true }
/-- A LOOPEND of dimension d (R53). -/
def loopBeat (d : Nat) : Beat := { data := wd d, kind := .loopend }
/-- The dimension of a LOOPEND (R53). -/
def Beat.dim (b : Beat) : Nat := bits b.data 0 3
/-- A beat is a LOOPEND. -/
def Beat.isLoop (b : Beat) : Bool := b.kind == .loopend && !b.cfg

/-- A beat joins a channel: a CAPLO without its CAPHI, or a CAPHI alone, becomes a poisoned DATA beat; a
pair with one beat poisoned is poisoned whole (R55). -/
def joinBeat (l : List Arrived) (a : Arrived) : List Arrived :=
  let hi := a.beat.kind = .caphi && !a.beat.cfg
  match l.getLast? with
  | some c =>
    if c.beat.kind = .caplo && !c.beat.cfg then
      if hi then
        if c.beat.poi || a.beat.poi then
          l.dropLast ++ [{ c with beat := c.beat.poison }, { a with beat := a.beat.poison }]
        else l ++ [a]
      else l.dropLast ++ [{ c with beat := poisonBeat }, a]
    else l ++ [if hi then { a with beat := poisonBeat } else a]
  | none => [if hi then { a with beat := poisonBeat } else a]

/-- The beats of a port that may be taken: a CAPLO waits for its successor (R55, R131). -/
def avail (l : List Arrived) : List Arrived :=
  match l.getLast? with
  | some c => if c.beat.kind = .caplo && !c.beat.cfg then l.dropLast else l
  | none => l

/-- The data beat at the head of a port that may be taken now. -/
def headBeat (l : List Arrived) : Option Beat :=
  match avail l with
  | a :: _ => if a.beat.cfg then none else some a.beat
  | [] => none

/-- The first k beats of a port, if all have come and none is a configuration word (R101, R109). -/
def firstBeats (l : List Arrived) (k : Nat) : Option (List Beat) :=
  let t := (avail l).take k
  if t.length = k && t.all (fun a => !a.beat.cfg) then some (t.map (·.beat)) else none

/-- The first k units of a port, a capability pair being one (R131), with the beats they span. -/
def firstUnits : Nat → List Arrived → Option (List (List Beat))
  | 0, _ => some []
  | k + 1, a :: b :: t =>
    if a.beat.cfg then none
    else if a.beat.kind = .caplo then (firstUnits k t).map ([a.beat, b.beat] :: ·)
    else (firstUnits k (b :: t)).map ([a.beat] :: ·)
  | k + 1, [a] => if a.beat.cfg || a.beat.kind = .caplo || k ≠ 0 then none else some [[a.beat]]
  | _ + 1, [] => none

/-- The position of the first configuration word of a port. -/
def firstCfg (l : List Arrived) : Option Nat := l.findIdx? fun a => a.beat.cfg

/-- Beats a port's path holds before its producers wait (R73): the spec states no number (log 14). -/
def portRoom : Nat := 1024

/-- Beats that each channel into the matrix node holds: room for the largest operand, a TRN of 255 x 255 blocks (R73, R200; log 14). -/
def nodeRoom : Nat := 2 ^ 24

/-- The edge opposite (0 N, 1 E, 2 S, 3 W). -/
def oppositeEdge (e : Nat) : Nat := (e + 2) % 4
/-- The PERMIT bit of an edge: W, S, E, N from bit 0 (R298). -/
def permitBit (e : Nat) : Nat := 3 - e

/-- The tile across an edge of the layer's mesh, if a compute tile stands there (R16, R17, R19). -/
def meshNeighbour (p e : Nat) : Option Nat :=
  let x := p % 8
  let y := p / 8 % 8
  match e with
  | 0 => if y < 4 then some (p + 8) else none
  | 1 => if x < 6 then some (p + 1) else none
  | 2 => if 1 < y then some (p - 8) else none
  | _ => if 1 < x then some (p - 1) else none

namespace State

/-- A region's firing may come (R100). -/
def wakeRegion (s : State) (g r : Nat) : State :=
  if (look {} (s.group g).regions r).armed then s.postOnce (.evRegionFire g r) else s

/-- An element may have become able to move: its turn, or its region's, comes (R100, R105). -/
def wake (s : State) (p n : Nat) : State :=
  let x := s.slot p n
  if x.st = .empty then s
  else if selfTimed x.op then
    (if s.agenda.contains (.element p n) then s else { s with agenda := s.agenda ++ [.element p n] })
  else s.wakeRegion (s.handleOf p) x.region

/-- A firing, take or emission in a group: it is not still (R228). -/
def moved (s : State) (p : Nat) : State :=
  let h := s.handleOf p
  if (find s.groups h).isNone then s else s.setGroup h { s.group h with lastMove := s.fc }

/-- Every element, channel and configuration word of a group that may go on is given its turn. -/
def nudge (s : State) (h : Nat) : State :=
  (s.group h).tiles.foldl (fun a t =>
    let p := t.2.2
    (a.tile p).slots.foldl (fun b c =>
      let b1 := if c.2.out.isEmpty then b else b.postOnce (.evBeatAdvance p c.1)
      let b2 := if c.2.pipe.isEmpty then b1 else b1.postOnce (.evFiringResult p c.1)
      let b3 := (List.range 4).foldl (fun d o =>
        if (firstCfg (c.2.port o)).isSome then d.postOnce (.evConfigWordApply p c.1 o) else d) b2
      b3.wake p c.1) a) s

/-- The L1 generation of a group's context rises at every port tile its Chart maps (R268). -/
def raisePorts (s : State) (h : Nat) : State :=
  let g := s.group h
  g.ports.foldl (fun a e => { a with l1gen := upd 0 a.l1gen (e.2 * 128 + g.ctx) (· + 1) }) s

/-! ## Actor counters (R102, R330) -/

/-- The channels from region r to region q, with their counters changed (log 88). -/
def bumpActor (f : Actor → Actor) (r q : Nat) (l : List Actor) : List Actor :=
  l.map fun a => if a.producer = r && a.consumer = q then f a else a

/-- A beat from region r has arrived at region q: TC rises (R102). -/
def countArrived (s : State) (h r q : Nat) : State :=
  let g := s.group h
  if g.actors.isEmpty then s
  else s.setGroup h { g with actors := bumpActor (fun a => { a with tc := a.tc + 1 }) r q g.actors }

/-- Region q has taken a beat from region r: FS rises (R102). -/
def countTaken (s : State) (h r q : Nat) : State :=
  let g := s.group h
  if g.actors.isEmpty then s
  else (s.setGroup h { g with actors := bumpActor (fun a => { a with fs := a.fs + 1 }) r q g.actors }).wakeRegion h r

/-! ## Ports -/

/-- Leading data beats at ports an armed element does not read are discarded and counted (R104), those at a port that a
constant feeds too (log 89). -/
def settlePort (s : State) (p n o : Nat) : State :=
  let x := s.slot p n
  let l := x.port o
  if !x.live || x.reads.contains o then s
  else
    let rest := l.dropWhile fun a => !a.beat.cfg
    let gone := l.take (l.length - rest.length)
    if gone.isEmpty then s
    else gone.foldl (fun (a : State) b => (a.countTaken (s.handleOf p) b.region x.region).countError (s.handleOf p))
      (s.setSlot p n (x.setPort o rest))

/-- A beat reaches port o of slot n (R73, R104). -/
def joinPort (s : State) (p n o : Nat) (a : Arrived) : State :=
  let x := s.slot p n
  let s1 := s.setSlot p n (x.setPort o (joinBeat (x.port o) a))
  let s2 := s1.countArrived (s.handleOf p) a.region x.region
  ((if a.beat.cfg then s2.postOnce (.evConfigWordApply p n o) else s2).settlePort p n o).wake p n

/-- Beats of port o are taken: k from its head; room is made and a word behind them may apply. -/
def takeFrom (s : State) (p n o k : Nat) : State :=
  if k = 0 then s
  else
    let x := s.slot p n
    let l := x.port o
    let h := s.handleOf p
    let s1 := s.setSlot p n (x.setPort o (l.drop k))
    let s2 := (l.take k).foldl (fun a b => a.countTaken h b.region x.region) s1
    let s3 := if portRoom ≤ l.length then s2.nudge h else s2
    let s4 := match l.drop k with
      | b :: _ => if b.beat.cfg then s3.postOnce (.evConfigWordApply p n o) else s3
      | [] => s3
    s4.moved p

/-! ## Edges (R162-R164, R302, R411, R414) -/

/-- The logical neighbour across an edge of a tile of a group (R341). -/
def logicalNeighbour (s : State) (p e : Nat) : Option Nat :=
  let t := s.tile p
  let tgt : Option (Nat × Nat) := match e with
    | 0 => some (t.col, t.row + 1)
    | 1 => some (t.col + 1, t.row)
    | 2 => if t.row = 0 then none else some (t.col, t.row - 1)
    | _ => if t.col = 0 then none else some (t.col - 1, t.row)
  match tgt with
  | some (c, r) => ((s.group (s.handleOf p)).tiles.find? fun x => x.1 = c && x.2.1 = r).map (·.2.2)
  | none => none

/-- The seam links between two tiles carry, UCIe modules too where the stacks differ (R341, R414). -/
def seamCarries (s : State) (p q : Nat) : Bool :=
  layerOfTile p = layerOfTile q ||
    (s.linkOpen (layerOfTile p) && s.linkOpen (layerOfTile q) && s.pathOpen (stackOfTile p) (stackOfTile q))

/-- Traffic between two tiles on different layers of a group may cross (R337, R341): its links carry, and a cut kernel has
started. -/
def seamOpen (s : State) (p q : Nat) : Bool :=
  layerOfTile p = layerOfTile q ||
    (s.seamCarries p q &&
     (!(s.group (s.handleOf p)).straddle || (s.group (s.handleOf p)).started))

/-- A beat offered to outbound channel c of edge e: none when it must wait, else the state with it sent,
or held for ever at an edge it may not cross (R164); a tile that is not enabled has no link (R409). -/
def sendEdge (s : State) (p e c : Nat) (a : Arrived) : Option State :=
  let key := 8 * e + c
  let t := s.tile p
  if (find t.edgeHeld key).isSome then none
  else
    let tgt := match s.logicalNeighbour p e with
      | some q => some q
      | none => (meshNeighbour p e).filter fun q => !s.dis.contains q
    match tgt with
    | none => some ((s.setTile p { t with edgeHeld := put t.edgeHeld key a }).countError (s.handleOf p))
    | some q =>
      if layerOfTile p = layerOfTile q && !t.permit.getLsbD (permitBit e) then
        some ((s.setTile p { t with edgeHeld := put t.edgeHeld key a }).countError (s.handleOf p))
      else if !s.seamOpen p q then none
      else
        let k := 8 * oppositeEdge e + c
        let l := look [] (s.tile q).inch k
        if portRoom ≤ l.length then none
        else some ((s.setTile q { s.tile q with inch := put (s.tile q).inch k (joinBeat l { a with src := 64 }) }).wake
          q (60 + oppositeEdge e))

/-- A beat sent to port o of an edge slot: its EOUT channel, or discarded and counted (R162). -/
def sendPort (s : State) (p e o : Nat) (a : Arrived) : Option State :=
  let m := (s.slot p (60 + e)).param 0x12 0 / 2 ^ (4 * o) % 16
  if m < 8 then some (s.countError (s.handleOf p)) else s.sendEdge p e (m % 8) a

/-- The channel that brings a beat from slot `src` to port o of slot n is full (R73; log 14). -/
def fullPort (s : State) (p n o src : Nat) : Bool :=
  let l := (s.slot p n).port o
  if n = 56 then nodeRoom ≤ (l.filter fun a => a.src = src).length else portRoom ≤ l.length

/-- The tile whose slot stands for slot n of tile p: the left one for the 64-fold element of a PAIR block, whose copies 32 to
63 stand in the right one (R48). -/
def wideTile (s : State) (p n : Nat) : Nat :=
  let t := s.tile p
  if n ≠ 0 || !t.pair || (s.slot p 0).st ≠ .empty then p
  else
    let g := s.group (s.handleOf p)
    match (g.image.blocks.find? fun b => b.pair && b.col + 1 = t.col && b.row = t.row).bind fun b =>
        g.tiles.find? fun q => q.1 = b.col && q.2.1 = b.row with
    | some q => if (s.slot q.2.2 0).copies = 64 then q.2.2 else p
    | none => p

/-- A beat offered to port o of slot n of a tile; none when the path is full. -/
def offerPort (s : State) (p n o : Nat) (a : Arrived) : Option State :=
  if 60 ≤ n then s.sendPort p (n - 60) o a
  else
    let q := s.wideTile p n
    if s.fullPort q n o a.src then none else some (s.joinPort q n o a)

/-- The first hop of a laid path that it may not take: an edge whose permit bit is clear (R164, R411). -/
def closedHop (s : State) (path : List (Nat × Nat × Nat)) : Option (Nat × Nat × Nat) :=
  path.find? fun t => !(s.tile t.1).permit.getLsbD (permitBit t.2.1)

/-- A packet of a tile's context may take the router ports of its route: no tile of that context whose permit bit is
clear (R302, R411). -/
def netOpen (s : State) (p : Nat) (net : List Nat) : Bool :=
  net.all fun k => 2048 ≤ k / 16 || 4 ≤ k % 16 || (s.tile (k / 16)).owner ≠ (s.tile p).owner ||
    (s.tile (k / 16)).permit.getLsbD (permitBit (k % 16))

/-- A beat offered to a route: it goes by the path that was laid, and one that may not cross an edge of it is held there
and counted (R164). -/
def offerRoute (s : State) (p : Nat) (r : Route) (a : Arrived) : Option State :=
  if r.tile = p then s.offerPort r.tile r.slot r.port a
  else match s.closedHop r.path with
    | some (q, e, c) =>
      let t := s.tile q
      if (find t.edgeHeld (8 * e + c)).isSome then none
      else some ((s.setTile q { t with edgeHeld := put t.edgeHeld (8 * e + c) a }).countError (s.handleOf p))
    | none =>
      if s.netOpen p r.net && s.seamOpen p r.tile then s.offerPort r.tile r.slot r.port { a with src := 64 } else none

/-- A beat offered to a consumer field of tile p (R47, R71, R73, R164). -/
def offer (s : State) (p : Nat) (dest : BitVec 9) (a : Arrived) : Option State :=
  let f := dest.toNat
  if f = 0x1FF then some s
  else if f % 8 = 7 then
    match find (s.tile p).routes (f / 8) with
    | none => some s
    | some r => s.offerRoute p r a
  else s.offerPort p (f / 8) (f % 8) a

/-- The tile a consumer field leads to across a group's routes or edges (R164, R341). -/
def destTile (s : State) (p : Nat) (dest : BitVec 9) : Option Nat :=
  let f := dest.toNat
  if f = 0x1FF then none
  else if f % 8 = 7 then (find (s.tile p).routes (f / 8)).map (·.tile)
  else if 60 ≤ f / 8 then s.logicalNeighbour p (f / 8 - 60)
  else none

/-- The hops of the control network between two tiles of a group, by their logical places (R21, R336). -/
def controlHops (s : State) (p q : Nat) : Nat :=
  let a := s.tile p
  let b := s.tile q
  (a.col - b.col) + (b.col - a.col) + (a.row - b.row) + (b.row - a.row)

/-! ## Result queues (R100, R101, R108) -/

/-- A result is issued by slot n, to emerge at fc `due`. -/
def emitAt (s : State) (p n due : Nat) (dest : BitVec 9) (b : Beat) : State :=
  if dest = noConsumer then s
  else
    let x := s.slot p n
    (s.setSlot p n { x with pipe := x.pipe ++ [{ due, dest, beat := b }] }).postOnce (.evFiringResult p n)

/-- A result placed in the result queue at once. -/
def emitNow (s : State) (p n : Nat) (dest : BitVec 9) (b : Beat) : State :=
  if dest = noConsumer then s
  else
    let x := s.slot p n
    ((s.setSlot p n { x with out := x.out ++ [(dest, b)] }).postOnce (.evBeatAdvance p n)).moved p

/-- Beats placed in the result queue at once. -/
def emitAll (s : State) (p n : Nat) (dest : BitVec 9) (bs : List Beat) : State :=
  bs.foldl (fun a b => a.emitNow p n dest b) s

/-- Entries of the result queue for a consumer, those still in the pipeline included (R101). -/
def queued (x : Slot) (dest : BitVec 9) : Nat :=
  (x.pipe.filter fun i => i.dest = dest).length + (x.out.filter fun o => o.1 = dest).length

/-- A firing's results have a free entry: Lat + 2 beats for each copy (R101, R109). -/
def hasRoom (x : Slot) (lat : Nat) : Bool :=
  (x.cx = noConsumer || queued x x.cx + x.copies ≤ x.copies * (lat + 2)) &&
  (x.cy = noConsumer || queued x x.cy + x.copies ≤ x.copies * (lat + 2))

/-- A self-timed element's output to a consumer has room (R105): two beats wait at most before it stands. -/
def roomFor (x : Slot) (dest : BitVec 9) : Bool := dest = noConsumer || queued x dest < 2

/-- Both outputs have room. -/
def freeOut (x : Slot) : Bool := roomFor x x.cx && roomFor x x.cy

/-- Between two states of a slot, what was sent went to outputs with room (R105). -/
def sentWhereFree (x y : Slot) : Bool :=
  [x.cx, x.cy].all fun d => roomFor x d || queued y d ≤ queued x d

/-- The beats that go together at the head of a result queue for a consumer: one, or a capability pair; a CAPLO waits
for what follows it (R55). -/
def headOut (x : Slot) (dest : BitVec 9) : List Beat :=
  match (x.out.filter fun o => o.1 = dest).map (·.2) with
  | [] => []
  | [a] => if a.kind = .caplo && !a.cfg then [] else [a]
  | a :: b :: _ => if a.kind = .caplo && !a.cfg && b.kind = .caphi && !b.cfg then [a, b] else [a]

/-- Beats offered to a consumer one behind another, all or none (R55). -/
def offerAll (s : State) (p : Nat) (dest : BitVec 9) (n region : Nat) (bs : List Beat) : Option State :=
  bs.foldl (fun (a : Option State) b => a.bind fun t => t.offer p dest { beat := b, src := n, region }) (some s)

/-- The head of a result queue advances to a consumer, if there is room (R55, R73). -/
def advanceTo (s : State) (p n : Nat) (dest : BitVec 9) : State :=
  let x := s.slot p n
  let bs := headOut x dest
  if bs.isEmpty then s
  else match s.offerAll p dest n x.region bs with
    | none => s
    | some s1 =>
      let y := s1.slot p n
      ((s1.setSlot p n { y with out := bs.foldl (fun l b => l.erase (dest, b)) y.out }).moved p).wake p n

end State

/-- FIRING_RESULT (R100): the results of slot n that are due join its result queue, in firing order. -/
def execEvFiringResult (p n : Nat) (s : State) : Result :=
  .next (
    let x := s.slot p n
    if x.held then s
    else
      let due := x.pipe.takeWhile fun i => i.due ≤ s.fc
      let s1 := s.setSlot p n { x with pipe := x.pipe.drop due.length,
                                       out := x.out ++ due.map fun i => (i.dest, i.beat) }
      let s2 := if due.isEmpty then s1 else (s1.postOnce (.evBeatAdvance p n)).moved p
      if due.length = x.pipe.length then s2 else s2.postOnce (.evFiringResult p n))

/-- BEAT_ADVANCE (R73): one beat for each consumer of slot n advances and is taken in by its port. -/
def execEvBeatAdvance (p n : Nat) (s : State) : Result :=
  .next (
    let x := s.slot p n
    if x.held || x.st = .parked || x.out.isEmpty then s
    else
      let dests := (x.out.map (·.1)).eraseDups
      let s1 := dests.foldl (fun a d => a.advanceTo p n d) s
      if (s1.slot p n).out.isEmpty || (s1.slot p n).out.length = x.out.length then s1
      else s1.postOnce (.evBeatAdvance p n))

/-- The beat that 64 data bits and 8 sideband bits carry, if it is valid (R53, R54). -/
def beatOf (v : Word) (b : BitVec 8) : Option Beat :=
  let n := b.toNat
  let cfg := bit n 6
  let kindNo := n / 8 % 8
  let kind : Kind := match kindNo with
    | 0 => .data | 1 => .head | 2 => .tail | 3 => .solo | 4 => .loopend | 5 => .caplo | _ => .caphi
  let ones := popcN 64 v.toNat + popcN 8 n
  if ones % 2 = 1 || bit n 0 || kindNo = 7 || (cfg && kindNo != 0 && kindNo != 2) || (bit n 2 && kindNo != 5) ||
    (kindNo == 4 && !cfg && (bits v 3 61 != 0 || 5 < bits v 0 3)) then none
  else some { data := v, kind, cfg, tag := bit n 2, poi := bit n 1 }

/-- BEAT_INVALID (R54): the switch on inbound channel c of edge e of a tile receives 72 bits; an invalid
beat goes on as a poisoned DATA beat and is counted in the link's error counter. -/
def execEvBeatInvalid (p e c : Nat) (v : Word) (b : BitVec 8) (s : State) : Result :=
  .next (
    let t := s.tile p
    let k := 8 * e + c
    let l := look [] t.inch k
    let count := look 0 t.meshErr e
    match beatOf v b with
    | some a => (s.setTile p { t with inch := put t.inch k (joinBeat l { beat := a }) }).wake p (60 + e)
    | none =>
      (s.setTile p { t with inch := put t.inch k (joinBeat l { beat := poisonBeat }),
                            meshErr := put t.meshErr e (if count = 0xFFFF then count else count + 1) }).wake
        p (60 + e))

end Sys2Proof.Machine
end

