-- ==== Sys2Proof/Machine/Compute.lean ====
section
/-! DEFINITION. Word elements that fire in their region: the firing rules and every computation of one beat
per operand (R107-R126). -/

namespace Sys2Proof.Machine

/-- What an element computes with: its slot, its formats and its mode (R83, R87, R106). -/
structure Env where
  x : Slot
  fmt : Fmt
  out : Fmt
  fmts : List Fmt
deriving DecidableEq, Repr

/-- The formats of an element; OUTF is FSEL until a word sets it, for every operation (R106, log 106). -/
def Tile.env (t : Tile) (x : Slot) : Env :=
  { x, fmt := t.fmt x.fsel, out := t.fmt (x.param 0x11 x.fsel), fmts := (List.range 8).map t.fmt }

/-- What one copy computes from its operands: the beats for CX and CY, the lane flags, a value lost, and
the generator (R89, R108). -/
structure Computed where
  x : Nat := 0
  y : Nat := 0
  flags : Nat := 0
  poi : Bool := false
  gen : BitVec 32 := 0
deriving DecidableEq, Repr

/-- A computation of one copy. -/
abbrev Compute := Env → BitVec 32 → List Nat → Computed

/-- A result for both consumers. -/
def Computed.both (v : Nat) (gen : BitVec 32) : Computed := { x := v, y := v, gen }

/-! ## Firing (R101, R107-R109, R111) -/

/-- The operand beat of port o for copy k (R107, R109). -/
def operandBeat (x : Slot) (o k : Nat) : Beat :=
  if x.op < 0x50 && x.src o ≠ 0 then { data := x.const (x.src o - 1) }
  else ((x.port o).getD k {}).beat

/-- The result of a poisoned or odd firing: the KIND of the first port's beat (R111). -/
def framedPoison (k : Kind) : Beat := { kind := k, poi := true }

/-- The KIND a result carries (R111, R92). -/
def resultKind (k : Kind) : Kind :=
  match k with
  | .caplo | .caphi | .loopend => .data
  | k => k

/-- What one copy of a firing sends to CX and CY, and its generator. -/
structure Sent where
  x : Beat := {}
  y : Beat := {}
  gen : BitVec 32 := 0
deriving DecidableEq, Repr

/-- What the beats of a firing are with respect to LOOPENDs (R111): none is one, all are of one dimension, or not. -/
inductive LoopEnds where
  | none | same | mixed
deriving DecidableEq, Repr

/-- The beats that a firing takes, over all copies, judged (R111). -/
def LoopEnds.of (l : List Beat) : LoopEnds :=
  if !l.any Beat.isLoop then .none
  else if l.all fun b => b.isLoop && b.dim = (l.headD {}).dim then .same else .mixed

/-- The LOOPEND that a copy sends for those it took: poisoned when one of them is (R91, R111). -/
def loopResult (l : List Beat) : Beat :=
  let r := loopBeat (l.headD {}).dim
  if l.any (·.poi) then r.poison else r

/-- One copy of a firing under R111 and R108: `ends` judges the beats of all copies, `from_` holds this copy's beats from
ports, first port first. Every copy sends a beat for a LOOPEND or a mismatch (log 86); the generator does not step for a
firing with a poisoned operand, of which nothing is computed (log 87). -/
def fireCopy (e : Env) (f : Compute) (gen : BitVec 32) (ends : LoopEnds) (from_ operands : List Beat) : Sent :=
  let flagOut := e.x.op < 0x50 && e.x.param 0x14 0 == 1
  let kind := match from_ with
    | b :: _ => b.kind
    | [] => .data
  if ends = .same then { x := loopResult from_, y := loopResult from_, gen }
  else if ends = .mixed then
    { x := framedPoison kind, y := if flagOut then poisonBeat else framedPoison kind, gen }
  else if operands.any (·.poi) then
    { x := framedPoison (resultKind kind), y := if flagOut then poisonBeat else framedPoison (resultKind kind),
      gen }
  else
    let c := f e gen (operands.map fun b => b.data.toNat)
    if c.poi then
      { x := framedPoison (resultKind kind), y := if flagOut then poisonBeat else framedPoison (resultKind kind),
        gen := c.gen }
    else { x := { data := wd c.x, kind := resultKind kind },
           y := if flagOut then { data := wd c.flags } else { data := wd c.y, kind := resultKind kind },
           gen := c.gen }

namespace State

/-- The slot an element instruction acts on bears that instruction's word (R46, R98). -/
def bearing (s : State) (op : Nat) (a : ElemArgs) : State :=
  let x := s.slot s.curTile s.curSlot
  s.setSlot s.curTile s.curSlot { x with word := BitVec.ofNat 32 (op * 2 ^ 24 + a.bits) }

/-- The slot an element instruction acts on. -/
def el (s : State) : Slot := s.slot s.curTile s.curSlot

/-- No port of a slot has a configuration word at its head (R101). -/
def noWord (x : Slot) : Bool :=
  (List.range 4).all fun o => match x.port o with
    | a :: _ => !a.beat.cfg
    | [] => true

/-- A region-timed element can fire: every port it reads has its beats, no word stands at a head, and its
result queue has room (R101). -/
def fires (x : Slot) : Bool :=
  x.live && noWord x && hasRoom x (latOf x.op) && x.reads.all fun o =>
    if x.op == 0x53 then (firstUnits x.copies (x.port o)).isSome else (firstBeats (x.port o) x.copies).isSome

/-- The errors of a firing counted (R111). -/
def countErrors (s : State) (p k : Nat) : State :=
  (List.range k).foldl (fun a _ => a.countError (s.handleOf p)) s

/-- A firing of a word element by every copy in order: results issue, beats are taken (R100, R109). -/
def fireWith (s : State) (f : Compute) (ports : List Nat) : State :=
  let p := s.curTile
  let n := s.curSlot
  let x := s.el
  let e := (s.tile p).env x
  let ends := LoopEnds.of ((List.range x.copies).flatMap fun k => x.reads.map fun o => operandBeat x o k)
  let sent := (List.range x.copies).map fun k =>
    fireCopy e f (x.gen k) ends (x.reads.map fun o => operandBeat x o k) (ports.map fun o => operandBeat x o k)
  let s1 := s.setSlot p n { x with
    gens := (List.range x.copies).foldl (fun t k => if x.round = .sr then put t k (sent.getD k {}).gen else t) x.gens }
  let s2 := x.reads.foldl (fun a o => a.takeFrom p n o x.copies) s1
  let s3 := sent.foldl (fun a r => (a.emitAt p n (s.fc + latOf x.op) x.cx r.x).emitAt p n (s.fc + latOf x.op) x.cy r.y) s2
  (s3.countErrors p (if ends = .mixed then 1 else 0)).moved p

/-- The firing of operation op (R100): nothing happens while it must hold (R101). -/
def fire (s : State) (op : Nat) (a : ElemArgs) (f : Compute) : State :=
  if (s.el).st = .empty then s
  else
    let s1 := s.bearing op a
    if fires s1.el then s1.fireWith f (if op < 0x50 then wordReads op else s1.el.reads) else s1

end State

/-! ## Lanes -/

/-- The value of an integer lane (R112). -/
def Fmt.int (m : Fmt) (v : Nat) : Int := if m.signed then sext v m.w else (v % 2 ^ m.w : Nat)
/-- Wrap (R112). -/
def wrapLane (w : Nat) (i : Int) : Nat := (i % 2 ^ w).toNat
/-- Sat (R112). -/
def Fmt.sat (m : Fmt) (i : Int) : Int × Bool := if m.signed then satSigned i m.w else satUnsigned i m.w
/-- The value of a floating lane, under DAZ (R78, R112). -/
def Fmt.val (m : Fmt) (v : Nat) : FVal := m.fl.decode m.b.daz v

/-- A computation lane by lane, without rounding (R112). -/
def perLane (f : Env → List Nat → Nat × Bool) : Compute := fun e gen ops =>
  let r := (List.range (64 / e.fmt.w)).map fun k => f e (ops.map fun d => laneOf e.fmt.w d k)
  let v := packLanes e.fmt.w (r.map (·.1))
  { x := v, y := v, flags := packLanes 1 (r.map fun q => b2n q.2), gen }

/-- Results rounded lane by lane: the generator steps once for each in mode SR (R89). -/
def roundLanes (mode : RMode) (f : Nat → Nat → Nat × Bool) : List Nat → BitVec 32 → List (Nat × Bool) × BitVec 32
  | [], gen => ([], gen)
  | k :: t, gen =>
    let g := if mode = .sr then stepGen gen else gen
    let r := roundLanes mode f t g
    (f k g.toNat :: r.1, r.2)

/-- A computation lane by lane whose results are rounded (R115, R117). -/
def perRounded (f : RMode → List FVal → Exact) : Compute := fun e gen ops =>
  let r := roundLanes e.x.round
    (fun k rnd => (e.fmt.fl.roundExact e.fmt.b e.x.round rnd
      (f e.x.round (ops.map fun d => e.fmt.val (laneOf e.fmt.w d k))), false))
    (List.range (64 / e.fmt.w)) gen
  Computed.both (packLanes e.fmt.w (r.1.map (·.1))) r.2

/-- An integer lane computation on values, wrapping (R113). -/
def intLane (f : List Int → Int) : Compute := perLane fun e v => (wrapLane e.fmt.w (f (v.map e.fmt.int)), false)
/-- An integer lane computation that saturates, with its flag (R113). -/
def satLane (f : List Int → Int) : Compute := perLane fun e v =>
  let r := e.fmt.sat (f (v.map e.fmt.int))
  (wrapLane e.fmt.w r.1, r.2)
/-- A computation on lane patterns (R120, R121). -/
def rawLane (f : Nat → List Nat → Nat) : Compute := perLane fun e v => (f e.fmt.w v % 2 ^ e.fmt.w, false)
/-- A computation on whole beats (R120). -/
def wholeBeat (f : List Nat → Nat) : Compute := fun _ gen ops => Computed.both (f ops % 2 ^ 64) gen

/-- Operand i. -/
def arg {α : Type} (d : α) (v : List α) (i : Nat) : α := v.getD i d

/-- Division by lanes (R114). -/
def divLane (rem : Bool) : Compute := perLane fun e v =>
  let d := if e.fmt.signed then divSigned e.fmt.w (arg 0 v 0) (arg 0 v 1) else divUnsigned e.fmt.w (arg 0 v 0) (arg 0 v 1)
  (if rem then d.rem else d.quo, d.flag)

/-- The shift amount of a lane (R120). -/
def shiftOf (w : Nat) (v : List Nat) : Nat := arg 0 v 1 % w

/-- A comparison (R118): `f` for ordered values, by the sign of a - b; `un` when an operand is NaN. -/
def compareLane (f : Int → Bool) (un : Bool) : Compute := perLane fun e v =>
  let yes := if e.fmt.kind = .float || e.fmt.kind = .e then
      (let a := e.fmt.val (arg 0 v 0)
       let b := e.fmt.val (arg 0 v 1)
       if a.isNan || b.isNan then un else f (a.cmp b))
    else f (e.fmt.int (arg 0 v 0) - e.fmt.int (arg 0 v 1))
  (if yes then 2 ^ e.fmt.w - 1 else 0, false)

/-- A floating code as it is read under DAZ (R78). -/
def Fmt.read (m : Fmt) (c : Nat) : Nat :=
  if m.b.daz && c / 2 ^ m.fl.f % 2 ^ m.fl.e = 0 then m.fl.signBit (bit c (m.fl.e + m.fl.f)) else c
/-- A result flushed under FTZ (R78). -/
def Fmt.flush (m : Fmt) (c : Nat) : Nat :=
  if m.b.ftz && c / 2 ^ m.fl.f % 2 ^ m.fl.e = 0 then m.fl.signBit (bit c (m.fl.e + m.fl.f)) else c

/-- minimumNumber and maximumNumber on codes (R116). -/
def Fmt.pick (m : Fmt) (greater : Bool) (a b : Nat) : Nat :=
  let x := m.fl.decode false a
  let y := m.fl.decode false b
  if x.isNan && y.isNan then m.fl.nanCode
  else if x.isNan then b
  else if y.isNan then a
  else
    let c := x.cmp y
    if c = 0 then (if x.neg = greater then b else a)
    else if (0 < c) = greater then a else b

/-- fmin and fmax of two lanes (R116). -/
def pickLane (greater : Bool) : Compute := perLane fun e v =>
  (e.fmt.flush (e.fmt.pick greater (e.fmt.read (arg 0 v 0)) (e.fmt.read (arg 0 v 1))), false)

/-- fneg and fabs of a lane (R116). -/
def signLane (clear : Bool) : Compute := perLane fun e v =>
  let c := e.fmt.read (arg 0 v 0)
  let s := e.fmt.fl.e + e.fmt.fl.f
  if (e.fmt.fl.decode false c).isNan then (e.fmt.fl.nanCode, false)
  else (e.fmt.flush (if clear then c % 2 ^ s else if bit c s then c % 2 ^ s else c + 2 ^ s), false)

/-- The class of a value (R119). -/
def classBit (m : Fmt) (c : Nat) : Nat :=
  let neg := bit c (m.fl.e + m.fl.f)
  match m.val c with
  | .nan q => if q then 1 else 0
  | .inf n => if n then 2 else 9
  | .zero n => if n then 5 else 6
  | .fin _ _ =>
    if c / 2 ^ m.fl.f % 2 ^ m.fl.e = 0 then (if neg then 4 else 7) else (if neg then 3 else 8)

/-! ## Conversions (R90, R122, R123) -/

/-- Bits of precision. -/
def FloatFmt.prec (m : FloatFmt) : Nat := m.f + 1
/-- Exponent of the smallest subnormal. -/
def FloatFmt.low (m : FloatFmt) : Int := 1 - (m.bias : Int) - m.f
/-- Exponent of the largest finite value. -/
def FloatFmt.high (m : FloatFmt) : Int := ((m.largestCode / 2 ^ m.f : Nat) : Int) - m.bias

/-- Every value of the source is exact in the target, so that nothing rounds (R90). -/
def exactPair (a b : Fmt) : Bool :=
  if a.kind = .bits || b.kind = .bits then true
  else if b.kind = .int then
    a.kind = .int && (if a.signed then b.signed && a.w ≤ b.w else if b.signed then a.w < b.w else a.w ≤ b.w)
  else if a.kind = .int then
    a.w - b2n a.signed ≤ b.fl.prec && ((a.w - 1 : Nat) : Int) ≤ b.fl.high
  else a.fl.prec ≤ b.fl.prec && b.fl.low ≤ a.fl.low && a.fl.high ≤ b.fl.high

/-- A finite exact value converted to a floating target: the code and whether it saturated. -/
def Fmt.fromExact (m : Fmt) (satAll : Bool) (mode : RMode) (rnd : Nat) (x : Exact) : Nat × Bool :=
  let b : FBits := { m.b with sat := m.b.sat || satAll }
  let overs := match x with
    | .dyadic z k => z ≠ 0 && m.fl.exceeds mode rnd (z < 0)
        (if 0 ≤ k then z.natAbs * 2 ^ k.toNat else z.natAbs) (if 0 ≤ k then 1 else 2 ^ (-k).toNat)
    | .inf _ => m.fl.nan ≠ .ieee
    | _ => false
  (m.fl.roundExact b mode rnd x, overs)

/-- One lane converted (R90); the flag of cvts: saturation, or NaN to an integer (R122). -/
def convert (a b : Fmt) (satAll : Bool) (mode : RMode) (rnd : Nat) (c : Nat) : Nat × Bool :=
  if a.kind = .bits || b.kind = .bits then (c % 2 ^ b.w, false)
  else if a.kind = .int then
    let i := a.int c
    if b.kind = .int then ((wrapLane b.w (b.sat i).1), (b.sat i).2)
    else if i = 0 then (0, false) else b.fromExact satAll mode rnd (.dyadic i 0)
  else
    let v := a.val c
    if b.kind = .int then
      match v with
      | .nan _ => (0, true)
      | .inf n => (wrapLane b.w (b.sat (if n then -(2 ^ 70) else 2 ^ 70)).1, true)
      | .zero _ => (0, false)
      | .fin z k => let r := b.sat (roundInt mode rnd z k); (wrapLane b.w r.1, r.2)
    else b.fromExact satAll mode rnd v.exact

/-- Lanes of a beat converted, those from `from_` on; the generator steps unless every value is exact
(R90). -/
def convertLanes (e : Env) (satAll : Bool) (gen : BitVec 32) (lanes : List Nat) : List (Nat × Bool) × BitVec 32 :=
  if exactPair e.fmt e.out then (lanes.map fun c => convert e.fmt e.out satAll .ne 0 c, gen)
  else roundLanes e.x.round (fun c rnd => convert e.fmt e.out satAll e.x.round rnd c) lanes gen

/-- cvt and cvts (R122). -/
def cvtBeat (satAll : Bool) : Compute := fun e gen ops =>
  let n := 64 / Nat.max e.fmt.w e.out.w
  let r := convertLanes e satAll gen ((lanesOf e.fmt.w (arg 0 ops 0)).take n)
  let v := packLanes e.out.w (r.1.map (·.1))
  { x := v, y := v, flags := if satAll then packLanes 1 (r.1.map fun q => b2n q.2) else 0, gen := r.2 }

/-- pack (R123). -/
def packBeat : Compute := fun e gen ops =>
  let r := convertLanes e false gen (lanesOf e.fmt.w (arg 0 ops 0) ++ lanesOf e.fmt.w (arg 0 ops 1))
  Computed.both (packLanes e.out.w (r.1.map (·.1))) r.2

/-- unpack (R123): the lower lanes to CX, the upper ones to CY. -/
def unpackBeat : Compute := fun e gen ops =>
  let n := 64 / e.out.w
  let r := convertLanes e false gen ((lanesOf e.fmt.w (arg 0 ops 0)).take (2 * n))
  { x := packLanes e.out.w ((r.1.take n).map (·.1)), y := packLanes e.out.w ((r.1.drop n).map (·.1)), gen := r.2 }

/-- bcast (R78, R112, R125). -/
def bcastBeat : Compute := fun e gen ops =>
  let c := laneOf e.fmt.w (arg 0 ops 0) (e.x.param 0x15 0)
  let v := if e.fmt.kind = .float || e.fmt.kind = .e then
      (if (e.fmt.val c).isNan then e.fmt.fl.nanCode else e.fmt.flush (e.fmt.read c))
    else c
  Computed.both (packLanes e.fmt.w (List.replicate (64 / e.fmt.w) v)) gen

/-! ## Dot products (R97, R126) -/

/-- The exact sum of products of two beats; none for a reserved .t3 code (R81, R126). -/
def dotSum (m : Fmt) (a b : Nat) : Option Int :=
  if m.kind = .t3 then
    match tritsOfBeat a, tritsOfBeat b with
    | some x, some y => some ((x.zip y).map fun q => q.1 * q.2).sum
    | _, _ => none
  else some (((lanesOf m.w a).zip (lanesOf m.w b)).map fun q => m.int q.1 * m.int q.2).sum

/-- dot and dott (R126). -/
def dotBeat : Compute := fun e gen ops =>
  match dotSum e.fmt (arg 0 ops 0) (arg 0 ops 1) with
  | none => { poi := true, gen }
  | some t =>
    let r := e.out.sat t
    { x := wrapLane e.out.w r.1, y := wrapLane e.out.w r.1, flags := b2n r.2, gen }

/-! ## The operations -/

/-- mov (R113). -/
def execElMov (a : ElemArgs) (s : State) : Result := .next (s.fire 0x00 a (wholeBeat fun v => arg 0 v 0))
/-- add (R113). -/
def execElAdd (a : ElemArgs) (s : State) : Result := .next (s.fire 0x01 a (intLane fun v => arg 0 v 0 + arg 0 v 1))
/-- sub (R113). -/
def execElSub (a : ElemArgs) (s : State) : Result := .next (s.fire 0x02 a (intLane fun v => arg 0 v 0 - arg 0 v 1))
/-- mul (R113). -/
def execElMul (a : ElemArgs) (s : State) : Result := .next (s.fire 0x03 a (intLane fun v => arg 0 v 0 * arg 0 v 1))
/-- mulhi (R113). -/
def execElMulhi (a : ElemArgs) (s : State) : Result :=
  .next (s.fire 0x04 a (perLane fun e v =>
    (wrapLane e.fmt.w (e.fmt.int (arg 0 v 0) * e.fmt.int (arg 0 v 1) / 2 ^ e.fmt.w), false)))
/-- div (R114). -/
def execElDiv (a : ElemArgs) (s : State) : Result := .next (s.fire 0x05 a (divLane false))
/-- rem (R114). -/
def execElRem (a : ElemArgs) (s : State) : Result := .next (s.fire 0x06 a (divLane true))
/-- neg (R113). -/
def execElNeg (a : ElemArgs) (s : State) : Result := .next (s.fire 0x07 a (intLane fun v => -arg 0 v 0))
/-- abs (R113). -/
def execElAbs (a : ElemArgs) (s : State) : Result := .next (s.fire 0x08 a (intLane fun v => ((arg 0 v 0).natAbs : Int)))
/-- min (R113). -/
def execElMin (a : ElemArgs) (s : State) : Result :=
  .next (s.fire 0x09 a (intLane fun v => if arg 0 v 1 < arg 0 v 0 then arg 0 v 1 else arg 0 v 0))
/-- max (R113). -/
def execElMax (a : ElemArgs) (s : State) : Result :=
  .next (s.fire 0x0A a (intLane fun v => if arg 0 v 0 < arg 0 v 1 then arg 0 v 1 else arg 0 v 0))
/-- adds (R113). -/
def execElAdds (a : ElemArgs) (s : State) : Result := .next (s.fire 0x0B a (satLane fun v => arg 0 v 0 + arg 0 v 1))
/-- subs (R113). -/
def execElSubs (a : ElemArgs) (s : State) : Result := .next (s.fire 0x0C a (satLane fun v => arg 0 v 0 - arg 0 v 1))
/-- absd (R113). -/
def execElAbsd (a : ElemArgs) (s : State) : Result :=
  .next (s.fire 0x0D a (intLane fun v => ((arg 0 v 0 - arg 0 v 1).natAbs : Int)))
/-- mad (R113). -/
def execElMad (a : ElemArgs) (s : State) : Result :=
  .next (s.fire 0x0E a (intLane fun v => arg 0 v 0 * arg 0 v 1 + arg 0 v 2))
/-- clamp (R113). -/
def execElClamp (a : ElemArgs) (s : State) : Result :=
  .next (s.fire 0x0F a (intLane fun v =>
    let m := if arg 0 v 0 < arg 0 v 1 then arg 0 v 1 else arg 0 v 0
    if arg 0 v 2 < m then arg 0 v 2 else m))
/-- fma (R115): one rounding. -/
def execElFma (a : ElemArgs) (s : State) : Result :=
  .next (s.fire 0x10 a (perRounded fun m v => ((arg (.nan true) v 0).mul (arg (.nan true) v 1)).add m (arg (.nan true) v 2).exact))
/-- fadd (R115). -/
def execElFadd (a : ElemArgs) (s : State) : Result :=
  .next (s.fire 0x11 a (perRounded fun m v => (arg (.nan true) v 0).exact.add m (arg (.nan true) v 1).exact))
/-- fsub (R115). -/
def execElFsub (a : ElemArgs) (s : State) : Result :=
  .next (s.fire 0x12 a (perRounded fun m v => (arg (.nan true) v 0).exact.add m (arg (.nan true) v 1).negate.exact))
/-- fmul (R115). -/
def execElFmul (a : ElemArgs) (s : State) : Result :=
  .next (s.fire 0x13 a (perRounded fun _ v => (arg (.nan true) v 0).mul (arg (.nan true) v 1)))
/-- fdiv (R115). -/
def execElFdiv (a : ElemArgs) (s : State) : Result :=
  .next (s.fire 0x14 a (perRounded fun _ v => (arg (.nan true) v 0).div (arg (.nan true) v 1)))
/-- fsqrt (R115). -/
def execElFsqrt (a : ElemArgs) (s : State) : Result :=
  .next (s.fire 0x15 a (perRounded fun _ v => (arg (.nan true) v 0).sqrt))
/-- fmin (R116). -/
def execElFmin (a : ElemArgs) (s : State) : Result := .next (s.fire 0x16 a (pickLane false))
/-- fmax (R116). -/
def execElFmax (a : ElemArgs) (s : State) : Result := .next (s.fire 0x17 a (pickLane true))
/-- fneg (R116). -/
def execElFneg (a : ElemArgs) (s : State) : Result := .next (s.fire 0x18 a (signLane false))
/-- fabs (R116). -/
def execElFabs (a : ElemArgs) (s : State) : Result := .next (s.fire 0x19 a (signLane true))
/-- frcp (R117). -/
def execElFrcp (a : ElemArgs) (s : State) : Result :=
  .next (s.fire 0x1A a (perRounded fun _ v => (FVal.fin 1 0).div (arg (.nan true) v 0)))
/-- frsqrt (R117). -/
def execElFrsqrt (a : ElemArgs) (s : State) : Result :=
  .next (s.fire 0x1B a (perRounded fun _ v => (arg (.nan true) v 0).rsqrt))
/-- fexp2 (R117). -/
def execElFexp2 (a : ElemArgs) (s : State) : Result :=
  .next (s.fire 0x1C a (perRounded fun _ v => (arg (.nan true) v 0).exp2))
/-- flog2 (R117). -/
def execElFlog2 (a : ElemArgs) (s : State) : Result :=
  .next (s.fire 0x1D a (perRounded fun _ v => (arg (.nan true) v 0).log2))
/-- fsinpi (R117). -/
def execElFsinpi (a : ElemArgs) (s : State) : Result :=
  .next (s.fire 0x1E a (perRounded fun _ v => (arg (.nan true) v 0).sinpi))
/-- fcospi (R117). -/
def execElFcospi (a : ElemArgs) (s : State) : Result :=
  .next (s.fire 0x1F a (perRounded fun _ v => (arg (.nan true) v 0).cospi))
/-- cmpeq (R118). -/
def execElCmpeq (a : ElemArgs) (s : State) : Result := .next (s.fire 0x20 a (compareLane (· == 0) false))
/-- cmpne (R118). -/
def execElCmpne (a : ElemArgs) (s : State) : Result := .next (s.fire 0x21 a (compareLane (· != 0) true))
/-- cmplt (R118). -/
def execElCmplt (a : ElemArgs) (s : State) : Result := .next (s.fire 0x22 a (compareLane (· < 0) false))
/-- cmple (R118). -/
def execElCmple (a : ElemArgs) (s : State) : Result := .next (s.fire 0x23 a (compareLane (· ≤ 0) false))
/-- cmpun (R118). -/
def execElCmpun (a : ElemArgs) (s : State) : Result := .next (s.fire 0x24 a (compareLane (fun _ => false) true))
/-- sel (R118). -/
def execElSel (a : ElemArgs) (s : State) : Result :=
  .next (s.fire 0x25 a (perLane fun _ v => (if arg 0 v 2 ≠ 0 then arg 0 v 0 else arg 0 v 1, false)))
/-- class (R119). -/
def execElClass (a : ElemArgs) (s : State) : Result :=
  .next (s.fire 0x26 a (perLane fun e v => (2 ^ classBit e.fmt (arg 0 v 0), false)))
/-- and (R120). -/
def execElAnd (a : ElemArgs) (s : State) : Result := .next (s.fire 0x28 a (wholeBeat fun v => arg 0 v 0 &&& arg 0 v 1))
/-- or (R120). -/
def execElOr (a : ElemArgs) (s : State) : Result := .next (s.fire 0x29 a (wholeBeat fun v => arg 0 v 0 ||| arg 0 v 1))
/-- xor (R120). -/
def execElXor (a : ElemArgs) (s : State) : Result := .next (s.fire 0x2A a (wholeBeat fun v => arg 0 v 0 ^^^ arg 0 v 1))
/-- not (R120). -/
def execElNot (a : ElemArgs) (s : State) : Result := .next (s.fire 0x2B a (wholeBeat fun v => 2 ^ 64 - 1 - arg 0 v 0 % 2 ^ 64))
/-- shl (R120). -/
def execElShl (a : ElemArgs) (s : State) : Result :=
  .next (s.fire 0x2C a (rawLane fun w v => arg 0 v 0 * 2 ^ shiftOf w v))
/-- shr (R120). -/
def execElShr (a : ElemArgs) (s : State) : Result :=
  .next (s.fire 0x2D a (rawLane fun w v => arg 0 v 0 / 2 ^ shiftOf w v))
/-- sar (R120). -/
def execElSar (a : ElemArgs) (s : State) : Result :=
  .next (s.fire 0x2E a (rawLane fun w v => asrN w (arg 0 v 0) (shiftOf w v)))
/-- rol (R120). -/
def execElRol (a : ElemArgs) (s : State) : Result :=
  .next (s.fire 0x2F a (rawLane fun w v => arg 0 v 0 * 2 ^ shiftOf w v + arg 0 v 0 / 2 ^ (w - shiftOf w v)))
/-- clz (R121). -/
def execElClz (a : ElemArgs) (s : State) : Result := .next (s.fire 0x30 a (rawLane fun w v => clzN w (arg 0 v 0)))
/-- ctz (R121). -/
def execElCtz (a : ElemArgs) (s : State) : Result := .next (s.fire 0x31 a (rawLane fun w v => ctzN w (arg 0 v 0)))
/-- popc (R121). -/
def execElPopc (a : ElemArgs) (s : State) : Result := .next (s.fire 0x32 a (rawLane fun w v => popcN w (arg 0 v 0)))
/-- bilv (R121). -/
def execElBilv (a : ElemArgs) (s : State) : Result :=
  .next (s.fire 0x33 a (rawLane fun w v => bilvN (w / 2) (arg 0 v 0) (arg 0 v 1)))
/-- bdlv (R121). -/
def execElBdlv (a : ElemArgs) (s : State) : Result :=
  .next (s.fire 0x34 a (rawLane fun w v => bdlvN (w / 2) (arg 0 v 0)))
/-- brev (R121). -/
def execElBrev (a : ElemArgs) (s : State) : Result := .next (s.fire 0x35 a (rawLane fun w v => brevN w (arg 0 v 0)))
/-- bfx (R106, R121). -/
def execElBfx (a : ElemArgs) (s : State) : Result :=
  .next (s.fire 0x36 a (perLane fun e v =>
    let p := e.x.param 0x13 0
    let f := bfxN (arg 0 v 0) (p / 64) (p % 64 + 1)
    (if e.fmt.signed then wrapLane e.fmt.w (sext f (p % 64 + 1)) else f, false)))
/-- bfi (R106, R121). -/
def execElBfi (a : ElemArgs) (s : State) : Result :=
  .next (s.fire 0x37 a (perLane fun e v =>
    let p := e.x.param 0x13 0
    (bfiN (arg 0 v 0) (arg 0 v 1) (p / 64) (p % 64 + 1) % 2 ^ e.fmt.w, false)))
/-- cvt (R122). -/
def execElCvt (a : ElemArgs) (s : State) : Result := .next (s.fire 0x38 a (cvtBeat false))
/-- cvts (R122). -/
def execElCvts (a : ElemArgs) (s : State) : Result := .next (s.fire 0x39 a (cvtBeat true))
/-- pack (R123). -/
def execElPack (a : ElemArgs) (s : State) : Result := .next (s.fire 0x3A a packBeat)
/-- unpack (R123). -/
def execElUnpack (a : ElemArgs) (s : State) : Result := .next (s.fire 0x3B a unpackBeat)
/-- bcast (R125). -/
def execElBcast (a : ElemArgs) (s : State) : Result := .next (s.fire 0x3E a bcastBeat)
/-- dot (R126). -/
def execElDot (a : ElemArgs) (s : State) : Result := .next (s.fire 0x40 a dotBeat)
/-- dott (R126). -/
def execElDott (a : ElemArgs) (s : State) : Result := .next (s.fire 0x42 a dotBeat)

end Sys2Proof.Machine
end

