-- ==== Sys2Proof/Machine/ConfigWord.lean ====
section
/-! DEFINITION. Configuration words: their validity by class and their effect (R57, R58, R104, R106, R107,
R134, R141, R154, R162, R165, R166, R168, R181, R190, R373). -/

namespace Sys2Proof.Machine

/-- The formats OUTF may name for an operation (R106, R122-R129). -/
def outfLegal (op : Nat) (f o : Fmt) : Bool :=
  let k := o.kind
  if op == 0x38 then k = .int || k = .float || k = .e || k = .bits
  else if op == 0x39 then k = .int || k = .float || k = .e
  else if op == 0x3A then (k = .int || k = .float || k = .e) && o.w * 2 = f.w
  else if op == 0x3B then (k = .int || k = .float || k = .e) && o.w = f.w * 2
  else if op == 0x3C then k = .mx
  else if op == 0x3D then k = .float
  else if 0x40 ≤ op && op ≤ 0x43 then k = .int
  else if op == 0x48 then (if f.kind = .int then k = .int else k = .float)
  else false

/-- A word-class parameter is valid (R106). -/
def wordParam (t : Tile) (x : Slot) (sel v : Nat) : Bool :=
  let op := x.op
  let m := t.fmt x.fsel
  match sel with
  | 0x10 => v < 2 ^ 12 && (List.range 4).all fun i => v / 2 ^ (3 * i) % 8 ≤ 4
  | 0x11 => v < 8 && outfLegal op m (t.fmt v)
  | 0x12 => v < 2 ^ 35 && v / 2 ^ 32 ≤ 5 && (op == 0x41 || op == 0x43 || (0x48 ≤ op && op ≤ 0x4C))
  | 0x13 => v < 2 ^ 12 && (op == 0x36 || op == 0x37) && v / 64 + v % 64 + 1 ≤ m.w
  | 0x14 => v < 2 && (op == 0x0B || op == 0x0C || op == 0x05 || op == 0x06 || op == 0x39 || (0x40 ≤ op && op ≤ 0x43) ||
      op == 0x48)
  | 0x15 => op == 0x3E && v < 64 / m.w
  | _ => false

/-- A stream-class parameter is valid (R134). -/
def streamParam (op sel v : Nat) : Bool :=
  if 0x20 ≤ sel && sel ≤ 0x25 then (op == 0x57 || op == 0x58) && v < 2 ^ 24
  else if 0x26 ≤ sel && sel ≤ 0x2C then op == 0x57
  else if sel == 0x2D then op == 0x57 && v < 16 && v % 8 ≤ 6
  else if sel == 0x2E then op == 0x54 && 1 ≤ v && v < 2 ^ 24
  else if sel == 0x2F then (op == 0x55 || op == 0x56) && v < 2 ^ 20 && v / 2 ^ 16 % 8 ≤ 5 && v % 2 ^ 16 ≠ 0
  else false

/-- An address-class parameter is valid (R141, R373). -/
def addressParam (sel v : Nat) : Bool :=
  if 0x10 ≤ sel && sel ≤ 0x15 then v < 2 ^ 24
  else if sel == 0x16 || (0x18 ≤ sel && sel ≤ 0x1D) || sel == 0x1F then true
  else if sel == 0x17 then v < 16
  else if sel == 0x1E then v < 2 ^ 16 && v / 2 ^ 12 ≤ 9 && v / 2 ^ 7 % 8 ≤ 6
  else if sel == 0x20 then v < 2 ^ 20 && v % 16 ≤ 4
  else sel == 0x21 && v < 2

/-- A bank-class parameter is valid (R154). -/
def bankParam (sel v : Nat) : Bool :=
  if sel == 0x10 then
    let len := v / 2 ^ 17
    let b := v % 2 ^ 17
    8 ≤ len && len ≤ 65536 && len % 8 == 0 && b % 8 == 0 && b + len ≤ 65536
  else if sel == 0x11 then v < 2 ^ 11 && v / 2 ^ 8 ≤ 5 && v / 16 % 16 ≤ 9
  else sel == 0x12 && 1 ≤ v && v ≤ 65536

/-- An island parameter is valid (R181, R182). -/
def islandParam (sel v : Nat) : Bool :=
  if sel == 0x10 then
    v < 2 ^ 54 && (List.range 4).all fun k =>
      let c := v / 2 ^ (8 * k) % 256
      !(128 ≤ c && c < 192 && v / 2 ^ 48 ≤ c - 128)
  else if 0x11 ≤ sel && sel ≤ 0x14 then v < 2 ^ 32
  else sel == 0x15 && v < 2 ^ 15 && v % 8 == 0 && v / 16 % 4 ≠ 0 && v / 64 % 8 ≠ 7

/-- A signed 8-bit exponent of OEXP: 0 EA, 1 EB, 2 EC, 3 EO (R168). -/
def oexpOf (v i : Nat) : Int := sext (v / 2 ^ (8 * i)) 8

/-- The output exponent of an online operation (R170). -/
def outExponent (op v : Nat) : Int :=
  let a := oexpOf v 0
  let b := oexpOf v 1
  let c := oexpOf v 2
  if op == 0xA0 then oexpOf v 3
  else if op == 0xA2 then (if a < b then b else a) + 2
  else if op == 0xA3 then a + b + 1
  else if op == 0xA4 then (if a + b < c then c else a + b) + 2
  else 0

/-- An online parameter is valid (R168). -/
def onlineParam (op sel v : Nat) : Bool :=
  if sel == 0x10 then
    v < 2 ^ 32 && (op == 0xA0 || v / 2 ^ 24 == 0) && (-128 ≤ outExponent op v) && (outExponent op v ≤ 127) &&
    (!(op == 0xA6 || op == 0xA7) || oexpOf v 0 == oexpOf v 1)
  else sel == 0x11 && v < 8

/-- The accumulator classes of R192: the formats that pair. -/
def pairClass (f : Fmt) : Nat :=
  match f.code with
  | 0x10 => 1 | 0x11 => 2 | 0x12 | 0x13 => 3
  | 0x14 | 0x15 | 0x18 | 0x19 | 0x1A | 0x1C => 4
  | 0x1B | 0x1E => 5
  | _ => 0

/-- A matrix parameter is valid (R190, R192). -/
def matrixParam (t : Tile) (x : Slot) (sel v : Nat) : Bool :=
  if sel == 0x10 then
    v < 8 && pairClass (t.fmt v) ≠ 0 && pairClass (t.fmt v) == pairClass (t.fmt x.fsel)
  else (sel == 0x11 || sel == 0x12) && v < 2 ^ 28

/-- The outbound channels an edge slot claims, as 8 x edge + channel (R162, R163). -/
def edgeClaims (x : Slot) (e : Nat) : List Nat :=
  let eout := ((List.range 4).filter fun o => bit (x.param 0x12 0) (4 * o + 3)).map fun o =>
    8 * e + x.param 0x12 0 / 2 ^ (4 * o) % 8
  let mask := (List.range 8).filter fun c => bit (x.param 0x10 0) c
  let pass := if x.op == 0xC0 then mask.map fun c => 8 * oppositeEdge e + c
    else if x.op == 0xC1 then mask.map fun c => 8 * x.param 0x11 0 + c else []
  if x.st = .empty then [] else eout ++ pass

/-- An edge parameter is valid; `n` is the slot, `x` the slot with the word applied (R162). -/
def edgeParam (t : Tile) (n : Nat) (x : Slot) (sel v : Nat) : Bool :=
  let small := if sel == 0x10 then v < 256 else if sel == 0x11 then v < 4 && v ≠ n - 60
    else if sel == 0x12 then v < 2 ^ 16 else sel == 0x13 && v < 256
  let claims := t.laid ++ (List.range 4).flatMap fun e => edgeClaims (if e = n - 60 then x else look {} t.slots (60 + e)) e
  small && claims.eraseDups.length == claims.length

/-- The streams that a helm-port parameter maps (R165). -/
def mappedStreams (v k : Nat) : List Nat :=
  ((List.range k).filter fun i => bit v (7 * i + 6)).map fun i => v / 2 ^ (7 * i) % 64

/-- A helm-port parameter is valid: no stream is mapped twice in its unit, by it or beside the other parameter
(R165). -/
def helmParam (x : Slot) (sel v : Nat) : Bool :=
  let l := mappedStreams v 4 ++ mappedStreams (x.param (if sel == 0x10 then 0x11 else 0x10) 0) 4
  (if sel == 0x10 then v < 2 ^ 28 else sel == 0x11 && v < 2 ^ 14) && l.eraseDups.length == l.length

/-- A class parameter is valid for the slot (R50, R58). -/
def classParam (t : Tile) (n : Nat) (x : Slot) (sel v : Nat) : Bool :=
  let op := x.op
  if op < 0x50 then wordParam t x sel v
  else if op < 0x60 then streamParam op sel v
  else if op < 0x80 then addressParam sel v
  else if op < 0x90 then bankParam sel v
  else if op < 0xA0 then islandParam sel v
  else if op < 0xB0 then onlineParam op sel v
  else if op < 0xC0 then matrixParam t x sel v
  else if op < 0xC8 then edgeParam t n { x with params := put x.params sel v } sel v
  else if op < 0xCC then helmParam x sel v
  else sel == 0x10 && v < 256

/-- The rounding mode of a ROUND word (R57). -/
def modeOf (v : Nat) : RMode := match v with
  | 0 => .ne | 1 => .tz | 2 => .pi | 3 => .ni | _ => .sr

/-- A constant with one half replaced (R107). -/
def halfWord (c : Word) (high : Bool) (v : Nat) : Word :=
  if high then wd (v % 2 ^ 32 * 2 ^ 32 + c.toNat % 2 ^ 32) else wd (c.toNat / 2 ^ 32 * 2 ^ 32 + v % 2 ^ 32)

/-- A slot with a valid configuration word applied; none for an invalid word (R57, R58, R106). A SEED word in an open
stream of an online node waits for its end (R179). -/
def wordApplied (t : Tile) (n : Nat) (x : Slot) (w : Word) : Option Slot :=
  let sel := bits w 56 8
  let v := bits w 0 56
  match sel with
  | 0 =>
    if v < 2 ^ 20 && v / 64 % 64 ≤ v % 64 then
      some { x with region := v / 2 ^ 12, phase := v / 64 % 64, ii := v % 64 + 1 }
    else none
  | 1 | 2 =>
    if v < 2 ^ 34 then
      some { x with consts := put x.consts (v / 2 ^ 32) (halfWord (x.const (v / 2 ^ 32)) (sel == 2) v) }
    else none
  | 3 => if v ≤ 4 then some { x with round := modeOf v } else none
  | 4 =>
    let seed := if v = 0 then 0x9E3779B9 else v
    if 2 ^ 32 ≤ v then none
    else if 0xA0 ≤ x.op && x.op < 0xA8 && x.run.isOpen then some { x with run := { x.run with held := put x.run.held 4 seed } }
    else some { x with seed := BitVec.ofNat 32 seed, gens := [] }
  | _ =>
    if 0x10 ≤ sel && sel < 0x40 && classParam t n x sel v then
      let y := if (x.op == 0x93 || x.op == 0x94) && x.run.past.isNone && !x.run.beats.isEmpty then
        { x with run := { x.run with past := some (x.params, x.luts) } } else x
      if 0x90 ≤ x.op && x.op < 0xA0 && sel == 0x10 then
        some { y with luts := put x.luts (v / 2 ^ 48) (v % 2 ^ 48) }
      else some { y with params := put x.params sel v }
    else none

namespace State

/-- A configuration word applied to slot n; an invalid or poisoned one is discarded and counted (R58;
log 15). -/
def applyWord (s : State) (p n : Nat) (b : Beat) : State :=
  let x := s.slot p n
  match if b.poi then none else wordApplied (s.tile p) n x b.data with
  | some y =>
    let r := y.run
    s.setSlot p n (if r.stop.isSome && bits b.data 56 8 ≥ 16 then
      { y with run := { r with stopWords := put r.stopWords (bits b.data 56 8) (bits b.data 0 56) } } else y)
  | none => s.countError (s.handleOf p)

/-- The place in port o of the configuration word that may be applied now: at the head, or among the beats
of one replicated firing (R104, R109); at an operand port of a matrix node none, but as an operation opens it (R190). -/
def wordPlace (x : Slot) (o : Nat) : Option Nat :=
  match firstCfg (x.port o) with
  | none => none
  | some k => if 0xB0 ≤ x.op && x.op < 0xC0 && o < 3 then none else if k = 0 || (k < x.copies && x.reads.contains o && !selfTimed x.op) then some k else none

/-- A slot's region stands at the slot's phase (R103, R104); a slot in no running region, or self-timed, is
always ready for a word. -/
def atPhase (s : State) (p : Nat) (x : Slot) : Bool :=
  let r := look {} (s.group (s.handleOf p)).regions x.region
  selfTimed x.op || x.st = .configured || !r.armed || r.advanced % x.ii == x.phase

/-- A slot's region runs: it holds in an fc in which a word of the slot is applied (R104). -/
def inRunning (s : State) (p : Nat) (x : Slot) : Bool :=
  !selfTimed x.op && x.st ≠ .configured && (look {} (s.group (s.handleOf p)).regions x.region).armed

/-- The configuration word due at port o of slot n is applied (R104). -/
def applyPort (s : State) (p n o : Nat) : State :=
  let x := s.slot p n
  match wordPlace x o with
  | none => s
  | some k =>
    let b := (x.port o).getD k {}
    let s1 := (s.setSlot p n { x.setPort o ((x.port o).eraseIdx k) with wordFc := some s.fc }).countTaken
      (s.handleOf p) b.region x.region
    let s2 := if x.st = .empty then s1 else s1.applyWord p n b.beat
    let s3 := (List.range 4).foldl (fun a i => a.settlePort p n i) (s2.moved p)
    let s4 := match wordPlace (s3.slot p n) o with
      | some _ => s3.postOnce (.evConfigWordApply p n o)
      | none => s3
    s4.wake p n

end State

/-- CONFIG_WORD_APPLY (R98, R104): the configuration word due at port o of slot n is applied; an element of a running region
applies one in an fc. -/
def execEvConfigWordApply (p n o : Nat) (s : State) : Result :=
  .next (
    let x := s.slot p n
    if x.held || x.st = .parked || !s.atPhase p x || (s.inRunning p x && x.wordFc = some s.fc) then s
    else s.applyPort p n o)

end Sys2Proof.Machine
end

