-- ==== Sys2Proof/Machine/StreamElem.lean ====
section
/-! DEFINITION. Steering and sequencing elements, W slots 0x50 to 0x5B (R131-R139). -/

namespace Sys2Proof.Machine

/-- A beat that is no capability beat any more (R133). -/
def Beat.plain (b : Beat) : Beat :=
  { b with kind := resultKindOf b.kind, tag := false }
where
  /-- CAPLO and CAPHI become DATA. -/
  resultKindOf (k : Kind) : Kind :=
    match k with
    | .caplo | .caphi => .data
    | k => k

/-- The unit at the head of a port: one beat, or a capability pair (R131). -/
def headUnit (l : List Arrived) : Option (List Beat) := (firstUnits 1 l).map List.flatten

/-- One step of a nest: counters stepped innermost first, and how many dimensions wrapped (R138). -/
def stepNest : List Nat → List Nat → List Nat × Nat
  | c :: cs, i :: is =>
    if i + 1 < c then ((i + 1) :: is, 0)
    else
      let r := stepNest cs is
      (0 :: r.1, r.2 + 1)
  | _, _ => ([], 0)

/-- The present dimensions of six counts: those below the first absent one (R134, R141). -/
def presentCounts (f : Nat → Nat) : List Nat := ((List.range 6).map f).takeWhile (· ≠ 0)

namespace State

/-- The state with the acting element's run state set. -/
def setRun (s : State) (r : Run) : State := s.setSlot s.curTile s.curSlot { s.el with run := r }

/-- A turn of a self-timed element (R105): it acts if it is live, `f` finds what it needs and the outputs it sends to
have room; then its next turn comes. -/
def turn (s : State) (op : Nat) (a : ElemArgs) (f : State → Option State) : State :=
  if s.el.st = .empty then s
  else
    let s1 := s.bearing op a
    if s1.el.live then
      match f s1 with
      | some s2 => if sentWhereFree s1.el s2.el then (s2.moved s.curTile).wake s.curTile s.curSlot else s1
      | none => s1
    else s1

/-- Beats of the acting element's port taken. -/
def taken (s : State) (o k : Nat) : State := s.takeFrom s.curTile s.curSlot o k
/-- Beats sent to CX of the acting element. -/
def toX (s : State) (bs : List Beat) : State := s.emitAll s.curTile s.curSlot s.el.cx bs
/-- Beats sent to CY of the acting element. -/
def toY (s : State) (bs : List Beat) : State := s.emitAll s.curTile s.curSlot s.el.cy bs
/-- Beats sent to both consumers. -/
def toBoth (s : State) (bs : List Beat) : State := (s.toX bs).toY bs
/-- One error of the acting element's group. -/
def elError (s : State) : State := s.countError (s.handleOf s.curTile)

/-- A P beat that is a LOOPEND is discarded and counted (R135). -/
def dropLoopP (s : State) : State := (s.taken 3 1).elError

/-- steer (R135). -/
def steerStep (s : State) : Option State :=
  match headUnit (s.el.portA), headBeat (s.el.portP) with
  | some u, q =>
    if (u.headD {}).isLoop then some ((s.taken 0 u.length).toBoth u)
    else match q with
      | none => none
      | some q =>
        if q.isLoop then some s.dropLoopP
        else
          let s1 := (s.taken 0 u.length).taken 3 1
          some (if q.poi then s1.toBoth (u.map Beat.poison)
            else if q.data ≠ 0 then s1.toX u else s1.toY u)
  | none, some q => if q.isLoop then some s.dropLoopP else none
  | none, none => none

/-- gate (R135). -/
def gateStep (s : State) : Option State :=
  match headUnit (s.el.portA), headBeat (s.el.portP) with
  | some u, q =>
    if (u.headD {}).isLoop then some ((s.taken 0 u.length).toX u)
    else match q with
      | none => none
      | some q =>
        if q.isLoop then some s.dropLoopP
        else
          let s1 := (s.taken 0 u.length).taken 3 1
          some (if q.poi then s1.toX (u.map Beat.poison) else if q.data ≠ 0 then s1.toX u else s1)
  | none, some q => if q.isLoop then some s.dropLoopP else none
  | none, none => none

/-- merge (R135): P first, then the beat of the port it chose. -/
def mergeStep (s : State) : Option State :=
  let r := s.el.run
  if r.isOpen then
    let o := if r.turn then 0 else 1
    match headUnit (s.el.port o) with
    | some u => some (((s.taken o u.length).setRun { r with isOpen := false }).toX u)
    | none => none
  else match headBeat s.el.portP with
    | none => none
    | some q =>
      if q.isLoop then some s.dropLoopP
      else
        let s1 := s.taken 3 1
        some (if q.poi then s1.toX [poisonBeat] else s1.setRun { r with isOpen := true, turn := q.data ≠ 0 })

/-- split (R131, R136): a pair goes whole where its first beat goes, and counts as two beats (log 100). -/
def splitStep (s : State) : Option State :=
  match headUnit s.el.portA with
  | none => none
  | some u =>
    let r := s.el.run
    let s1 := s.taken 0 u.length
    if (u.headD {}).isLoop then some ((s1.setRun { r with cnt := 0 }).toBoth u)
    else
      let s2 := s1.setRun { r with cnt := r.cnt + u.length }
      some (if r.cnt < s.el.param 0x2E 1 then s2.toX (u.map Beat.plain) else s2.toY (u.map Beat.plain))

/-- unzip (R131, R136): the turn flag is set when CY is next; a pair is dealt whole (log 100). -/
def unzipStep (s : State) : Option State :=
  match headUnit s.el.portA with
  | none => none
  | some u =>
    let r := s.el.run
    let s1 := s.taken 0 u.length
    if (u.headD {}).isLoop then some ((s1.setRun { r with turn := false }).toBoth u)
    else
      let s2 := s1.setRun { r with turn := !r.turn }
      some (if r.turn then s2.toY (u.map Beat.plain) else s2.toX (u.map Beat.plain))

/-- zip (R131, R136): the turn flag is set when B is next. A LOOPEND at B in B's turn waits for A's head; both are
consumed, whatever A's is, as a mismatch, and the next turn is A (log 90). -/
def zipStep (s : State) : Option State :=
  let r := s.el.run
  if r.turn then
    match headUnit s.el.portB, headUnit s.el.portA with
    | some u, v =>
      if (u.headD {}).isLoop then
        match v with
        | none => none
        | some v =>
          some ((((s.taken 0 v.length).taken 1 1).setRun { r with turn := false }).elError.toX [framedPoison (v.headD {}).kind])
      else some (((s.taken 1 u.length).setRun { r with turn := false }).toX (u.map Beat.plain))
    | none, _ => none
  else
    match headUnit s.el.portA, headUnit s.el.portB with
    | some u, v =>
      let a := u.headD {}
      if a.isLoop then
        match v with
        | none => none
        | some v =>
          let b := v.headD {}
          let s1 := (s.taken 0 1).taken 1 v.length
          if b.isLoop && b.dim = a.dim then
            some (s1.toX [if a.poi || b.poi then a.poison else a])
          else some (s1.elError.toX [framedPoison a.kind])
      else some (((s.taken 0 u.length).setRun { r with turn := true }).toX (u.map Beat.plain))
    | none, _ => none

/-- The held beats of frame closed as a slab's end: run.beats holds the beat whose successor is not known, run.cnt its
place plus one (R137). -/
def closeFrame (r : Run) : Run × List Beat :=
  ({ r with beats := [], cnt := 0 }, r.beats.map fun h => { h.plain with kind := if r.cnt = 1 then .solo else .tail })

/-- What frame does with a beat of A: its run, and what it emits (R137). A slab that FLEN has come to cut short closes first. -/
def frameBeat (len : Nat) (r0 : Run) (b : Beat) : Run × List Beat :=
  if b.isLoop then
    let q := closeFrame r0
    (q.1, q.2 ++ [b])
  else
    let (r, done) := if len ≤ r0.cnt then closeFrame r0 else (r0, [])
    let out := done ++ r.beats.map fun h => { h.plain with kind := if r.cnt = 1 then .head else .data }
    if len ≤ r.cnt + 1 then
      ({ r with beats := [], cnt := 0 }, out ++ [{ b.plain with kind := if r.cnt = 0 then .solo else .tail }])
    else ({ r with beats := [b], cnt := r.cnt + 1 }, out)

/-- frame (R131, R137): a pair's beats in one step. -/
def frameStep (s : State) : Option State :=
  match headUnit s.el.portA with
  | none => none
  | some u =>
    let q := u.foldl (fun (q : Run × List Beat) b =>
      let w := frameBeat (s.el.param 0x2F 1 % 2 ^ 16) q.1 b
      (w.1, q.2 ++ w.2)) (s.el.run, [])
    some (((s.taken 0 u.length).setRun q.1).toX q.2)

/-- unframe (R137); the LOOPEND after a poisoned TAIL or SOLO is poisoned (log 107). -/
def unframeStep (s : State) : Option State :=
  match headBeat s.el.portA with
  | none => none
  | some b =>
    let v := s.el.param 0x2F 1
    let s1 := s.taken 0 1
    if b.isLoop then some (s1.toX [b])
    else
      let framed := b.kind = .tail || b.kind = .solo
      let d := { b.plain with kind := Kind.data }
      let l := loopBeat (v / 2 ^ 16 % 8)
      some (s1.toX (if framed && bit v 19 then [d, if b.poi then l.poison else l] else [d]))

/-- The counts of a sequencer's run (R134). -/
def seqCounts (r : Run) : List Nat := presentCounts fun d => look 0 r.held (0x20 + d)

/-- The value of a seq step: SBASE as it stands, the SSTEPs as the run holds them (R104, R138). -/
def seqValue (x : Slot) : Word :=
  wrap (sext (x.param 0x2C 0) 56 +
    ((List.range 6).map fun d => ((x.run.idx.getD d 0 : Nat) : Int) * sext (look 0 x.run.held (0x26 + d)) 56).sum)

/-- A run of a sequencer opens and holds the parameters in force, of which SCNT and SSTEP serve the whole run (R138). -/
def openSeq (s : State) (poi : Bool) : State :=
  let x := s.el
  s.setRun { x.run with isOpen := true, held := x.params, poisoned := poi,
                        idx := List.replicate (presentCounts fun d => x.param (0x20 + d) 0).length 0 }

/-- The counters after a step: closed when every dimension wrapped, with a LOOPEND due (R138). -/
def stepSeq (r : Run) (lemit : Nat) : Run :=
  let cs := seqCounts r
  let n := stepNest cs r.idx
  { r with idx := n.1, isOpen := n.2 < cs.length,
           loopDue := if 0 < n.2 && lemit ≤ n.2 - 1 then some (n.2 - 1) else none }

/-- seq (R138); a beat of any KIND but LOOPEND starts a run (log 107). -/
def seqStep (s : State) : Option State :=
  let r := s.el.run
  match r.loopDue with
  | some d => some ((s.setRun { r with loopDue := none }).toX [if r.poisoned then (loopBeat d).poison else loopBeat d])
  | none =>
    if r.isOpen then
      let b : Beat := { data := seqValue s.el }
      some ((s.setRun (stepSeq r (s.el.param 0x2D 6 % 8))).toX [if r.poisoned then b.poison else b])
    else if bit (s.el.param 0x2D 6) 3 then
      match headUnit s.el.portA with
      | none => none
      | some u =>
        let s1 := s.taken 0 u.length
        some (if (u.headD {}).isLoop then s1.toX u else s1.openSeq (u.any (·.poi)))
    else some (s.openSeq false)

/-- The token of a seqx step (R138). -/
def seqxValue (x : Slot) (r : Run) : Word :=
  let i0 := r.idx.getD 0 0
  let i1 := r.idx.getD 1 0
  let t0 := x.const 0
  let t1 := if i0 ≠ 0 then t0 ||| x.const 1 else t0
  let t2 := if i1 % 2 = 1 then t1 ^^^ x.const 2 else t1
  if i0 + 1 = look 0 r.held 0x20 then t2 ||| x.const 3 else t2

/-- seqx (R138): runs follow one another; no LOOPEND. -/
def seqxStep (s : State) : Option State :=
  let s1 := if s.el.run.isOpen then s else s.openSeq false
  let r := s1.el.run
  some ((s1.setRun { stepSeq r 6 with loopDue := none }).toX [{ data := seqxValue s1.el r }])

/-- dup (R136): each unit of A goes to both consumers. -/
def dupFire (s : State) : State :=
  let p := s.curTile
  let n := s.curSlot
  let x := s.el
  match firstUnits x.copies x.portA with
  | none => s
  | some us =>
    let bs := us.flatten
    let s1 := s.takeFrom p n 0 bs.length
    (bs.foldl (fun a b => (a.emitAt p n (s.fc + 1) x.cx b).emitAt p n (s.fc + 1) x.cy b) s1).moved p

end State

/-- steer (R135). -/
def execElSteer (a : ElemArgs) (s : State) : Result := .next (s.turn 0x50 a State.steerStep)
/-- merge (R135). -/
def execElMerge (a : ElemArgs) (s : State) : Result := .next (s.turn 0x51 a State.mergeStep)
/-- gate (R135). -/
def execElGate (a : ElemArgs) (s : State) : Result := .next (s.turn 0x52 a State.gateStep)
/-- dup (R136). -/
def execElDup (a : ElemArgs) (s : State) : Result :=
  .next (if s.el.st = .empty then s
    else
      let s1 := s.bearing 0x53 a
      if State.fires s1.el then s1.dupFire else s1)
/-- split (R136). -/
def execElSplit (a : ElemArgs) (s : State) : Result := .next (s.turn 0x54 a State.splitStep)
/-- frame (R137). -/
def execElFrame (a : ElemArgs) (s : State) : Result := .next (s.turn 0x55 a State.frameStep)
/-- unframe (R137). -/
def execElUnframe (a : ElemArgs) (s : State) : Result := .next (s.turn 0x56 a State.unframeStep)
/-- seq (R138). -/
def execElSeq (a : ElemArgs) (s : State) : Result := .next (s.turn 0x57 a State.seqStep)
/-- seqx (R138). -/
def execElSeqx (a : ElemArgs) (s : State) : Result := .next (s.turn 0x58 a State.seqxStep)
/-- const (R139). -/
def execElConst (a : ElemArgs) (s : State) : Result :=
  .next (s.fire 0x59 a fun e gen _ => Computed.both (e.x.const 0).toNat gen)
/-- zip (R136). -/
def execElZip (a : ElemArgs) (s : State) : Result := .next (s.turn 0x5A a State.zipStep)
/-- unzip (R136). -/
def execElUnzip (a : ElemArgs) (s : State) : Result := .next (s.turn 0x5B a State.unzipStep)

end Sys2Proof.Machine
end

