-- ==== Sys2Proof/Machine/Bank.lean ====
section
/-! DEFINITION. Memory-bank elements, M slots 0x80 to 0x87 (R153-R161). -/

namespace Sys2Proof.Machine

/-! ## A bank's contents (R19, R155) -/

/-- Eight bytes of a bank. -/
def Bank.word (b : Bank) (a : Nat) : Word := wd (fromBytes (getBytes b.cells a 8))
/-- The poison marks of n bytes from a on. -/
def marksOf (a n : Nat) : List Nat := (List.range ((a % 4 + n + 3) / 4)).map (a / 4 + ·)
/-- A byte of the n from a on is poisoned. -/
def Bank.spoilt (b : Bank) (a n : Nat) : Bool := (marksOf a n).any b.poison.contains
/-- n bytes written: the tags of the granules they touch are cleared, their bytes marked poisoned or not (R155). -/
def Bank.write (b : Bank) (a : Nat) (bs : List Byte) (poi : Bool) : Bank :=
  { b with cells := setBytes b.cells a bs,
           tags := b.tags.filter fun g => !(State.granules a bs.length).contains g,
           poison := (marksOf a bs.length).foldl (fun l k => setMem l k poi) b.poison }
/-- A granule's tag set. -/
def Bank.setTag (b : Bank) (a : Nat) (tag : Bool) : Bank := { b with tags := setMem b.tags (a / 16) tag }
/-- A beat marked poisoned, its granule's tag cleared (R156). -/
def Bank.mark (b : Bank) (a : Nat) : Bank :=
  { b with poison := (marksOf a 8).foldl (fun l k => insertNat k l) b.poison, tags := b.tags.filter (· ≠ a / 16) }
/-- The beat at a place of a bank, with the KIND of the firing's result (R111). -/
def Bank.beat (b : Bank) (a : Nat) (k : Kind) : Beat :=
  if b.spoilt a 8 then framedPoison k else { data := b.word a, kind := k }
/-- The 16 bytes at a place as a pair, tagged only where they are a granule (R155, R254; log 85). -/
def Bank.pair (b : Bank) (a : Nat) : List Beat :=
  let lo : Beat := { data := b.word a, kind := .caplo, tag := a % 16 = 0 && b.tags.contains (a / 16) }
  let hi : Beat := { data := b.word (a + 8), kind := .caphi }
  if b.spoilt a 16 then [lo.poison, hi.poison] else [lo, hi]

/-! ## Accesses (R154-R157) -/

/-- WIN: length and base (R154). -/
def Slot.window (x : Slot) : Nat × Nat :=
  let v := x.param 0x10 (65536 * 2 ^ 17)
  (v / 2 ^ 17, v % 2 ^ 17)
/-- CAPW (R154). -/
def Slot.capw (x : Slot) : Bool := bit (x.param 0x11 0) 1

/-- The offset a beat names, for an access of `n` bytes aligned to `al` within `len`; none when bad (R155). -/
def goodOffset (b : Beat) (n al len : Nat) : Option Nat :=
  let o := bits b.data 0 32
  if o % al = 0 && o + n ≤ len then some o else none

/-- A bank with the beats an access sends and whether an error is counted. -/
structure BankAct where
  bank : Bank := {}
  x : List Beat := []
  y : List Beat := []
  err : Nat := 0
deriving DecidableEq, Repr

/-- A read named by an offset beat, its result of KIND k unless it is a pair (R111, R155). -/
def bankRead (capw : Bool) (len base : Nat) (b : Bank) (k : Kind) (o : Beat) : List Beat × Nat :=
  if o.poi then ([framedPoison k], 0)
  else match goodOffset o (if capw then 16 else 8) (if capw then 16 else 8) len with
    | none => ([framedPoison k], 1)
    | some a => (if capw then b.pair (base + a) else [b.beat (base + a) k], 0)

/-- A write of a unit named by an offset beat; a pair stores its TAG where it covers a granule (R155; log 85). -/
def bankWrite (len base : Nat) (b : Bank) (o : Beat) (u : List Beat) : Bank × Nat :=
  if o.poi then (b, 0)
  else match goodOffset o (8 * u.length) 8 len with
    | none => (b, 1)
    | some a =>
      let d := u.headD {}
      let poi := u.any (·.poi)
      let b1 := b.write (base + a) (u.flatMap fun e => toBytes 8 e.data.toNat) poi
      (if u.length = 2 && (base + a) % 16 = 0 && !poi then b1.setTag (base + a) d.tag else b1, 0)

/-- mrmw's access (R156). -/
def bankModify (wide32 : Bool) (op len base : Nat) (b : Bank) (o v c : Beat) : BankAct :=
  let k := resultKind o.kind
  if o.poi then { bank := b, x := [framedPoison k] }
  else match goodOffset o 8 8 len with
    | none => { bank := b, x := [framedPoison k], err := 1 }
    | some a0 =>
      let a := base + a0
      if b.spoilt a 8 || v.poi || (op = 9 && c.poi) then { bank := b.mark a, x := [framedPoison k] }
      else
        let w := if wide32 then 32 else 64
        let old := (b.word a).toNat
        let lanes := (List.range (64 / w)).map fun k =>
          let l := laneOf w old k
          if op = 9 then (if l = laneOf w c.data.toNat k then some (laneOf w v.data.toNat k) else none)
          else some (amoValue w op l (laneOf w v.data.toNat k))
        let new := packLanes w ((List.range (64 / w)).map fun k => ((lanes.getD k none)).getD (laneOf w old k))
        { bank := if lanes.any (·.isSome) then b.write a (toBytes 8 new) false else b, x := [{ data := wd old, kind := k }] }

/-- mlut's look-up of the lanes of an index beat (R157). -/
def bankTable (x : Slot) (b : Bank) (o : Beat) : List Beat × Nat :=
  let w := 8 * 2 ^ (x.param 0x11 0 / 4 % 4)
  let len := x.window.1
  let base := x.window.2
  let js := lanesOf w o.data.toNat
  if o.poi then ([framedPoison (resultKind o.kind)], 0)
  else if js.any fun j => x.param 0x12 65536 ≤ j || len < (j + 1) * (w / 8) then ([framedPoison (resultKind o.kind)], 1)
  else if js.any fun j => b.spoilt (base + j * (w / 8)) (w / 8) then ([framedPoison (resultKind o.kind)], 0)
  else ([{ data := wd (packLanes w (js.map fun j => fromBytes (getBytes b.cells (base + j * (w / 8)) (w / 8)))),
           kind := resultKind o.kind }], 0)

/-- The bytes of its bank that an access named by an offset beat reaches: where they begin, and how many (R154, R155). -/
def reached (len base n al : Nat) (o : Beat) : List (Nat × Nat) :=
  if o.poi then [] else ((goodOffset o n al len).map fun a => (base + a, n)).toList

/-- The bytes of its bank that one copy of a firing reaches, from its units (R153, R157). -/
def namedBytes (x : Slot) (us : List (List Beat)) : List (Nat × Nat) :=
  let h := fun (i : Nat) => (us.getD i []).headD ({} : Beat)
  let len := x.window.1
  let base := x.window.2
  let read := fun (o : Beat) => reached len base (if x.capw then 16 else 8) (if x.capw then 16 else 8) o
  match x.op with
  | 0x80 => read (h 0) ++ (if us.length = 2 then read (h 1) else [])
  | 0x81 => reached len base (8 * (us.getD 1 []).length) 8 (h 0) ++ (if us.length = 3 then read (h 2) else [])
  | 0x82 => reached len base 8 8 (h 0)
  | _ =>
    let w := 2 ^ (x.param 0x11 0 / 4 % 4)
    ((lanesOf (8 * w) (h 0).data.toNat).filter fun j => j < x.param 0x12 65536 && (j + 1) * w ≤ len).map fun j => (base + j * w, w)

/-- What one copy of a region-timed bank element does with its units, A first, in a firing without a LOOPEND (R111,
R153). -/
def bankAct (x : Slot) (b : Bank) (us : List (List Beat)) : BankAct :=
  let h := fun (i : Nat) => (us.getD i []).headD ({} : Beat)
  let kind := resultKind (h 0).kind
  let len := x.window.1
  let base := x.window.2
  match x.op with
    | 0x80 =>
      let r := bankRead x.capw len base b kind (h 0)
      let q := if us.length = 2 then bankRead x.capw len base b kind (h 1)
        else ([], 0)
      { bank := b, x := r.1, y := q.1, err := r.2 + q.2 }
    | 0x81 =>
      let w := bankWrite len base b (h 0) (us.getD 1 [])
      let r := if us.length = 3 then bankRead x.capw len base w.1 kind (h 2) else ([], 0)
      { bank := w.1, x := r.1, err := w.2 + r.2 }
    | 0x82 => bankModify (bit (x.param 0x11 0) 0) (x.param 0x11 0 / 16 % 16) len base b (h 0) (h 1) (h 2)
    | _ => let r := bankTable x b (h 0); { bank := b, x := r.1, err := r.2 }

/-- One copy of a firing: where the firing takes LOOPENDs, what R111 says of all its beats. -/
def bankCopy (x : Slot) (ends : LoopEnds) (b : Bank) (us : List (List Beat)) : BankAct :=
  let heads := us.map fun u => u.headD {}
  match ends with
  | .none => bankAct x b us
  | .same => { bank := b, x := [loopResult heads], y := [loopResult heads] }
  | .mixed => { bank := b, x := [framedPoison (heads.headD {}).kind], y := [framedPoison (heads.headD {}).kind] }

namespace State

/-- A bank of a tile. -/
def bank (s : State) (p i : Nat) : Bank := look {} (s.tile p).banks i
/-- A bank set. -/
def setBank (s : State) (p i : Nat) (b : Bank) : State :=
  s.setTile p { s.tile p with banks := put (s.tile p).banks i b }

/-- The address of a row in a context's spill area (R306). -/
def rowAddress (s : State) (x p i row : Nat) : Nat := (s.context x).spbase + p * 0x100000 + i * 0x10000 + row * 64

/-- The evicted group of a context that left rows in a tile records a row as spilled (R306, R350). -/
def noteSpilled (s : State) (p i row x : Nat) : State :=
  match find (s.tile p).rowsOf x with
  | some h =>
    let g := s.group h
    if g.st = .evicted then s.setGroup h { g with spilledRows := g.spilledRows ++ [(p, i, row)] } else s
  | none => s

/-- A row of a bank that an earlier owner left: sealed with its context's key 0 and written to its spill area while the
context lives, under the revocation filter, then zeroed (R260, R306). -/
def spillRow (s : State) (p i row x : Nat) : State :=
  let c := s.context x
  let b := s.bank p i
  let va := s.rowAddress x p i row
  let poi := b.spoilt (row * 64) 64
  let s1 := if 1 ≤ c.st && c.st ≤ 6 then
      match s.chargedWalk { ctx := x, stack := stackOfTile p } va Need.store with
      | .ok (e, s2) =>
        let ph := { s2.physBy e va with keyId := 0 }
        let s3 := (s2.storeLine ph (getBytes b.cells (row * 64) 64) false poi).noteSpilled p i row x
        if poi || ph.host then s3
        else s3.setMemory { s3.mem with tags := (List.range 4).foldl (fun l k =>
          let g := capOfBytes (getBytes b.cells (row * 64 + 16 * k) 16) true
          setMem l (ph.key / 16 + k) (s3.filterTag x (b.tags.contains (row * 4 + k)) g.hi g.lo)) s3.mem.tags }
      | .error (_, s2) => s2
    else s
  let b1 := s1.bank p i
  s1.setBank p i { cells := setBytes b1.cells (row * 64) (List.replicate 64 0),
                   tags := b1.tags.filter (· / 4 ≠ row), poison := b1.poison.filter (· / 16 ≠ row),
                   owners := del b1.owners row }

/-- A row of a bank set: its bytes, tags and poison. -/
def setRow (s : State) (p i row : Nat) (bs : List Byte) (tags : Nat → Bool) (poi : Bool) : State :=
  let b := s.bank p i
  s.setBank p i { b with
    cells := setBytes b.cells (row * 64) bs,
    tags := (List.range 4).foldl (fun l k => setMem l (row * 4 + k) (tags k && !poi)) b.tags,
    poison := (List.range 16).foldl (fun l k => setMem l (row * 16 + k) poi) b.poison }

/-- A row fetched back from its owner's spill area, where PTID q named it; one that cannot be read, or fails its seal, comes
poisoned, and revoked tags are cleared (R260, R306). -/
def fetchRow (s : State) (x p i row q : Nat) : State :=
  let va := s.rowAddress x q i row
  match s.chargedWalk { ctx := x, stack := stackOfTile p } va Need.load with
  | .error (_, s1) => s1.setRow p i row (List.replicate 64 0) (fun _ => false) true
  | .ok (e, s1) =>
    let ph := { s1.physBy e va with keyId := 0 }
    let r := portSource (s.portTile (s.handleOf p) p 0) (s.handleOf p)
    let s2 := if (s1.otherTenant ph).isSome then s1 else s1.lineReady ph (wd va) r
    let keeps := fun (k : Nat) =>
      let g := capOfBytes (s2.bytesAt (ph.plus (16 * k)) 16) true
      s2.filterTag x (s2.tagAt (ph.plus (16 * k))) g.hi g.lo
    let l := s1.loadLine ph 64 (wd va) r
    l.2.2.2.setRow p i row l.1 keeps l.2.2.1

/-- A row for the tile's owner: what another owner left there is spilled or zeroed (R306). -/
def ownRow (s : State) (p i row : Nat) : State :=
  match find (s.bank p i).owners row with
  | some x => if (s.tile p).owner = some x then s else s.spillRow p i row x
  | none => s

/-- The first touch of a row by the tile's owner: what another owner left there is spilled or zeroed, and the owner's own row
that was spilled comes back (R306, R350). -/
def touchRow (s : State) (p i row : Nat) : State :=
  let s1 := s.ownRow p i row
  match (s1.tile p).owner, (s1.tile p).away.find? fun a => a.1 = i && a.2.1 = row with
  | some x, some a =>
    (s1.setTile p { s1.tile p with away := (s1.tile p).away.filter fun b => !(b.1 = i && b.2.1 = row) }).fetchRow x p i row a.2.2
  | _, _ => s1

/-- Rows of a bank touched, where any row of the tile is another's or away. -/
def touchRows (s : State) (p i : Nat) (rows : List Nat) : State :=
  if (s.bank p i).owners.isEmpty && (s.tile p).away.isEmpty then s else rows.foldl (fun a r => a.touchRow p i r) s

/-- The rows of n bytes from a on. -/
def rowsAt (a n : Nat) : List Nat := if n = 0 then [] else (List.range ((a + n - 1) / 64 - a / 64 + 1)).map (a / 64 + ·)

/-- n bytes of a bank from a on touched. -/
def touchBytes (s : State) (p i a n : Nat) : State := s.touchRows p i (rowsAt a n)

/-- The units of port o for every copy: a capability pair is one, and where one beat is read it is its first (R131,
R155; log 100). -/
def bankUnits (x : Slot) (o : Nat) : Option (List (List Beat)) := firstUnits x.copies (x.port o)

/-- A region-timed bank element can fire (R101). -/
def bankReady (x : Slot) : Bool :=
  x.live && noWord x && hasRoom x 2 && x.reads.all fun o => (bankUnits x o).isSome

/-- A firing of a region-timed bank element: each copy on its own bank, in order (R153, R156). -/
def bankFire (s : State) (op : Nat) (a : ElemArgs) : State :=
  if s.el.st = .empty then s
  else
    let p := s.curTile
    let n := s.curSlot
    let s1 := s.bearing op a
    let x := s1.el
    if bankReady x then
      let units := x.reads.map fun o => (bankUnits x o).getD []
      let s2 := (List.range x.reads.length).foldl (fun b i =>
        b.takeFrom p n (x.reads.getD i 0) ((units.getD i []).flatten.length)) s1
      let ends := LoopEnds.of (units.flatMap fun us => us.map fun u => u.headD {})
      ((List.range x.copies).foldl (fun b0 k =>
        let us := units.map fun us => us.getD k []
        let b := if ends = .none then (namedBytes x us).foldl (fun c m => c.touchBytes p (n - 32 + k) m.1 m.2) b0 else b0
        let r := bankCopy x ends (b.bank p (n - 32 + k)) us
        let b1 := (b.setBank p (n - 32 + k) r.bank).countErrors p r.err
        let b2 := r.x.foldl (fun c t => c.emitAt p n (s.fc + 2) x.cx t) b1
        if op = 0x80 then r.y.foldl (fun c t => c.emitAt p n (s.fc + 2) x.cy t) b2 else b2)
        (if ends = .mixed then s2.countErrors p 1 else s2)).moved p
    else s1

/-! ## Self-timed bank elements -/

/-- mfifo (R158): a unit is taken while its entries are free; one beat goes on. -/
def mfifoStep (s : State) : Option State :=
  let x := s.el
  let r := x.run
  let room := x.window.1 / 8 - r.beats.length
  let s1 := match headUnit x.portA with
    | some u => if u.length ≤ room then some (s.taken 0 u.length) else none
    | none => none
  let came := match headUnit x.portA with
    | some u => if u.length ≤ room then u else []
    | none => []
  let beats := r.beats ++ came
  let go := beats.headD {}
  let out := if !roomFor x x.cx then [] else if go.kind = .caplo then beats.take 2 else beats.take 1
  if s1.isNone && out.isEmpty then none
  else some (((s1.getD s).setRun { r with beats := beats.drop out.length }).toX out)

/-- SDIM (R154). -/
def sdim (x : Slot) : Nat := x.param 0x11 0 / 256 % 8

/-- mdbuf's write of a unit from B at the place that A's names: their beats leave, a LOOPEND of either alone (R159). -/
def mdbufWrite (s : State) (len base : Nat) (a u : List Beat) : State :=
  let p := s.curTile
  let i := s.curSlot - 32
  let o := a.headD {}
  if o.isLoop then s.taken 0 1
  else if (u.headD {}).isLoop then s.taken 1 1
  else
    let s0 := (reached len base (8 * u.length) 8 o).foldl (fun c m => c.touchBytes p i m.1 m.2) s
    let w := bankWrite len base (s0.bank p i) o u
    (((s0.taken 0 a.length).taken 1 u.length).setBank p i w.1).countErrors p w.2

/-- mdbuf's read at the place that C's beat names, or its LOOPEND passed on (R159). -/
def mdbufRead (s : State) (len base : Nat) (c : List Beat) : State :=
  let p := s.curTile
  let i := s.curSlot - 32
  let x := s.el
  let o := c.headD {}
  if o.isLoop then (s.taken 2 1).toX [o]
  else
    let n := if x.capw then 16 else 8
    let s0 := (reached len base n n o).foldl (fun c m => c.touchBytes p i m.1 m.2) s
    let q := bankRead x.capw len base (s0.bank p i) .data o
    ((s0.taken 2 c.length).countErrors p q.2).toX q.1

/-- mdbuf (R159): a swap when both sides are ready, else a write and a read; run.half is the write half. A port takes a
pair in one step (R131). The LOOPEND that a swap emits depends on both (R91). -/
def mdbufStep (s : State) : Option State :=
  let x := s.el
  let r := x.run
  let len := x.window.1 / 2
  let wbase := x.window.2 + (if r.half then len else 0)
  let rbase := x.window.2 + (if r.half then 0 else len)
  let at_ := fun (o : Nat) => headUnit (x.port o)
  let first := fun (o : Nat) => ((at_ o).getD []).headD ({} : Beat)
  let syncs := fun (o : Nat) => (at_ o).isSome && (first o).isLoop && sdim x ≤ (first o).dim
  if syncs 0 && (!r.swapped || (syncs 2 && roomFor x x.cx)) then
    let s1 := s.taken 0 1
    let out := if (first 0).poi then (first 2).poison else first 2
    let s2 := if r.swapped then (s1.taken 2 1).toX [out] else s1
    some (s2.setRun { r with half := !r.half, swapped := true })
  else
    let wrote : Option State := match at_ 0, at_ 1 with
      | some a, some u => if syncs 0 then none else some (s.mdbufWrite len wbase a u)
      | some a, none => if (first 0).isLoop && !syncs 0 then some (s.mdbufWrite len wbase a []) else none
      | none, _ => none
    match at_ 2 with
    | none => wrote
    | some c =>
      if !r.swapped || syncs 2 || !roomFor x x.cx then wrote else some ((wrote.getD s).mdbufRead len rbase c)

/-- A command's fields, if it keeps the layout (R160): destination bank, length, destination and source
offsets. -/
def bankCommand (op i : Nat) (v : Word) : Option (Nat × Nat × Nat × Nat) :=
  let ok := fun (len o : Nat) => 8 ≤ len && len % 8 = 0 && o % 8 = 0 && o + len ≤ 65536
  if op = 0x85 then
    let len := bits v 32 17
    if bits v 52 12 = 0 && ok len (bits v 16 16) && ok len (bits v 0 16) then
      some (bits v 49 3, len, bits v 16 16, bits v 0 16) else none
  else
    let len := bits v 16 17
    if bits v 33 31 = 0 && ok len (bits v 0 16) then some (i, len, bits v 0 16, bits v 0 16) else none

/-- mcopy and mfill take a command when none is under way; it moves 8 bytes per fc (R160). A pair is taken in one step
(R131). A LOOPEND is passed on (log 110). -/
def commandStep (s : State) : Option State :=
  let x := s.el
  if x.run.command.isSome then none
  else match headUnit x.portA with
    | none => none
    | some u =>
      let b := u.headD {}
      let s1 := s.taken 0 u.length
      if b.isLoop then some (s1.toX [b])
      else if u.any (·.poi) then some (s1.toX [framedPoison (resultKind b.kind)])
      else match bankCommand x.op (s.curSlot - 32) b.data with
        | none => some (s1.elError.toX [framedPoison (resultKind b.kind)])
        | some f => some ((s1.setRun { x.run with command := some b, due := s.fc + f.2.1 / 8 }).post
            (.evBankTransferComplete s.curTile s.curSlot))

/-- A copy between banks as if through a buffer, or a fill with constant 0 (R160). -/
def transfer (s : State) (p n : Nat) (f : Nat × Nat × Nat × Nat) : State :=
  let x := s.slot p n
  let i := n - 32
  let d := f.1
  let len := f.2.1
  let dst := f.2.2.1
  let src := f.2.2.2
  let s := (s.touchBytes p d dst len).touchBytes p i (if x.op = 0x86 then 0 else src) (if x.op = 0x86 then 0 else len)
  let tgt := s.bank p d
  if x.op = 0x86 then
    s.setBank p d (tgt.write dst ((List.range (len / 8)).flatMap fun _ => toBytes 8 (x.const 0).toNat) false)
  else
    let from_ := s.bank p i
    let b1 := tgt.write dst (getBytes from_.cells src len) false
    let b2 := (List.range (len / 4)).foldl (fun (b : Bank) k =>
      if from_.poison.contains (src / 4 + k) then { b with poison := insertNat (dst / 4 + k) b.poison } else b) b1
    let same := src % 16 = dst % 16
    let gs := (List.range (len / 16 + 1)).filter fun k =>
      (src + 15) / 16 * 16 + 16 * k + 16 ≤ src + len && from_.tags.contains ((src + 15) / 16 + k)
    s.setBank p d (if same then { b2 with
      tags := gs.foldl (fun l k => insertNat ((dst + 15) / 16 + k) l) b2.tags } else b2)

end State

/-- mrd (R153-R156). -/
def execElMrd (a : ElemArgs) (s : State) : Result := .next (s.bankFire 0x80 a)
/-- mwr (R153-R156). -/
def execElMwr (a : ElemArgs) (s : State) : Result := .next (s.bankFire 0x81 a)
/-- mrmw (R156). -/
def execElMrmw (a : ElemArgs) (s : State) : Result := .next (s.bankFire 0x82 a)
/-- mfifo (R158). -/
def execElMfifo (a : ElemArgs) (s : State) : Result := .next (s.turn 0x83 a State.mfifoStep)
/-- mdbuf (R159). -/
def execElMdbuf (a : ElemArgs) (s : State) : Result := .next (s.turn 0x84 a State.mdbufStep)
/-- mcopy (R160). -/
def execElMcopy (a : ElemArgs) (s : State) : Result := .next (s.turn 0x85 a State.commandStep)
/-- mfill (R160). -/
def execElMfill (a : ElemArgs) (s : State) : Result := .next (s.turn 0x86 a State.commandStep)
/-- mlut (R157). -/
def execElMlut (a : ElemArgs) (s : State) : Result := .next (s.bankFire 0x87 a)

/-- BANK_TRANSFER_COMPLETE (R56, R160): the last write of the command is performed and the command beat goes to
CX, without a tag. -/
def execEvBankTransferComplete (p n : Nat) (s : State) : Result :=
  .next (match (s.slot p n).run.command with
    | some b =>
      if (s.slot p n).held then s
      else if s.fc < (s.slot p n).run.due then s.postOnce (.evBankTransferComplete p n)
      else
        let x := s.slot p n
        let s1 := match State.bankCommand x.op (n - 32) b.data with
          | some f => s.transfer p n f
          | none => s
        let y := s1.slot p n
        ((s1.setSlot p n { y with run := { y.run with command := none } }).emitNow p n x.cx b.plain).wake p n
    | none => s)

end Sys2Proof.Machine
end

