-- ==== Sys2Proof/Machine/Stream.lean ====
section
/-! DEFINITION. Stream commands and message channels of the helm thread (R165, R213, R227-R230). -/

namespace Sys2Proof.Machine

/-- The code of a KIND on the link (R53). -/
def Kind.code : Kind → Nat
  | .data => 0 | .head => 1 | .tail => 2 | .solo => 3 | .loopend => 4 | .caplo => 5 | .caphi => 6

/-- SB[6:0] of a beat: CFG, KIND, TAG, POI and a zero (R53). -/
def Beat.sideband (b : Beat) : Nat :=
  b2n b.cfg * 64 + b.kind.code * 8 + b2n b.tag * 4 + b2n b.poi * 2

namespace State

/-- The outbound stream n of a unit is mapped by its hout or hbi (R165, R227). -/
def outMapped (s : State) (p u n : Nat) : Bool :=
  let x := s.slot p (57 + u)
  let v := x.param 0x11 0
  x.st ≠ .empty && (x.op == 0xC9 || x.op == 0xCA) && (v % 128 == 64 + n || v / 128 % 128 == 64 + n)

/-- Beats in an outbound queue. -/
def outq (s : State) (p u n : Nat) : List Beat := look [] (s.unit p u).outq n
/-- Beats in an inbound queue. -/
def inq (s : State) (p u n : Nat) : List Beat := look [] (s.unit p u).inq n

/-- Beats placed on an outbound stream, or discarded and counted when nothing maps it (R227). -/
def placeBeats (s : State) (p u n : Nat) (bs : List Beat) : State :=
  if s.outMapped p u n then
    (s.setUnit p u { s.unit p u with outq := put (s.unit p u).outq n (s.outq p u n ++ bs) }).wake p (57 + u)
  else bs.foldl (fun (a : State) _ => a.countError (s.handleOf p)) s

/-- Whether k entries of the acting thread's outbound stream are free (R213). -/
def outFree (s : State) (t n k : Nat) : Bool :=
  (s.outq (ptidOf t) (unitOf t) n).length + k ≤ 16

/-- One beat sent on a stream by SSEND and SSEED (R227). -/
def sendBeat (s : State) (n : Nat) (b : Beat) : State :=
  if s.outFree s.cur n 1 then (s.placeBeats (ptidOf s.cur) (unitOf s.cur) n [b]).advance
  else s.block (.outFree n 1) true

/-- The two beats of a capability (R55). -/
def capBeats (c : Cap) : List Beat :=
  [{ data := c.lo, kind := .caplo, tag := c.tag }, { data := c.hi, kind := .caphi }]

/-- SLOAD once its condition is checked (R227). -/
def sendCap (s : State) (d : Reg) (c : Cap) (n : Nat) : State :=
  if c.tag && !c.has permStream then s.trapCap .perm c.lo
  else if s.outFree s.cur n 2 then
    let s1 := s.placeBeats (ptidOf s.cur) (unitOf s.cur) n (capBeats c)
    s1.retire d (wd (16 - (s1.outq (ptidOf s.cur) (unitOf s.cur) n).length))
  else s.block (.outFree n 2) true

/-- SRECV: one beat is taken; a poisoned one gives 0 (R227). -/
def recvBeat (s : State) (d : Reg) (n : Nat) : State :=
  let p := ptidOf s.cur
  let u := unitOf s.cur
  match s.inq p u n with
  | [] => s.block (.inBeat n) true
  | b :: bs =>
    let s1 := (s.setUnit p u { s.unit p u with inq := put (s.unit p u).inq n bs }).wake p (57 + u)
    let s2 := s1.setTh { s1.th with rxsb := wd (b.sideband * 2) }
    s2.retire d (if b.poi then 0 else b.data)

/-- SDRAIN: completes when the outbound queue is empty (R227). -/
def drained (s : State) (n : Nat) : State :=
  if (s.outq (ptidOf s.cur) (unitOf s.cur) n).isEmpty then s.advance else s.block (.outEmpty n) true

/-- An engine response of thread t is still held outside its channel (R228, R233). -/
def responseHeld (s : State) (t : Nat) : Bool :=
  s.chans.any fun c => c.2.held.any fun m => m.thread = some t

/-- The condition of SBAR (R228): queues empty, engine requests answered in their channels, 16 fc of stillness. -/
def still (s : State) (t : Nat) : Bool :=
  s.unitDrained t && !(s.engines.any fun e => e.thread == t && e.gh == s.handleOf (ptidOf t)) && !s.responseHeld t &&
  (s.group (s.handleOf (ptidOf t))).lastMove + 16 ≤ s.fc

/-- SBAR (R228). -/
def streamBarrier (s : State) : State := if s.still s.cur then s.advance else s.block .sbar true

/-- MSEND (R230): the message enters its channel, or the thread waits its turn. -/
def sendMsg (s : State) (v : Word) (n : Nat) : State :=
  let c := s.chanAt s.cur n
  if s.maySend s.cur c then
    (s.setChan c { s.chan c with msgs := (s.chan c).msgs ++ [v] }).advance
  else s.block (.chanFree c) true

/-- How many waiting receivers stand before thread t at a channel (R230). -/
def ahead (s : State) (t : Nat) (c : ChanId) : Nat :=
  ((s.waiters (.chanMsg c)).takeWhile (· ≠ t)).length

/-- The acquire of a channel, barrier or fence at GROUP scope or wider: the L1 generation rises at the
port tiles of the group (R268). -/
def raiseGen (s : State) (t : Nat) : State :=
  if isCore t then s
  else
    let x := s.ctxOf t
    (s.group (s.handleOf (ptidOf t))).ports.foldl
      (fun a p => { a with l1gen := upd 0 a.l1gen (p.2 * 128 + x) (· + 1) }) s

/-- MRECV (R230): the message that is next for the thread. -/
def recvMsg (s : State) (d : Reg) (n : Nat) : State :=
  let c := s.chanAt s.cur n
  if s.mayRecv s.cur c then
    let k := s.ahead s.cur c
    let m := (s.chan c).msgs.getD k 0
    let x := s.chan c
    let s1 := s.setChan c { x with msgs := x.msgs.eraseIdx k }
    let s2 := if x.held.isEmpty then s1 else s1.postOnce (.evHeldMessageEnter c)
    let s3 := if n < 64 then s2 else s2.raiseGen s.cur
    s3.retire d m
  else s.block (.chanMsg c) true

end State

/-- SLOAD (R227); ILLEGAL_OP on a control core (R43). -/
def execSload (d : Reg) (a : CReg) (n : BitVec 6) (s : State) : Result :=
  .next (if s.onCore then s.illegal (.sload d a n) else s.sendCap d (s.c a) n.toNat)
/-- SSEED (R227); ILLEGAL_OP on a control core (R43). -/
def execSseed (a : Reg) (n : BitVec 6) (s : State) : Result :=
  .next (if s.onCore then s.illegal (.sseed a n) else s.sendBeat n.toNat { data := s.g a, cfg := true })
/-- SSEND (R227); ILLEGAL_OP on a control core (R43). -/
def execSsend (a : Reg) (n : BitVec 6) (s : State) : Result :=
  .next (if s.onCore then s.illegal (.ssend a n) else s.sendBeat n.toNat { data := s.g a })
/-- SRECV (R227); ILLEGAL_OP on a control core (R43). -/
def execSrecv (d : Reg) (n : BitVec 6) (s : State) : Result :=
  .next (if s.onCore then s.illegal (.srecv d n) else s.recvBeat d n.toNat)
/-- SDRAIN (R227); ILLEGAL_OP on a control core (R43). -/
def execSdrain (n : BitVec 6) (s : State) : Result :=
  .next (if s.onCore then s.illegal (.sdrain n) else s.drained n.toNat)
/-- SBAR (R228); ILLEGAL_OP on a control core (R43). -/
def execSbar (s : State) : Result :=
  .next (if s.onCore then s.illegal .sbar else s.streamBarrier)
/-- MSEND (R230). -/
def execMsend (a : Reg) (c : BitVec 8) (s : State) : Result := .next (s.sendMsg (s.g a) c.toNat)
/-- MRECV (R230). -/
def execMrecv (d : Reg) (c : BitVec 8) (s : State) : Result := .next (s.recvMsg d c.toNat)

/-- HELD_MESSAGE_ENTER (R230): the oldest held message enters its channel when it has room and the message began
waiting before every sender thread, or in the same fc; while messages are held the channel is looked at again. -/
def execEvHeldMessageEnter (c : ChanId) (s : State) : Result :=
  .next (match (s.chan c).held with
    | m :: rest =>
      if (s.chan c).msgs.length < 16 &&
          (s.waiters (.chanFree c)).all fun w => m.since ≤ (s.thread w).waitSince then
        let s1 := s.setChan c { msgs := (s.chan c).msgs ++ [m.word], held := rest }
        if rest.isEmpty then s1 else s1.postOnce (.evHeldMessageEnter c)
      else s.postOnce (.evHeldMessageEnter c)
    | [] => s)

end Sys2Proof.Machine
end

