-- ==== Sys2Proof/Machine/Barrier.lean ====
section
/-! DEFINITION. Barriers: the records of tiles, arrivals, waits, homes and completions (R355-R362). -/

namespace Sys2Proof.Machine

namespace State

/-- Record b of a tile (R355). -/
def barrier (s : State) (p b : Nat) : Barrier := look {} (s.tile p).barriers b
/-- The state with record b of a tile set. -/
def setBarrier (s : State) (p b : Nat) (x : Barrier) : State :=
  s.setTile p { s.tile p with barriers := put (s.tile p).barriers b x }

/-- The home of barrier b at a scope, for a tile (R355). -/
def homeAt (s : State) (p b : Nat) (scope : BitVec 3) : HomeId :=
  let x := ((s.tile p).owner).getD 0
  if scope = 2 then .tile p b
  else if scope = 3 then .group (s.handleOf p) b
  else if scope = 5 then .stack x (stackOfTile p) b
  else .package x b

/-- AP[b] of a thread (R355). -/
def apBit (s : State) (t b : Nat) : Bool := (s.thread t).ap.contains b
/-- The state with AP[b] of a thread set. -/
def setAp (s : State) (t b : Nat) (v : Bool) : State :=
  s.setThread t { s.thread t with ap := setMem (s.thread t).ap b v }

/-- An arrival of a tile at record b: counted as an error when the record is not VALID, else on its way
to the home (R359). -/
def arrive (s : State) (p b : Nat) (coll : Option Nat) : State :=
  if (s.barrier p b).valid then
    (s.setTile p { s.tile p with leaving := (s.tile p).leaving ++ [(b, coll)] }).postFirst
      (.evBarrierArrivalSend p b)
  else s.countError (s.handleOf p)

/-- Arrive (R359) by the acting thread: it takes note of the phase and arrives. -/
def arriveThread (s : State) (b : Nat) (coll : Option Nat) : State :=
  let p := ptidOf s.cur
  if (s.barrier p b).valid then (s.setAp s.cur b (s.barrier p b).pv).arrive p b coll
  else s.arrive p b coll

/-- The condition of Wait (R359). -/
def barrierOpen (s : State) (t b : Nat) : Bool :=
  let x := s.barrier (ptidOf t) b
  x.valid && !x.pend && x.pv != s.apBit t b

/-- Wait (R359): the thread takes note of the phase and acquires at the record's scope. -/
def waitBarrier (s : State) (b : Nat) : State :=
  if s.barrierOpen s.cur b then
    let x := s.barrier (ptidOf s.cur) b
    let s1 := s.setAp s.cur b x.pv
    (if x.scope = 2 then s1 else s1.raiseGen s1.cur).advance
  else s.block (.barrier b) true

/-- BARVW (R359): the arrival once, then the wait. -/
def arriveWait (s : State) (b : Nat) : State :=
  let s1 := if s.th.arrived then s else s.arriveThread b none
  (s1.setTh { s1.th with arrived := true }).waitBarrier b

/-- The status word of record b for a thread (R361). -/
def barrierStatus (s : State) (t b : Nat) : Word :=
  let x := s.barrier (ptidOf t) b
  let arr := if x.valid && x.scope = 2 then (s.home (.tile (ptidOf t) b)).arr else 0
  wd (x.exp.toNat * 2 ^ 32 + arr % 65536 * 2 ^ 16 + b2n x.valid * 128 + b2n x.pend * 64 +
    (if x.valid then x.scope.toNat * 8 else 0) + b2n (x.pv != s.apBit t b) * 2 + b2n x.pv)

/-- The tiles a completion of a home is sent to (R355): the tile, the tiles of the group, the context's
tiles on the stack, or all the context's tiles. -/
def homeTiles (s : State) (h : HomeId) : List Nat :=
  match h with
  | .tile p _ => [p]
  | .group g _ => (s.group g).tiles.map (·.2.2)
  | .stack x k _ => (s.tiles.filter fun p => p.2.owner = some x && stackOfTile p.1 = k).map (·.1)
  | .package x _ => (s.tiles.filter fun p => p.2.owner = some x).map (·.1)

end State

/-- The barrier number of a home. -/
def homeNum : HomeId → Nat
  | .tile _ b | .group _ b | .stack _ _ b | .package _ b => b

/-- The tile that sent a message to a home. -/
def HomeMsg.tile : HomeMsg → Nat
  | .arrival p _ | .init p _ => p

/-- A message among those of a home: by the fc in which it reaches it, then the PTID of its tile, then as sent (R356). -/
def enterInbox (m : Nat × HomeMsg) : List (Nat × HomeMsg) → List (Nat × HomeMsg)
  | [] => [m]
  | e :: t => if e.1 < m.1 || (e.1 = m.1 && e.2.tile ≤ m.2.tile) then e :: enterInbox m t else m :: e :: t

namespace State

/-- The fc between a tile and a home (R355): none in the tile, one for each hop of the control network to the group's
master tile, one by seam links (log 10). -/
def homeHops (s : State) (h : HomeId) (p : Nat) : Nat :=
  match h with
  | .tile .. => 0
  | .group g _ => match (s.group g).tiles.find? fun t => t.1 = 0 && t.2.1 = 0 with
    | some t => s.controlHops p t.2.2
    | none => 1
  | .stack .. | .package .. => 1

/-- A message of a tile to a home, taken by an event in the fc in which it reaches it (R356). -/
def sendHome (s : State) (h : HomeId) (m : HomeMsg) (i : Instr) : State :=
  let r := s.fc + s.homeHops h m.tile
  (s.setHome h { s.home h with inbox := enterInbox (r, m) (s.home h).inbox }).postAt r i

/-- A waiter of record b that is released completes its wait (R357, R359). -/
def releaseWaiter (s : State) (b t : Nat) : State :=
  let s1 := ({ s with cur := t }).waitBarrier b
  { s1.setTh { s1.th with busy := s.fc + 1, instr := none } with cur := s.cur }

/-- The threads of a tile that wait on record b and have not taken note of its phase (R357). -/
def phaseWaiters (s : State) (p b : Nat) : List Nat :=
  ((List.range 8).map fun i => p * 8 + i).filter fun t =>
    (s.thread t).st = .waiting && !(s.thread t).frozen && (s.thread t).wait = .barrier b && s.barrierOpen t b

/-- The control port holds a kbar element of barrier b (R166). -/
def hasKbar (x : Slot) (b : Nat) : Bool := x.op == 0xCF && x.st ≠ .empty && x.param 0x10 0 == b

/-- A phase applied to a record: PV, its waiters go on, and each kbar element of the barrier emits its beat, all in this
fc (R166, R357). -/
def applyPhase (s : State) (p b : Nat) (ph : Bool) : State :=
  let s0 := s.setBarrier p b { s.barrier p b with pv := ph }
  let s1 := (s0.phaseWaiters p b).foldl (fun (a : State) t => a.releaseWaiter b t) s0
  if hasKbar (s1.slot p 59) b then
    let s2 := s1.setTile p { s1.tile p with completions := (s1.tile p).completions ++ [(b, ph)] }
    { s2 with now := s2.now ++ [.element p 59] }
  else s1

/-- A completion on its way to a tile whose record counts at home h, which it reaches `far` fc later (R355, R357). -/
def sendPhase (s : State) (h : HomeId) (far p : Nat) (ph : Bool) : State :=
  let b := homeNum h
  let x := s.barrier p b
  if x.valid && s.homeAt p b x.scope = h then
    (s.setTile p { s.tile p with phases := (s.tile p).phases ++ [(b, ph, s.fc + far)] }).postAt (s.fc + far)
      (.evBarrierCompletionApply p b)
  else s

/-- A completion applied to a saved tile whose record b has its scope: PV, and the beat of a kbar element (R166, R362). -/
def savedPhase (b : Nat) (scope : BitVec 3) (ph : Bool) (v : SavedTile) : SavedTile :=
  let r := look {} v.tile.barriers b
  if r.valid && r.scope = scope then
    { v with tile := { v.tile with
        barriers := put v.tile.barriers b { r with pv := ph },
        completions := v.tile.completions ++ (if hasKbar (look {} v.tile.slots 59) b then [(b, ph)] else []) } }
  else v

/-- The compute tile on which a logical tile of an evicted group stood. -/
def stoodOn (g : Group) (v : SavedTile) : Nat :=
  ((g.savedPlace.find? fun t => t.1 = v.col && t.2.1 = v.row).map (·.2.2)).getD 0

/-- A completion that a slot of stack k carries, applied to the saved records of the context's evicted groups that stood
there (R362). -/
def applySaved (s : State) (x k b : Nat) (scope : BitVec 3) (ph : Bool) : State :=
  { s with groups := s.groups.map fun g =>
      if g.2.ctx = x && g.2.st = .evicted then
        (g.1, { g.2 with saved := g.2.saved.map fun (v : SavedTile) =>
          if (stackOfTile (stoodOn g.2 v) == k) = true then savedPhase b scope ph v else v })
      else g }

/-- A completion leaves its home by the completion path (R355): to the tiles, or to the Beacon system
slots of one or every stack. -/
def announce (s : State) (h : HomeId) (ph : Bool) : State :=
  match h with
  | .tile .. | .group .. => (s.homeTiles h).foldl (fun a p => a.sendPhase h (s.homeHops h p) p ph) s
  | .stack x k b =>
    (s.setStack k { s.stack k with completions := (s.stack k).completions ++ [(x, b, ph)] }).postOnce
      (.evBeaconFrame k)
  | .package x b =>
    (List.range 4).foldl (fun a k =>
      (a.setStack k { a.stack k with completions := (a.stack k).completions ++ [(x, 256 + b, ph)] }).postOnce
        (.evBeaconFrame k)) s

/-- An arrival counted at an open home; the last one completes the phase (R356). -/
def countArrival (s : State) (h : HomeId) (coll : Option Nat) : State :=
  let x := s.home h
  let exp := if x.exp = 0 then 65536 else x.exp.toNat
  let colls := x.colls ++ coll.toList
  if x.arr + 1 < exp then s.setHome h { x with arr := x.arr + 1, colls }
  else
    let collsDone := if colls.isEmpty then x.collsDone else x.collsDone ++ [colls]
    let s1 := s.setHome h { x with arr := 0, ph := !x.ph, colls := [], collsDone }
    let s2 := if colls.isEmpty then s1 else s1.post (.evEcollCombine h)
    s2.announce h (!x.ph)

/-- An init taken at a home (R356). -/
def openHome (s : State) (h : HomeId) (p : Nat) (e : BitVec 16) : State :=
  let x := s.home h
  if !x.isOpen then s.setHome h { x with isOpen := true, exp := e, arr := 0, ph := false }
  else if x.arr = 0 then s.setHome h { x with exp := e }
  else if e = x.exp then s
  else s.countError (s.handleOf p)

/-- PH of a home returns to a tile that has sent an init (R356). -/
def sendReply (s : State) (h : HomeId) (p : Nat) : State :=
  let r := s.fc + s.homeHops h p
  let b := homeNum h
  (s.setTile p { s.tile p with replies := (s.tile p).replies ++ [(b, (s.home h).ph, r)] }).postAt r
    (.evBarrierInitReply p b)

/-- The oldest message of a home is taken, in the fc in which it reaches it; an arrival at a home never opened is lost
(R356). -/
def homeTake (s : State) (again : Instr) (h : HomeId) : State :=
  match (s.home h).inbox with
  | [] => s
  | (r, m) :: rest =>
    if s.fc < r then s.post again
    else
      let s1 := s.setHome h { s.home h with inbox := rest }
      match m with
      | .arrival _ coll => if (s1.home h).isOpen then s1.countArrival h coll else s1
      | .init p e => (s1.openHome h p e).sendReply h p

/-- PH of the home taken by record b of a tile: PV and every AP bit, and PEND clears (R357). -/
def takePhase (s : State) (p b : Nat) (ph : Bool) : State :=
  (List.range 8).foldl (fun a i => a.setAp (p * 8 + i) b ph)
    (s.setBarrier p b { s.barrier p b with pv := ph, pend := false })

/-- An init reply that has reached its tile is applied (R357). -/
def applyReply (s : State) (p b : Nat) : State :=
  match (s.tile p).replies.find? (·.1 == b) with
  | none => s
  | some m =>
    if s.fc < m.2.2 then s.post (.evBarrierInitReply p b)
    else
      let rest := (s.tile p).replies.erase m
      let s1 := (s.setTile p { s.tile p with replies := rest }).takePhase p b m.2.1
      if rest.any (·.1 == b) then s1.postOnce (.evBarrierInitReply p b) else s1

/-- The completions of record b that stand at its tile are applied, in their order. -/
def applyHere (s : State) (p b : Nat) : State :=
  let ms := (s.tile p).phases.filter (·.1 == b)
  ms.foldl (fun (a : State) m => a.applyPhase p b m.2.1)
    (s.setTile p { s.tile p with phases := (s.tile p).phases.filter (·.1 != b) })

/-- What a tile has sent to its own home of barrier b is taken there before anything that it sends later (R356). -/
def settleTile (s : State) (p b : Nat) : State :=
  let ms := (s.home (.tile p b)).inbox
  (ms.foldl (fun (a : State) _ => a.homeTake (.evBarrierHomeArrival (.tile p b)) (.tile p b)) s).applyHere p b

/-- BINIT (R358): the record is written and the init sent; at TILE scope the record is the home itself, which takes first
what the tile has sent before (R356). -/
def initBarrier (s : State) (scope : BitVec 3) (v : Word) (b : Nat) : State :=
  let p := ptidOf s.cur
  let e := v.setWidth 16
  let s0 := if scope = 2 then s.settleTile p b else s
  let s1 := s0.setBarrier p b { s0.barrier p b with valid := true, scope, exp := e, pend := true }
  let h := s1.homeAt p b scope
  let s2 := s1.openHome h p e
  (if scope = 2 then s2.takePhase p b (s2.home h).ph else s1.sendHome h (.init p e) (.evBarrierHomeInit h)).advance

end State

/-- BINIT (R358); ILLEGAL_OP on a control core (R43). -/
def execBinit (c : BarScope) (a : Reg) (b : BitVec 8) (s : State) : Result :=
  .next (if s.onCore then s.illegal (.binit c a b) else s.initBarrier (BitVec.ofNat 3 c.code) (s.g a) b.toNat)
/-- BARV (R359); ILLEGAL_OP on a control core (R43). -/
def execBarv (b : BitVec 8) (s : State) : Result :=
  .next (if s.onCore then s.illegal (.barv b) else (s.arriveThread b.toNat none).advance)
/-- BWAIT (R359); ILLEGAL_OP on a control core (R43). -/
def execBwait (b : BitVec 8) (s : State) : Result :=
  .next (if s.onCore then s.illegal (.bwait b) else s.waitBarrier b.toNat)
/-- BTEST (R361); ILLEGAL_OP on a control core (R43). -/
def execBtest (d : Reg) (b : BitVec 8) (s : State) : Result :=
  .next (if s.onCore then s.illegal (.btest d b) else s.retire d (s.barrierStatus s.cur b.toNat))
/-- BARVW (R359); ILLEGAL_OP on a control core (R43). -/
def execBarvw (b : BitVec 8) (s : State) : Result :=
  .next (if s.onCore then s.illegal (.barvw b) else s.arriveWait b.toNat)

/-- BARRIER_ARRIVAL_SEND (R359): the tile's oldest arrival at b leaves for the home. -/
def execEvBarrierArrivalSend (p b : Nat) (s : State) : Result :=
  .next (match (s.tile p).leaving.find? (·.1 == b) with
    | none => s
    | some m =>
      let s1 := s.setTile p { s.tile p with leaving := (s.tile p).leaving.erase m }
      let h := s1.homeAt p b (s1.barrier p b).scope
      s1.sendHome h (.arrival p m.2) (.evBarrierHomeArrival h))

/-- BARRIER_HOME_ARRIVAL (R356): a message that reaches a home is taken. -/
def execEvBarrierHomeArrival (h : HomeId) (s : State) : Result := .next (s.homeTake (.evBarrierHomeArrival h) h)

/-- BARRIER_HOME_INIT (R356): a message that reaches a home is taken. -/
def execEvBarrierHomeInit (h : HomeId) (s : State) : Result := .next (s.homeTake (.evBarrierHomeInit h) h)

/-- BARRIER_COMPLETION_APPLY (R357): the oldest completion of record b that has reached the tile; a frozen group's is
kept until the freeze is released (R362). -/
def execEvBarrierCompletionApply (p b : Nat) (s : State) : Result :=
  .next (if s.groupHeld (s.handleOf p) then s
    else match (s.tile p).phases.find? (·.1 == b) with
      | none => s
      | some m =>
        if s.fc < m.2.2 then s.post (.evBarrierCompletionApply p b)
        else
          let rest := (s.tile p).phases.erase m
          let s1 := (s.setTile p { s.tile p with phases := rest }).applyPhase p b m.2.1
          if rest.any (·.1 == b) then s1.postOnce (.evBarrierCompletionApply p b) else s1)

/-- BARRIER_INIT_REPLY (R357); a frozen tile's record stands until the freeze is released (R348). -/
def execEvBarrierInitReply (p b : Nat) (s : State) : Result :=
  .next (if s.groupHeld (s.handleOf p) then s else s.applyReply p b)

end Sys2Proof.Machine
end

