-- ==== Sys2Proof/Machine/Beacon.lean ====
section
/-! DEFINITION. The Beacon's instructions: BCST, BCFENCE, BSLOT (R291-R295). -/

namespace Sys2Proof.Machine
namespace State

/-- The fields of a BCST request word break their rules (R291). -/
def bcstArg (w : Word) : Bool :=
  bits w 43 21 != 0 || bits w 19 13 != 0 || bits w 0 6 != 0 ||
    65536 < bits w 0 16 + 64 * (bits w 32 11 + 1)

/-- The capability checks of BCST in their order (R291). -/
def bcstFault (s : State) (c : Cap) (n : Nat) : Option CapFault :=
  let x := s.context s.ctx
  match capAlign s.low c c.lo (64 * n) (permStore + permBeacon) 64 with
  | some f => some f
  | none => if x.bwbase ≤ bits c.lo 0 57 && bits c.lo 0 57 + 64 * n ≤ x.bwbase + x.bwlen then none else some .perm

/-- BCST (R291): a request with its rows and capability joins the unit's queue of four. -/
def broadcastRows (s : State) (c : Cap) (w : Word) : State :=
  let n := bits w 32 11 + 1
  let p := ptidOf s.cur
  let u := unitOf s.cur
  if bcstArg w then s.engarg w
  else match s.bcstFault c n with
    | some f => s.trapCap f c.lo
    | none =>
      if 4 ≤ (s.unit p u).bcst.length then s.block .beaconFree true
      else
        let r : Bcst := { thread := s.cur, ctx := s.ctx, bank := bits w 16 3, off := bits w 0 16,
                          row := s.windowByte s.ctx (bits c.lo 0 57) / 64, left := n,
                          storeCap := c.has permStoreCap, storeLocal := c.has permStoreLocal, cap := c, seq := s.ids }
        let s1 : State := { s with ids := s.ids + 1 }
        ((s1.setUnit p u { s1.unit p u with bcst := (s1.unit p u).bcst ++ [r] }).post (.evBcstRowRead p u)).advance

/-- Every payload of a thread's broadcasts has been applied: none is unread, queued on a layer, in its slot, or kept by its
group (R294, R296). -/
def beaconDone (s : State) (t : Nat) : Bool :=
  !((s.unit (ptidOf t) (unitOf t)).bcst.any fun r => r.thread == t) &&
  !(s.layers.any fun l => l.2.queue.any fun p => p.thread == t) &&
  !(s.stackTab.any fun k => k.2.carried.any fun p => p.2.thread == t) &&
  !((s.group (s.handleOf (ptidOf t))).payloads.any fun p => p.thread == t)

/-- BCFENCE (R294): an acquire at STACK scope. -/
def beaconFence (s : State) : State :=
  if s.beaconDone s.cur then (s.raiseGen s.cur).advance else s.block .beaconDone true

/-- The runs a context holds on a stack, one bit each, and PEND (R295). -/
def slotWord (s : State) (x k : Nat) : Word :=
  let b := s.stack k
  let runs := (b.runs.map fun r => match r.2 with
    | .granted y | .reclaim y => if y = x then 2 ^ r.1 else 0
    | .free => 0).sum
  let pend := b.announce.any fun a => match a.2 with
    | .granted y | .reclaim y => y == x
    | .free => false
  wd (b2n pend * 2 ^ 62 + runs)

end State

/-- BCST (R291); ILLEGAL_OP on a control core (R43). -/
def execBcst (a : CReg) (n : Reg) (s : State) : Result :=
  .next (if s.onCore then s.illegal (.bcst a n) else s.broadcastRows (s.c a) (s.g n))
/-- BCFENCE (R294); ILLEGAL_OP on a control core (R43). -/
def execBcfence (s : State) : Result := .next (if s.onCore then s.illegal .bcfence else s.beaconFence)
/-- BSLOT (R295): 0 on a control core. -/
def execBslot (d : Reg) (s : State) : Result :=
  .next (s.retire d (if s.onCore then 0 else s.slotWord s.ctx (stackOf s.cur)))

end Sys2Proof.Machine
end

