-- ==== Sys2Proof/Machine/BeaconRun.lean ====
section
/-! DEFINITION. The Beacon at work: frames, slots, row reads, sleep, wake and refill (R280-R293, R296,
R297). -/

namespace Sys2Proof.Machine

/-- The layers of a stack (R17). -/
def layersOf (k : Nat) : List Nat := (List.range 8).map (k * 8 + ·)

namespace State

/-! ## Rows read from a bank (R292, R293) -/

/-- The payload of the next row of a posted broadcast (R292). -/
def readRow (s : State) (p : Nat) (r : Bcst) : Payload :=
  let b := s.bank p r.bank
  let o := r.off
  let poi := b.spoilt o 64
  let keeps := fun (i : Nat) =>
    let c := capOfBytes (getBytes b.cells (o + 16 * i) 16) true
    b.tags.contains (o / 16 + i) && r.storeCap && (c.has permGlobal || r.storeLocal) &&
      s.filterTag r.ctx true c.hi c.lo
  { ctx := r.ctx, thread := r.thread, row := r.row, bytes := getBytes b.cells o 64, poi,
    tags := BitVec.ofNat 4 (((List.range 4).map fun i => if keeps i then 2 ^ i else 0).sum) }

/-- A posted broadcast with its next row read; none when that was the last. -/
def nextRow (r : Bcst) : Option Bcst :=
  if r.left ≤ 1 then none else some { r with off := r.off + 64, row := r.row + 1, left := r.left - 1 }

/-- A broadcast of a context accepted before another by a unit of the same layer has rows to read (R293); one of a frozen
thread too. -/
def earlierRows (s : State) (p : Nat) (r : Bcst) : Bool :=
  (s.tiles.filter fun t => layerOfTile t.1 = layerOfTile p).any fun t =>
    (t.2.unit0.bcst ++ t.2.unit1.bcst).any fun o => o.ctx = r.ctx && o.seq < r.seq

/-- A broadcast whose capability is revoked is discarded and recorded as a store (R260). -/
def dropBroadcast (s : State) (p u : Nat) (r : Bcst) (t : List Bcst) : State :=
  let gh := s.handleOf p
  let va := (s.context r.ctx).bwbase + (r.row * 64 - (s.context r.ctx).bwoff)
  let s1 := (s.filterReads r.ctx (stackOfTile p) (baseSource 9 (stackOfTile p) gh) r.cap).raise
    (revokedRecord r.ctx (basePlace (stackOfTile p)) gh 2 (wd va) r.cap true)
  let s2 := s1.setUnit p u { s1.unit p u with bcst := t }
  if t.isEmpty then s2 else s2.postOnce (.evBcstRowRead p u)

/-- BCST_ROW_READ (R292, R293): the oldest request of a unit reads a row into the layer's queue, in the order of
acceptance; a frozen thread's rows wait (R296). -/
def rowRead (s : State) (p u : Nat) : State :=
  match (s.unit p u).bcst with
  | [] => s
  | r :: t =>
    if (s.thread r.thread).frozen then s
    else if s.earlierRows p r then s.postOnce (.evBcstRowRead p u)
    else if s.filtered r.ctx r.cap || !r.cap.tag then s.dropBroadcast p u r t
    else
      let s1 := s.touchBytes p r.bank r.off 64
      let l := layerOfTile p
      let s2 := s1.setLayer l { s1.layer l with queue := (s1.layer l).queue ++ [s1.readRow p r] }
      let left := (nextRow r).toList ++ t
      let s3 := s2.setUnit p u { s2.unit p u with bcst := left }
      (if left.isEmpty then s3 else s3.postOnce (.evBcstRowRead p u)).postOnce (.evBeaconFrame (l / 8))

/-! ## Refill (R289, R290) -/

/-- Whether a buffer byte lies in a context's window (R284). -/
def inWindow (s : State) (o : Nat) : Bool :=
  s.contexts.any fun c => c.2.bwoff ≤ o && o < c.2.bwoff + c.2.bwlen

/-- The refill done (R290): rows of windows as they stood at the refill point, fresh rows as they are. -/
def refillBuf (s : State) (y r : BeaconBuf) : BeaconBuf :=
  let stale := fun (o : Nat) => s.inWindow o && !y.fresh.contains (o / 64)
  { cells := (r.cells.filter fun c => stale c.1).foldl (fun m c => setByte m c.1 c.2)
      (y.cells.filter fun c => !stale c.1),
    tags := (r.tags.filter fun g => stale (g * 16)).foldl (fun l g => insertNat g l)
      (y.tags.filter fun g => !stale (g * 16)),
    poison := (r.poison.filter fun g => stale (g * 64)).foldl (fun l g => insertNat g l)
      (y.poison.filter fun g => !stale (g * 64)) }

/-- The first row from c on that stands in a context's window (R284). -/
def windowRow (s : State) (c : Nat) : Option Nat :=
  ((s.contexts.filterMap fun x =>
    let lo := Nat.max c (x.2.bwoff / 64)
    if lo < (x.2.bwoff + x.2.bwlen) / 64 then some lo else none)).foldl
    (fun a r => some (match a with
      | some b => Nat.min b r
      | none => r)) none

/-- The next row that a layer's refill copies: of a window, and not fresh; at most n rows are fresh (R290). -/
def refillNext (s : State) (fresh : List Nat) : Nat → Nat → Option Nat
  | 0, c => s.windowRow c
  | n + 1, c => match s.windowRow c with
    | some r => if fresh.contains r then refillNext s fresh n (r + 1) else some r
    | none => none

/-- A REFILLING layer's refill: a row is copied in each fc, and after the last the layer is AWAKE (R289, R290). -/
def refillStep (s : State) (l : Nat) : State :=
  let y := s.layer l
  let k := l / 8
  if y.bstate ≠ 2 || !y.listen then s
  else match s.refillNext y.buf.fresh y.buf.fresh.length y.refillRow with
    | some r => (s.setLayer l { y with refillRow := r + 1 }).postOnce (.evRefillComplete l)
    | none =>
      let r := look {} (s.stack k).refill l
      let s1 := s.setLayer l { y with bstate := 0, buf := s.refillBuf y.buf r }
      s1.setStack k { s1.stack k with refill := del (s1.stack k).refill l }

/-! ## Frames (R280, R287, R288) -/

/-- Something of a stack's Beacon waits for a frame. -/
def beaconWork (s : State) (k : Nat) : Bool :=
  let b := s.stack k
  !b.pending.isEmpty || !b.announce.isEmpty || !b.completions.isEmpty || !b.clears.isEmpty || !b.carried.isEmpty ||
  (layersOf k).any fun l =>
    let y := s.layer l
    !y.queue.isEmpty || (y.listen != (y.bstate != 1))

/-- The run states when the changes announced in the frame before take effect, and those announced now
(R287). -/
def runsAt (runs : Table RunState) (old new : List (Nat × RunState)) : Table RunState :=
  let took := old.foldl (fun t a => put t a.1 (match a.2 with
    | .reclaim _ => .free
    | v => v)) runs
  new.foldl (fun t a => match a.2 with
    | .reclaim x => put t a.1 (.reclaim x)
    | .free => put t a.1 .free
    | .granted _ => t) took

/-- The context that may transmit in a run. -/
def runHolder : RunState → Option Nat
  | .granted x | .reclaim x => some x
  | .free => none

/-- The layers of a stack with pending payloads, and the contexts of these, as the layers report them (R288; log 37). -/
def reports (s : State) (k : Nat) : List (Nat × Nat) :=
  (layersOf k).flatMap fun l =>
    (((s.layer l).queue.filter fun q => !(s.thread q.thread).frozen).map fun q => (l, q.ctx)).eraseDups

/-- The layers of a stack that have reported pending payloads of a context, in the rotation that begins after `first`
(R288). -/
def pendingLayers (s : State) (k x first : Nat) : List Nat :=
  ((List.range 8).map fun i => k * 8 + (first + 1 + i) % 8).filter fun l => (s.stack k).reported.contains (l, x)

/-- The runs of one context dealt to its pending layers (R288). -/
def dealRuns (s : State) (k x : Nat) (runs : List Nat) : Table Nat :=
  let ls := s.pendingLayers k x (look 7 (s.stack k).lastFirst x)
  if ls.isEmpty then [] else (List.range runs.length).map fun i => (runs.getD i 0, ls.getD (i % ls.length) 0)

/-- The assignment of a frame (R288). -/
def assignRuns (s : State) (k : Nat) (runs : Table RunState) : Table Nat :=
  let held := runs.filterMap fun r => (runHolder r.2).map fun x => (r.1, x)
  ((held.map (·.2)).eraseDups).foldl (fun (a : Table Nat) x =>
    (s.dealRuns k x ((held.filter (·.2 = x)).map (·.1))).foldl (fun t e => put t e.1 e.2) a) []

/-- The layer that received the first run of a context in this frame (R288). -/
def firstLayer (s : State) (k x : Nat) : Option Nat :=
  ((s.stack k).assign.find? fun e => runHolder (look .free (s.stack k).runs e.1) = some x).map fun e => e.2 % 8

/-- The slots of a frame that carry something: completions, clears, assigned runs (R282, R283). -/
def frameSlots (b : Stack) (assign : Table Nat) : List Nat :=
  (List.range (Nat.min 4 b.completions.length)).map (1 + ·) ++
  (List.range (Nat.min 2 b.clears.length)).map (13 + ·) ++
  assign.flatMap fun r => (List.range 8).map (16 + 8 * r.1 + ·)

/-- A layer's reception changes at a frame's start; a waking one takes its refill point (R289, R290). -/
def frameLayer (s : State) (k l : Nat) : State :=
  let y := s.layer l
  if y.bstate = 1 then s.setLayer l { y with listen := false }
  else if y.listen then s
  else
    let s1 := s.setLayer l { y with listen := true, refillRow := 0, buf := { y.buf with fresh := [] } }
    (s1.setStack k { s1.stack k with refill := put (s1.stack k).refill l (s1.stack k).base }).refillStep l

/-- A frame begins (R280, R287, R288). -/
def beginFrame (s : State) (k : Nat) : State :=
  let s1 := (layersOf k).foldl (fun a l => a.frameLayer k l) s
  let b := s1.stack k
  let runs := runsAt b.runs b.announce b.pending
  let assign := s1.assignRuns k runs
  let s2 := s1.setStack k { b with runs, announce := b.pending.filter (·.2 ≠ .free), pending := [],
                                   frame := s.fc / 1024, assign, reported := [] }
  (frameSlots b assign).foldl (fun t n => t.post (.evBeaconSlot k n)) s2

/-- BEACON_FRAME (R280, R288): a frame begins in the fc that is its boundary; 32 fc before, the layers have reported. -/
def frame (s : State) (k : Nat) : State :=
  if s.fc % 1024 = 0 && (s.stack k).frame < s.fc / 1024 then
    let s1 := s.beginFrame k
    if s1.beaconWork k then s1.postOnce (.evBeaconFrame k) else s1
  else
    let s1 := if s.fc % 1024 = 992 then s.setStack k { s.stack k with reported := s.reports k } else s
    s1.postOnce (.evBeaconFrame k)

/-! ## Slots (R280-R282, R297) -/

/-- A payload's tags under the revocation filter of its context (R260). -/
def filterPayload (s : State) (y : Payload) : Payload :=
  { y with tags := BitVec.ofNat 4 (((List.range 4).map fun i =>
      let g := capOfBytes ((y.bytes.drop (16 * i)).take 16) true
      if s.filterTag y.ctx (y.tags.getLsbD i) g.hi g.lo then 2 ^ i else 0).sum) }

/-- A payload applied at the base die and on every layer that listens (R280, R286, R290). -/
def applyPayload (s : State) (k : Nat) (y0 : Payload) : State :=
  let y := s.filterPayload y0
  let s1 := s.setStack k { s.stack k with base := (s.stack k).base.writeRow y false }
  (layersOf k).foldl (fun (a : State) l =>
    let z := a.layer l
    if z.listen then a.setLayer l { z with buf := z.buf.writeRow y (z.bstate == 2) } else a) s1

/-- The payload a context slot carries: the head of the queue of the run's holder on the assigned layer; a
frozen thread's keeps its place (R288, R296). -/
def slotPayload (s : State) (k n : Nat) : Option (Nat × Payload) :=
  let r := (n - 16) / 8
  match runHolder (look .free (s.stack k).runs r), find (s.stack k).assign r with
  | some x, some l =>
    match (s.layer l).queue.find? (·.ctx = x) with
    | some y => if (s.thread y.thread).frozen then none else some (l, y)
    | none => none
  | _, _ => none

/-- A context slot begins: the payload at the head of the queue is transmitted in it, and its context's rotation goes by this
frame (R280, R288). -/
def fillSlot (s : State) (k n : Nat) : State :=
  match s.slotPayload k n with
  | some (l, y) =>
    let s1 := s.setLayer l { s.layer l with queue := (s.layer l).queue.erase y }
    let b := s1.stack k
    s1.setStack k { b with carried := put b.carried n y, lastFirst := match s.firstLayer k y.ctx with
      | some f => put b.lastFirst y.ctx f
      | none => b.lastFirst }
  | none => s

/-- A context slot is over: what it carries is applied (R280). -/
def contextSlot (s : State) (k n : Nat) : State :=
  match find (s.stack k).carried n with
  | some y => (s.setStack k { s.stack k with carried := del (s.stack k).carried n }).applyPayload k y
  | none => s

/-- A barrier completion slot (R282, R297): every layer of the stack observes it. -/
def completionSlot (s : State) (k : Nat) : State :=
  match (s.stack k).completions with
  | [] => s
  | (x, b, ph) :: t =>
    let s1 := s.setStack k { s.stack k with completions := t }
    let h : HomeId := if b < 256 then .stack x k b else .package x (b - 256)
    let ps := (s1.homeTiles h).filter fun p => stackOfTile p = k
    let s2 := ps.foldl (fun (a : State) p => a.sendPhase h 0 p ph) s1
    if b < 256 then s2.applySaved x k b 5 ph else s2.applySaved x k (b - 256) 6 ph

/-- A buffer in which a Sieve tag clear is applied: the granule's tag goes where it still holds what the Sieve examined
(R259, R282). -/
def BeaconBuf.clearExamined (b : BeaconBuf) (g : Nat × Cap) : BeaconBuf :=
  if b.read (g.1 * 16) 16 = capBytes g.2 then b.clearTag g.1 else b

/-- A Sieve tag clear slot (R282). -/
def clearSlot (s : State) (k : Nat) : State :=
  match (s.stack k).clears with
  | [] => s
  | g :: t =>
    let s1 := s.setStack k { s.stack k with clears := t, base := BeaconBuf.clearExamined (s.stack k).base g }
    (layersOf k).foldl (fun (a : State) l =>
      let z := a.layer l
      if z.listen then a.setLayer l { z with buf := BeaconBuf.clearExamined z.buf g } else a) s1

/-- BEACON_SLOT (R280): slot n of the frame begins, and is applied in its fc. -/
def slotApply (s : State) (k n : Nat) : State :=
  let start := 1024 * (s.stack k).frame + 2 * n
  let s1 := if 16 ≤ n && n < 512 && s.fc = start then s.fillSlot k n else s
  if s.fc < start + 2 then s1.post (.evBeaconSlot k n)
  else if n < 1 then s
  else if n ≤ 4 then s.completionSlot k
  else if n = 13 || n = 14 then s.clearSlot k
  else if 16 ≤ n && n < 512 then s.contextSlot k n
  else s

/-! ## Sleep and wake (R289) -/

/-- A placed group stands on a layer (R289, R339). -/
def layerHosts (s : State) (l : Nat) : Bool :=
  s.groups.any fun g => g.2.st != .unplaced && g.2.st != .evicted && g.2.st != .retired &&
    g.2.tiles.any fun t => layerOfTile t.2.2 = l

/-- A sleep request (R289): refused unless AWAKE with no placed group and empty queues. -/
def sleepLayer (s : State) (l : Nat) : State :=
  let y := s.layer l
  if y.bstate = 0 && !s.layerHosts l && y.queue.isEmpty then
    (s.setLayer l { y with bstate := 1 }).postOnce (.evBeaconFrame (l / 8))
  else s

/-- A wake request (R289). -/
def wakeLayer (s : State) (l : Nat) : State :=
  let y := s.layer l
  if y.bstate = 1 then
    (s.setLayer l { y with bstate := 2, listen := false }).postOnce (.evBeaconFrame (l / 8))
  else s

end State

/-- BEACON_FRAME (R280, R287, R288). -/
def execEvBeaconFrame (k : Nat) (s : State) : Result := .next (s.frame k)
/-- BEACON_SLOT (R280-R282, R297). -/
def execEvBeaconSlot (k n : Nat) (s : State) : Result := .next (s.slotApply k n)
/-- BCST_ROW_READ (R292, R293). -/
def execEvBcstRowRead (p u : Nat) (s : State) : Result := .next (s.rowRead p u)
/-- LAYER_SLEEP_REQUEST (R289). -/
def execEvLayerSleepRequest (l : Nat) (s : State) : Result := .next (s.sleepLayer l)
/-- LAYER_WAKE_REQUEST (R289). -/
def execEvLayerWakeRequest (l : Nat) (s : State) : Result := .next (s.wakeLayer l)
/-- REFILL_COMPLETE (R290). -/
def execEvRefillComplete (l : Nat) (s : State) : Result := .next (s.refillStep l)

end Sys2Proof.Machine
end

