-- ==== Sys2Proof/Machine/Engine.lean ====
section
/-! DEFINITION. Posting engine requests: ECOPY, EGATHER, ECOLL (R231). -/

namespace Sys2Proof.Machine
namespace State

/-- RCH is a TILE channel or 0xFF (R231). -/
def rchOk (w : Word) : Bool := bits w 0 8 < 64 || bits w 0 8 == 255

/-- Element size of an ECOLL OP (R232). -/
def collSize (op : Nat) : Nat := if op = 0 || op = 3 then 4 else 8

/-- A field of an ECOPY request word breaks its rule (R231). -/
def ecopyArg (core : Bool) (w : Word) (d : CReg) : Bool :=
  !rchOk w || bits w 60 4 != 0 || bits w 16 24 == 0 ||
  (bits w 40 1 == 1 && (core || d != 0 || 65536 < bits w 44 16 + bits w 16 24))

/-- A field of an EGATHER request word breaks its rule (R231). -/
def egatherArg (w : Word) : Bool :=
  !rchOk w || bits w 53 11 != 0 || 4 < bits w 16 3 || bits w 22 16 % 4 != 0 ||
    65536 < bits w 22 16 + 4 * (bits w 38 15 + 1)

/-- A field of an ECOLL request word breaks its rule (R231). -/
def ecollArg (w : Word) : Bool :=
  !rchOk w || bits w 28 4 != 0 || bits w 56 8 != 0 || 7 < bits w 24 4 || bits w 32 24 == 0

/-- The check of an engine's whole range (R231, R257, R285). -/
def engineFault (s : State) (c : Cap) (size perms : Nat) (store : Bool) : Option (CapFault × Word) :=
  let no := !s.onCore && (s.touchesSieve s.ctx (bits c.lo 0 57) size ||
    (store && s.touchesWindow s.ctx (bits c.lo 0 57) size))
  (capCheckX s.low c c.lo size perms no).map fun f => (f, c.lo)

/-- EGATHER's check of its source: tagged, unsealed and with LOAD (R231). -/
def gatherSource (s : State) (c : Cap) : Option (CapFault × Word) :=
  if !c.tag then some (.tag, c.lo)
  else if c.sealType ≠ 0 then some (.seal, c.lo)
  else if (s.low && c.has permSystem) || !c.has permLoad then some (.perm, c.lo)
  else none

/-- The first of two checks that fails. -/
def firstFault (a b : Option (CapFault × Word)) : Option (CapFault × Word) := match a with
  | some f => some f
  | none => b

/-- The checks of the capabilities of a request, in R231's order. -/
def requestFault (s : State) (kind : Nat) (d a : Cap) (w : Word) : Option (CapFault × Word) :=
  if kind = 0 then
    firstFault (s.engineFault a (bits w 16 24) permLoad false)
      (if bits w 40 1 = 1 then none else s.engineFault d (bits w 16 24) permStore true)
  else if kind = 1 then
    firstFault (s.engineFault d ((bits w 38 15 + 1) * 2 ^ bits w 16 3) permStore true)
      (s.gatherSource a)
  else
    let n := bits w 32 24 * collSize (bits w 24 4)
    firstFault (s.engineFault a n permLoad false) (s.engineFault d n permStore true)

/-- The group of a thread, as its engine requests name it; 0 for a control core's. -/
def groupOfThread (s : State) (t : Nat) : Nat := if isCore t then 0 else s.handleOf (ptidOf t)

/-- Requests of a thread's unit, or core, not yet performed (R213). -/
def unitRequests (s : State) (t : Nat) : Nat :=
  (s.engines.filter fun e => e.thread / 4 == t / 4 && e.gh == s.groupOfThread t && !e.performed).length

/-- A request posted to the engines of the thread's stack (R231). -/
def postRequest (s : State) (kind : Nat) (d a : Cap) (w : Word) : State :=
  let e : EngReq := { id := s.ids, kind, thread := s.cur, gh := s.groupOfThread s.cur, place := placeOf s.cur, ctx := s.ctx, src := a,
                      dst := d, word := w, user := s.low }
  let s1 := { s with engines := s.engines ++ [e], ids := s.ids + 1 }
  if kind = 2 then s1.arriveThread (bits w 16 8) (some e.id) else s1.post (.evEngineTransfer e.id)

/-- An engine request: ENGARG, then CAP, then the unit's queue of eight (R213, R231, R234). -/
def request (s : State) (kind : Nat) (arg : Bool) (d a : Cap) (w : Word) : State :=
  if arg then s.engarg w
  else match s.requestFault kind d a w with
    | some (f, v) => s.trapCap f v
    | none =>
      if 8 ≤ s.unitRequests s.cur then s.block .engineFree true
      else (s.postRequest kind d a w).advance

end State

/-- ECOPY (R231). -/
def execEcopy (d a : CReg) (n : Reg) (s : State) : Result :=
  .next (s.request 0 (State.ecopyArg s.onCore (s.g n) d) (s.c d) (s.c a) (s.g n))
/-- EGATHER (R231); ILLEGAL_OP on a control core (R43). -/
def execEgather (d a : CReg) (n : Reg) (s : State) : Result :=
  .next (if s.onCore then s.illegal (.egather d a n)
    else s.request 1 (State.egatherArg (s.g n)) (s.c d) (s.c a) (s.g n))
/-- ECOLL (R231); ILLEGAL_OP on a control core (R43). -/
def execEcoll (d a : CReg) (n : Reg) (s : State) : Result :=
  .next (if s.onCore then s.illegal (.ecoll d a n)
    else s.request 2 (State.ecollArg (s.g n)) (s.c d) (s.c a) (s.g n))

end Sys2Proof.Machine
end

