-- ==== Sys2Proof/Machine/EngineRun.lean ====
section
/-! DEFINITION. The engines at work: copies, gathers, combinations and responses (R232, R233, R406). -/

namespace Sys2Proof.Machine

/-- The pieces of n bytes from address a on, cut at 64-byte lines: address and length. -/
def linePieces (a n : Nat) : List (Nat × Nat) :=
  if n = 0 then [] else (List.range ((a % 64 + n + 63) / 64)).map fun i =>
    let lo := Nat.max a (a / 64 * 64 + 64 * i)
    let hi := Nat.min (a + n) (a / 64 * 64 + 64 * (i + 1))
    (lo, hi - lo)

/-! ## Fields of a request word (R231) -/

/-- RCH. -/
def EngReq.rch (e : EngReq) : Nat := bits e.word 0 8
/-- KID. -/
def EngReq.kid (e : EngReq) : Nat := bits e.word 8 8
/-- LEN of an ECOPY. -/
def EngReq.len (e : EngReq) : Nat := bits e.word 16 24
/-- TOBANK of an ECOPY. -/
def EngReq.toBank (e : EngReq) : Bool := e.kind = 0 && bits e.word 40 1 = 1
/-- Element size of an EGATHER. -/
def EngReq.gatherSize (e : EngReq) : Nat := 2 ^ bits e.word 16 3
/-- Elements of an EGATHER. -/
def EngReq.gatherCount (e : EngReq) : Nat := bits e.word 38 15 + 1
/-- Elements of an ECOLL. -/
def EngReq.collCount (e : EngReq) : Nat := bits e.word 32 24
/-- OP of an ECOLL. -/
def EngReq.op (e : EngReq) : Nat := bits e.word 24 4

/-- The destination of a request: 0 for memory or 1 + bank, its first address and its length. -/
def EngReq.target (e : EngReq) : Nat × Nat × Nat :=
  if e.toBank then (1 + bits e.word 41 3, bits e.word 44 16, e.len)
  else if e.kind = 0 then (0, e.dst.va, e.len)
  else if e.kind = 1 then (0, e.dst.va, e.gatherCount * e.gatherSize)
  else (0, e.dst.va, e.collCount * State.collSize e.op)

namespace State

/-! ## Accesses of the engines -/

/-- Why an engine access does not go on: a page fault, an address that firmware space does not hold, or a
limiter or interface that holds it, or a closed path to a home stack (R372, R398, R405, R414, R424). -/
inductive EngStop where
  | fault (f : WalkFail)
  | nowhere
  | held
  | closed (home : Nat)
deriving DecidableEq, Repr

/-- The raiser's fields of an engine's records (R382). -/
def engSource (e : EngReq) : Record := baseSource 9 (stackOf e.thread) e.gh

/-- Who an engine's walks are for (R367, R369). -/
def engAsker (s : State) (e : EngReq) : Asker :=
  { ctx := e.ctx, high := !e.user, cfgid := some (s.group e.gh).image.cfgid, stack := stackOf e.thread }

/-- Where an address of a request lies (R232, R367, R424); the base die walks for each access, and the access leaves its
limiter, its interface and its path (R22, R398, R405). -/
def engPlace (s : State) (e : EngReq) (va : Nat) (n : Need) : Except (EngStop × State) (Phys × State) :=
  let k := stackOf e.thread
  if isCore e.thread then
    match firmwarePlace (wd va) with
    | .memory p => if s.pathOpen k p.home then .ok (p, s) else .error (.closed p.home, s)
    | _ => .error (.nowhere, s)
  else match s.chargedWalk (s.engAsker e) va n with
    | .error (f, s1) => .error (.fault f, s1)
    | .ok (x, s1) =>
      let p := s1.physBy x va
      if s1.mayIssue k p then .ok (p, s1.charge e.ctx k)
      else .error (if p.host || s1.pathOpen k p.home then .held else .closed p.home, s1)

/-- The granules that lie whole in n bytes from va on. -/
def wholeGranules (va n : Nat) : List Nat :=
  (List.range 4).filterMap fun i =>
    let g := (va + 15) / 16 + i
    if g * 16 + 16 ≤ va + n then some (g * 16) else none

/-- A piece read from a stack's authoritative beacon copy, its tags under the revocation filter (R260, R285). -/
def engBeacon (s : State) (e : EngReq) (va n : Nat) : EngRead :=
  let b := (s.stack (stackOf e.thread)).base
  let o := s.windowByte e.ctx va
  { bytes := b.read o n, bad := if b.poison.contains (o / 64) then [(va, n)] else [],
    tags := (wholeGranules va n).filterMap fun g =>
      let w := s.windowByte e.ctx g
      let c := capOfBytes (b.read w 16) true
      if b.tags.contains (w / 16) && s.filterTag e.ctx true c.hi c.lo then some (g, c) else none }

/-- The one record of an engine request that its capability, `detail` 1 its source's and 2 its destination's, is revoked
(R260, R381). -/
def engRevoked (s : State) (e : EngReq) (detail va : Nat) (c : Cap) : EngReq × State :=
  if e.told.contains detail then (e, s)
  else ({ e with told := detail :: e.told },
    s.raise (revokedRecord e.ctx (basePlace (stackOf e.thread)) e.gh detail (wd va) c true))

/-- The granules of a piece that bear a tag, once its line is ready, under the revocation filter (R232, R260, R273). -/
def engTags (s : State) (e : EngReq) (p : Phys) (va n : Nat) : List (Nat × Cap) :=
  (wholeGranules va n).filterMap fun g =>
    let q := p.plus (g - va)
    let c := capOfBytes (s.bytesAt q 16) true
    if s.tagAt q && (isCore e.thread || s.filterTag e.ctx true c.hi c.lo) then some (g, c) else none

/-- A piece of a line as its L2 slice gives it to an engine: bytes, tags and poison of one moment (R232, R273). -/
def engLine (s : State) (e : EngReq) (p : Phys) (va n : Nat) : EngRead × State :=
  let s1 := if (s.otherTenant p).isSome then s else s.lineReady p (wd va) (engSource e)
  let r := s1.loadLine p n (wd va) (engSource e)
  ({ bytes := r.1, tags := if r.2.2.1 then [] else s1.engTags e p va n,
     bad := if r.2.2.1 then [(va, n)] else [], host := p.host }, r.2.2.2)

/-- A piece of a line read by an engine, under the revocation filter (R232, R260, R285). -/
def engRead (s : State) (e : EngReq) (va n : Nat) : Except (EngStop × State) (EngRead × EngReq × State) :=
  let revoked : EngRead := { bytes := List.replicate n 0, bad := [(va, n)] }
  if !isCore e.thread && s.touchesWindow e.ctx va n then
    .ok (if s.filtered e.ctx e.src then (revoked, s.engRevoked e 1 va e.src) else (s.engBeacon e va n, e, s))
  else match s.engPlace e va Need.load with
    | .error f => .error f
    | .ok (p, s1) =>
      if isCore e.thread then .ok ((s1.engLine e p va n).1, e, (s1.engLine e p va n).2)
      else
        let s2 := s1.filterReads e.ctx (stackOf e.thread) (engSource e) e.src
        if s2.filtered e.ctx e.src then .ok (revoked, s2.engRevoked e 1 va e.src)
        else .ok ((s2.engLine e p va n).1, e, (s2.engLine e p va n).2)

/-- The tags of a stored piece set: of the granules of the given addresses, unless the capability now there is revoked
(R260). -/
def setGranules (s : State) (e : EngReq) (p : Phys) (va : Nat) (gs : List Nat) : State :=
  let keep := gs.filter fun g =>
    let c := capOfBytes (s.bytesAt (p.plus (g - va)) 16) true
    isCore e.thread || s.filterTag e.ctx true c.hi c.lo
  s.setMemory { s.mem with tags := keep.foldl (fun l g => insertNat ((p.key + (g - va)) / 16) l) s.mem.tags }

/-- An engine's store leaves no copy of its line in the L1s of its thread's group: taking its response, or its token, is an
acquire of what it wrote (R233, R269, R272). -/
def dropGroupL1 (s : State) (e : EngReq) (p : Phys) : State :=
  ((s.group e.gh).ports.map (·.2)).foldl (fun (a : State) t => a.dropL1 t p) s

/-- Runs of bytes of one line, each at its offset from va, poisoned or not, stored as one access: the place of va is
translated once (R272). -/
def engRuns (s : State) (e : EngReq) (va : Nat) (rs : List (Nat × List Byte × Bool)) :
    Except (EngStop × State) (Phys × Bool × EngReq × State) :=
  match s.engPlace e va Need.store with
  | .error f => .error f
  | .ok (p, s1) =>
    let s2 := if isCore e.thread then s1 else s1.filterReads e.ctx (stackOf e.thread) (engSource e) e.dst
    if !isCore e.thread && s2.filtered e.ctx e.dst then .ok (p, false, s2.engRevoked e 2 va e.dst)
    else .ok (p, true, e, (rs.foldl (fun a r =>
      a.store (p.plus r.1) r.2.1 false r.2.2 (wd (va + r.1)) (engSource e)) s2).dropGroupL1 e p)

/-- A piece of a line written by an engine, its tags those of `gs` where the page grants them (R232, R260);
the answer tells whether it was a host frame. -/
def engWrite (s : State) (e : EngReq) (va : Nat) (bs : List Byte) (gs : List Nat) (poi : Bool) :
    Except (EngStop × State) (Bool × EngReq × State) :=
  match s.engRuns e va [(0, bs, poi)] with
  | .error f => .error f
  | .ok (p, done, e1, s1) =>
    .ok (p.host, e1, if done && p.cs && !p.host && !s1.poisonedAt p then s1.setGranules e p va gs else s1)

/-- A request set. -/
def setEngine (s : State) (e : EngReq) : State :=
  { s with engines := s.engines.map fun (o : EngReq) => if o.id = e.id then e else o }

/-- The record of an engine's page fault (R372, R382). -/
def engRecord (e : EngReq) (va : Nat) (f : WalkFail) : Record :=
  pageRecord { engSource e with ctx := some e.ctx, raiser := .engine e.id } (wd va) f

/-- The event in which a request goes on: its transfer, or the combination it takes part in. -/
def engEvent (s : State) (e : EngReq) : Instr :=
  match if e.kind = 2 then s.collHome e.id else none with
  | some h => .evEcollCombine h
  | none => .evEngineTransfer e.id

/-- A request that may not go on comes again: a tile thread's from its limiter, a control core's in the next fc. -/
def engHold (s : State) (e : EngReq) : State :=
  if isCore e.thread then (s.setEngine e).postOnce (s.engEvent e)
  else (s.setEngine e).holdEvent e.ctx (stackOf e.thread) (s.engEvent e)

/-- A request stops at an access: it pauses with its record raised, or, in firmware space, ends POISONED
(R232, R372, R424). -/
def engStop (s : State) (e : EngReq) (va : Nat) (store : Bool) : EngStop → State
  | .fault f =>
    (s.setEngine { e with paused := true, faultAt := 2 * (va / 4096) + b2n store }).raise (engRecord e va f)
  | .nowhere => (s.setEngine { e with performed := true, status := 1 }).post (.evEngineResponse e.id)
  | .held => s.engHold e
  | .closed j => s.engHold { e with edge := some j }

/-- What waits for a request of the thread to be performed goes on: its transfers and the combinations it takes part
in (R233). -/
def engNext (s : State) (e : EngReq) : State :=
  let mine := s.engines.filter fun o => o.thread = e.thread && o.gh = e.gh && !o.performed
  let s1 := (mine.filter fun o => !o.paused && o.kind ≠ 2).foldl (fun a o => a.postOnce (.evEngineTransfer o.id)) s
  (s1.homes.filter fun h => h.2.collsDone.any fun ks => mine.any fun o => ks.contains o.id).foldl
    (fun a h => a.postOnce (.evEcollCombine h.1)) s1

/-- The last-beat token of a request leaves for its tile, once its group stands (R166, R233, R350). -/
def engToken (s : State) (e : EngReq) : State :=
  if isCore e.thread || e.bytes = 0 then s
  else if s.groupAway e.gh then s.setEngine { e with tokenDue := true }
  else (s.setEngine { e with tokenDue := false }).post (.evLastBeatTokenArrive (ptidOf e.thread) e.kid e.bytes)

/-- A request has done its last unit: its last-beat token leaves, and its response comes (R233). -/
def engDone (s : State) (e : EngReq) : State :=
  let e1 := { e with performed := true }
  (((s.setEngine e1).post (.evEngineResponse e.id)).engToken e1).engNext e

/-- A piece added to what a request has read. -/
def addRead (e : EngReq) (r : EngRead) : EngReq :=
  { e with gotN := e.gotN + 1,
           got := { bytes := e.got.bytes ++ r.bytes, tags := e.got.tags ++ r.tags, bad := e.got.bad ++ r.bad,
                    host := e.got.host || r.host } }

/-- Pieces read one after another into what a request holds; a page answered ABORT is poisoned (R232). -/
def readPieces (s : State) (e : EngReq) : List (Nat × Nat) → Except State (EngReq × State)
  | [] => .ok (e, s)
  | (va, n) :: t =>
    if e.aborts.contains (2 * (va / 4096)) then
      readPieces s (addRead e { bytes := List.replicate n 0, bad := [(va, n)] }) t
    else match s.engRead e va n with
    | .error (f, s1) => .error (s1.engStop e va false f)
    | .ok (r, e1, s1) => readPieces s1 (addRead e1 r) t

/-- The bytes of a range read, what was read before a stop kept (R232). -/
def readUnit (s : State) (e : EngReq) (va n : Nat) : Except State (EngReq × State) :=
  s.readPieces e ((linePieces va n).drop e.gotN)

/-- What a request held of its unit is used. -/
def clearRead (e : EngReq) : EngReq := { e with got := {}, gotN := 0 }

/-! ## ECOPY (R232) -/

/-- Whether the tag of a source granule goes with the copy: the conditions on both capabilities, the
addresses and GLOBAL. -/
def copyKeeps (e : EngReq) (c : Cap) : Bool :=
  e.src.has permLoadCap && e.dst.has permStoreCap && e.src.va % 16 = e.dst.va % 16 &&
  (c.has permGlobal || e.dst.has permStoreLocal)

/-- The units of a copy in its direction: offset and length, cut at the lines of the destination. -/
def copyUnits (e : EngReq) : List (Nat × Nat) :=
  let t := e.target
  let us := (linePieces t.2.1 t.2.2).map fun q => (q.1 - t.2.1, q.2)
  if e.src.va < e.dst.va && !e.toBank then us.reverse else us

/-- A unit written to a bank: never tagged; what bytes of a poisoned line reach is poisoned (R155, R232, R255). -/
def bankUnit (s : State) (e : EngReq) (o : Nat) (r : EngRead) : State :=
  let p := ptidOf e.thread
  let i := bits e.word 41 3
  let a := bits e.word 44 16 + o
  let n := r.bytes.length
  let s1 := s.touchBytes p i a n
  let b := s1.bank p i
  let part := fun (k : Nat) => k * 4 < a || a + n < k * 4 + 4
  let bad := fun (k : Nat) => r.bad.any fun q => overlap (q.1 + bits e.word 44 16) q.2 (k * 4 + e.src.va) 4
  let b1 := { b with cells := setBytes b.cells a r.bytes,
                     tags := b.tags.filter fun g => !(granules a n).contains g }
  s1.setBank p i { b1 with
    poison := (marksOf a n).foldl (fun l k => setMem l k (bad k || (part k && b.poison.contains k))) b1.poison }

/-- A unit whose bytes a request holds is done. -/
def copied (e : EngReq) (n : Nat) : EngReq :=
  { clearRead e with next := e.next + 1, bytes := e.bytes + n, bounce := e.bounce || e.got.host,
                     status := if e.got.bad.isEmpty then e.status else 1 }

/-- One unit of a copy (R232). -/
def copyUnit (s : State) (e : EngReq) (u : Nat × Nat) : Except State (EngReq × State) :=
  match s.readUnit e (e.src.va + u.1) u.2 with
  | .error s1 => .error s1
  | .ok (e1, s1) =>
    if e.toBank then .ok (copied e1 u.2, s1.bankUnit e u.1 e1.got)
    else
      let gs := (e1.got.tags.filter fun t => copyKeeps e t.2).map fun t => t.1 - e.src.va + e.dst.va
      match s1.engWrite e1 (e.dst.va + u.1) e1.got.bytes gs (!e1.got.bad.isEmpty) with
      | .error (f, s2) => .error (s2.engStop e1 (e.dst.va + u.1) true f)
      | .ok (host, e2, s2) => .ok ({ copied e2 u.2 with bounce := (copied e2 u.2).bounce || host }, s2)

/-- The units of a copy still to be done, in order. -/
def copyRun (s : State) (e : EngReq) : List (Nat × Nat) → State
  | [] => s.engDone e
  | u :: t => match s.copyUnit e u with
    | .error s1 => s1
    | .ok (e1, s1) => copyRun (s1.setEngine e1) e1 t

/-! ## EGATHER (R232) -/

/-- Index i of a gather; none when its beat is poisoned. -/
def gatherIndex (s : State) (e : EngReq) (i : Nat) : Option Nat :=
  let b := s.bank (ptidOf e.thread) (bits e.word 19 3)
  let a := bits e.word 22 16 + 4 * i
  if b.spoilt a 4 then none else some (fromBytes (getBytes b.cells a 4))

/-- Element i of a gather read into what the request holds, poisoned where its index is; `false` for one that CapCheck
fails (R232). -/
def gatherRead (s : State) (e : EngReq) (i : Nat) : Except State (Bool × EngReq × State) :=
  let n := e.gatherSize
  match s.gatherIndex e i with
  | none => .ok (true, addRead e { bytes := List.replicate n 0, bad := [(0, n)] }, s)
  | some j =>
    let a := wd (e.src.lo.toNat + j * n)
    let no := s.touchesSieve e.ctx (bits a 0 57) n
    match capCheckX e.user e.src a n permLoad no with
    | some _ => .ok (false, e, s)
    | none => (s.readUnit e (bits a 0 57) n).map fun r => (true, r)

/-- Bytes that follow one another joined into runs, a run poisoned when a byte of it is. -/
def runsOf (va : Nat) : List GatherByte → List (Nat × List Byte × Bool)
  | [] => []
  | x :: t => match runsOf va t with
    | (o, bs, q) :: rest =>
      if x.at_ + 1 = va + o then (x.at_ - va, x.byte :: bs, x.poi || q) :: rest
      else (x.at_ - va, [x.byte], x.poi) :: (o, bs, q) :: rest
    | [] => [(x.at_ - va, [x.byte], x.poi)]

/-- The granules below `lim` whose bytes a gather holds written, each as one access (R272). -/
def gatherFlush (s : State) (e : EngReq) : List Nat → Except State (EngReq × State)
  | [] => .ok (e, s)
  | g :: t =>
    let mine := e.gathered.filter fun x => x.at_ / 16 = g
    match s.engRuns e (g * 16) (runsOf (g * 16) mine) with
    | .error (f, s1) => .error (s1.engStop e (g * 16) true f)
    | .ok (_, _, e1, s1) =>
      gatherFlush s1 { e1 with bytes := e.bytes + mine.length, gathered := e.gathered.filter fun x => x.at_ / 16 ≠ g } t

/-- The granules of a gather's held bytes that no element from `i` on reaches (R272). -/
def fullGranules (e : EngReq) (i : Nat) : List Nat :=
  let lim := e.dst.va + i * e.gatherSize
  ((e.gathered.map (·.at_ / 16)).eraseDups).filter fun g => i = e.gatherCount || (g + 1) * 16 ≤ lim

/-- One element of a gather read: its bytes are held until their granule is whole (R232, R272). -/
def gatherUnit (s : State) (e : EngReq) (i : Nat) : Except State (EngReq × State) :=
  let a := bits e.word 22 16 + 4 * i
  match (s.touchBytes (ptidOf e.thread) (bits e.word 19 3) a 4).gatherRead e i with
  | .error s1 => .error s1
  | .ok (false, e1, s1) => .ok ({ e1 with next := e.next + 1, status := 2 }, s1)
  | .ok (true, e1, s1) =>
    let poi := !e1.got.bad.isEmpty
    let d := e.dst.va + i * e.gatherSize
    let l := (e1.got.bytes.take e.gatherSize).zipIdx.map fun b => { at_ := d + b.2, byte := b.1, poi : GatherByte }
    .ok ({ clearRead e1 with next := e.next + 1, gathered := e.gathered ++ l,
                             status := if poi && e.status ≠ 2 then 1 else e.status }, s1)

/-- The elements of a gather from the given ones on, before each the granules that are whole. -/
def gatherRun (s : State) (e : EngReq) (is : List Nat) : State :=
  match s.gatherFlush e (fullGranules e (is.headD e.gatherCount)) with
  | .error s1 => s1
  | .ok (e1, s1) => match is with
    | [] => s1.engDone e1
    | i :: t => match s1.gatherUnit e1 i with
      | .error s2 => s2
      | .ok (e2, s2) => gatherRun (s2.setEngine e2) e2 t

/-! ## Order, and the last-beat token -/

/-- An earlier unperformed request of the same thread with an overlapping destination (R233). -/
def engBehind (s : State) (e : EngReq) : Bool :=
  s.engines.any fun o => o.id < e.id && o.thread = e.thread && o.gh = e.gh && !o.performed &&
    o.target.1 = e.target.1 && overlap o.target.2.1 o.target.2.2 e.target.2.1 e.target.2.2

/-- A request that reads or writes its tile's banks waits while its group is frozen, and any copy or gather while its group
stands on no tiles (R348, R350). -/
def engWaits (s : State) (e : EngReq) : Bool :=
  !isCore e.thread && (s.groupAway e.gh || (s.groupHeld e.gh && (e.toBank || e.kind = 1)))

/-- A posted copy or gather goes to work, unless it is paused or behind another. -/
def transferRun (s : State) (k : Nat) : State :=
  match s.engines.find? (·.id == k) with
  | none => s
  | some e0 =>
    let e := { e0 with edge := none }
    if e.paused || e.performed || s.engBehind e || s.engWaits e then s
    else if e.kind = 0 then s.copyRun e ((copyUnits e).drop e.next)
    else if e.kind = 1 then s.gatherRun e ((List.range e.gatherCount).drop e.next)
    else s

/-! ## ECOLL (R232) -/

/-- Two element codes combined by an OP (R232): sums under NE, fmax, integer maxima and minima, or. -/
def collOp (op a b : Nat) : Nat :=
  if op = 0 then f32.roundExact {} .ne 0 ((f32.decode false a).exact.add .ne (f32.decode false b).exact)
  else if op = 1 then f64.roundExact {} .ne 0 ((f64.decode false a).exact.add .ne (f64.decode false b).exact)
  else if op = 2 then (a + b) % 2 ^ 64
  else if op = 3 then (fmtOf 0x11).pick true a b
  else if op = 4 then (fmtOf 0x10).pick true a b
  else if op = 5 then (if sext a 64 < sext b 64 then b else a)
  else if op = 6 then (if sext b 64 < sext a 64 then b else a)
  else a ||| b

/-- Element i of what a participant has read. -/
def collElem (e : EngReq) (i : Nat) : Nat := fromBytes ((e.got.bytes.drop (i * collSize e.op)).take (collSize e.op))

/-- The combined elements, the first participant's starting each (R232). -/
def collResult : List EngReq → List Byte
  | [] => []
  | e :: t => (List.range e.collCount).flatMap fun i =>
      toBytes (collSize e.op) (t.foldl (fun a d => collOp e.op a (collElem d i)) (collElem e i))

/-- A participant's element i lies in a line that it read poisoned. -/
def collPoi (e : EngReq) (i : Nat) : Bool :=
  e.got.bad.any fun q => overlap q.1 q.2 (e.src.va + i * collSize e.op) (collSize e.op)

/-- The pieces of a participant's source and of its destination. -/
def collPieces (e : EngReq) (va : Nat) : List (Nat × Nat) := linePieces va (e.collCount * collSize e.op)

/-- The sources of the participants read, one after another (R232). -/
def collReads (s : State) : List EngReq → Except State State
  | [] => .ok s
  | e :: t => match s.readPieces e ((collPieces e e.src.va).drop e.gotN) with
    | .error s1 => .error s1
    | .ok (e1, s1) => collReads (s1.setEngine e1) t

/-- A result written to one participant's destination: lines that hold a poisoned element are poisoned, a
page answered ABORT is left (R232). -/
def collWrite (s : State) (bs : List Byte) (poi : List Nat) (e : EngReq) : List (Nat × Nat) → Except State (EngReq × State)
  | [] => .ok (e, s)
  | q :: t =>
    let size := collSize e.op
    let o := q.1 - e.dst.va
    if e.aborts.contains (2 * (q.1 / 4096) + 1) then collWrite s bs poi { e with next := e.next + 1, status := 1 } t
    else match s.engWrite e q.1 ((bs.drop o).take q.2) [] (poi.any fun i => overlap (i * size) size o q.2) with
      | .ok (_, e1, s1) => collWrite s1 bs poi { e1 with next := e.next + 1, bytes := e.bytes + q.2 } t
      | .error (f, s1) => .error (s1.engStop e q.1 true f)

/-- The result written to every participant's destination (R232). -/
def collWrites (s : State) (bs : List Byte) (poi : List Nat) : List EngReq → Except State State
  | [] => .ok s
  | e0 :: t =>
    let e := { e0 with status := if poi.isEmpty then e0.status else 1 }
    match s.collWrite bs poi e ((collPieces e e.dst.va).drop e.next) with
    | .error s1 => .error s1
    | .ok (e1, s1) => collWrites (s1.setEngine e1) bs poi t

/-- A participant waits for an earlier request of its thread to its destination that is no participant itself (R233). -/
def partyBehind (s : State) (es : List EngReq) (e : EngReq) : Bool :=
  ({ s with engines := s.engines.filter fun o => !(es.map (·.id)).contains o.id } : State).engBehind e

/-- The participants of the oldest completed phase of a home in the order of R232. -/
def collParties (s : State) (h : HomeId) : List EngReq :=
  match (s.home h).collsDone with
  | ks :: _ => sortBy (fun (a b : EngReq) => a.place < b.place || (a.place == b.place && a.thread ≤ b.thread))
      (s.engines.filter fun e => ks.contains e.id)
  | [] => []

/-- The oldest phase of a home is done; a later one may follow. -/
def collPop (s : State) (h : HomeId) : State :=
  let l := (s.home h).collsDone.tail
  let s1 := s.setHome h { s.home h with collsDone := l }
  if l.isEmpty then s1 else s1.post (.evEcollCombine h)

/-- A combination (R232): every response MISMATCH, or the sources read and the result written, with a pause wherever an
access does not go on. It waits for earlier requests of its threads to the same destination (R233). -/
def combine (s0 : State) (h : HomeId) : State :=
  match s0.collParties h with
  | [] => s0.collPop h
  | e0 :: t0 =>
    if (e0 :: t0).any fun o => o.paused || s0.partyBehind (e0 :: t0) o then s0
    else if t0.any fun o => o.op ≠ e0.op || o.collCount ≠ e0.collCount then
      ((e0 :: t0).foldl (fun a o => a.engDone { o with status := 3 }) s0).collPop h
    else
      let s := (e0 :: t0).foldl (fun a o => a.setEngine { o with edge := none }) s0
      match s.collReads (s.collParties h) with
      | .error s1 => s1
      | .ok s1 =>
        let es := s1.collParties h
        let poi := (List.range e0.collCount).filter fun i => es.any fun e => collPoi e i
        match s1.collWrites (collResult es) poi es with
        | .error s2 => s2
        | .ok s2 => ((s2.collParties h).foldl (fun a o => a.engDone o) s2).collPop h

/-! ## Completion (R233) -/

/-- The response message (R233). -/
def responseWord (e : EngReq) : Word := wd (e.status + e.kid * 2 ^ 8 + e.bytes * 2 ^ 16)

/-- A committed bounce copy raises BBSEQ: one that writes a response of status OK and whose context stayed ACTIVE and its
interface RUN (R406). -/
def countBounce (s : State) (e : EngReq) : State :=
  match (s.context e.ctx).iface with
  | some n => if e.kind = 0 && e.bounce && e.status = 0 && e.rch ≠ 255 && !e.spoilt then
      s.setIface n { s.iface n with bbseq := (s.iface n).bbseq + 1 } else s
  | none => s

/-- A performed request completes (R233): its response, which waits for the earlier ones of its thread and channel and, at
its port tile, for a frozen or evicted group (R348, R350), and BBSEQ. -/
def respondEngine (s : State) (k : Nat) : State :=
  match s.engines.find? (·.id == k) with
  | none => s
  | some e =>
    let same := fun (o : EngReq) => o.thread = e.thread && o.gh = e.gh && o.rch = e.rch
    if !e.performed || (!isCore e.thread && (s.groupHeld e.gh || s.groupAway e.gh)) then s
    else if e.rch ≠ 255 && s.engines.any fun o => same o && o.id < e.id then s
    else
      let s1 := ({ s with engines := s.engines.filter (·.id ≠ k) } : State).engNext e
      let s2 := s1.countBounce e
      let s3 := if e.rch = 255 then s2 else s2.sendFor (s2.chanAt e.thread e.rch) (responseWord e) (some e.thread)
      match s3.engines.find? same with
      | some o => if o.performed then s3.post (.evEngineResponse o.id) else s3
      | none => s3

/-- A group stands and moves again: its engine requests go on, their tokens and responses come (R166, R233, R348,
R350). -/
def engReturn (s : State) (h : Nat) : State :=
  (s.engines.filter fun e => e.gh = h && !isCore e.thread).foldl (fun (a : State) e =>
    if e.performed then ((if e.tokenDue then a.engToken e else a).postOnce (.evEngineResponse e.id))
    else if e.kind ≠ 2 && !e.paused then a.postOnce (.evEngineTransfer e.id) else a) s

end State

/-- ENGINE_TRANSFER (R232): the posted copy or gather k is performed. -/
def execEvEngineTransfer (k : Nat) (s : State) : Result := .next (s.transferRun k)

/-- ECOLL_COMBINE (R232): the participants of a completed barrier phase are combined. -/
def execEvEcollCombine (h : HomeId) (s : State) : Result := .next (s.combine h)

/-- ENGINE_RESPONSE (R233). -/
def execEvEngineResponse (k : Nat) (s : State) : Result := .next (s.respondEngine k)

/-- LAST_BEAT_TOKEN_ARRIVE (R166): the token of KID k with n bytes reaches tile p: kept for its klast, or
dropped and counted. -/
def execEvLastBeatTokenArrive (p k n : Nat) (s : State) : Result :=
  .next (
    let x := s.slot p 59
    if x.st ≠ .empty && x.op == 0xCD && x.param 0x10 0 == k then
      (s.setTile p { s.tile p with tokens := (s.tile p).tokens ++ [(k, n)] }).wake p 59
    else s.countError (s.handleOf p))

end Sys2Proof.Machine
end

