-- ==== Sys2Proof/Machine/GroupCmd.lean ====
section
/-! DEFINITION. The group commands and GSTAT (R351-R354, R425). -/

namespace Sys2Proof.Machine

/-- The numbers of the group states (R339). -/
def GroupState.code : GroupState → Nat
  | .unplaced => 0 | .leased => 1 | .configuring => 2 | .armed => 3 | .firing => 4 | .gated => 5
  | .cutting => 6 | .cut => 7 | .moving => 8 | .frozen => 9 | .evicted => 10 | .retired => 11

/-- A group that exists and is not RETIRED. -/
def State.liveGroup (s : State) (h : Nat) : Option Group :=
  match find s.groups h with
  | some g => if g.st = .retired then none else some g
  | none => none

namespace State

/-- Who issues a command or stops a group on the acting thread's behalf (R339). -/
def holder (s : State) : Holder := if s.onCore then .hyper else .guest

/-- The group commands of a unit that the Pilot has not recorded (R353). -/
def unrecorded (s : State) (sel : Nat → Bool) : Nat :=
  (s.groups.map fun g => (g.2.commands.filter fun c => !c.recorded && sel c.thread).length).sum

/-- The event by which the Pilot takes a command (R339, R353). -/
def commandEvent (h : Nat) (sub : Nat) (who : Holder) : Instr :=
  if sub = 1 then .evPilotLease h
  else if sub = 2 then .evGroupMove h
  else if sub = 3 then .evGroupStopRequest h who
  else if sub = 4 then .evSlackWaterFreeze h who
  else if sub = 5 then .evGroupEvict h
  else .evGroupResume h

/-- The code a group command writes (R353). -/
def commandCode (s : State) (h w : Word) (zeroRun : Bool) : Nat :=
  if bits h 40 24 ≠ 0 || bits w 16 48 ≠ 0 || bits w 11 3 ≠ 0 || (zeroRun && bits w 15 1 ≠ 0) then 1
  else if 2 ≤ s.unrecorded (fun t => t / 4 == s.cur / 4) then 2
  else match s.liveGroup h.toNat with
    | none => 3
    | some g => if s.onCore || g.ctx = s.ctx then 0 else 3

/-- A command handed to the Pilot (R351, R353). -/
def postCommand (s : State) (h sub : Nat) (w : Word) : State :=
  let g := s.group h
  (s.setGroup h { g with commands := g.commands ++
    [{ sub, holder := s.holder, word := w, thread := s.cur }] }).post (commandEvent h sub s.holder)

/-- A group command (R353): PRIVILEGE below G, else its code, and the command posted on code 0. -/
def groupCommand (s : State) (i : Instr) (d : Reg) (h w : Word) (sub : Nat) (zeroRun : Bool) : State :=
  if s.low then s.privilege i
  else
    let code := s.commandCode h w zeroRun
    (if code = 0 then s.postCommand h.toNat sub w else s).retire d (wd code)

/-- The status word of a group (R354). -/
def groupStatus (g : Group) : Word :=
  if g.st = .retired then 11
  else wd (g.cpc.toNat * 2 ^ 48 + g.snapep.toNat * 2 ^ 40 + g.origin * 2 ^ 29 + b2n g.straddle * 2 ^ 28 +
    b2n g.overrun * 2 ^ 27 + g.lcmd * 2 ^ 24 + g.lres * 2 ^ 16 + b2n g.snapskip * 16 + g.st.code)

/-- What GSTAT writes for a handle (R354, R425). -/
def gstatWord (s : State) (h : Word) : Word :=
  let q := bits h 32 8
  let x := s.queue q
  if bits h 40 24 ≠ 0 || !x.bound || (!s.onCore && x.ctx != s.ctx) then 15
  else match find s.groups h.toNat with
    | some g => if s.onCore || g.ctx = s.ctx then groupStatus g else 15
    | none => if (x.lseq - BitVec.ofNat 32 h.toNat).toNat < 2 ^ 31 then 11 else 15

/-- The Pilot has recorded every group command of a thread (R354). -/
def commandsRecorded (s : State) (t : Nat) : Bool := s.unrecorded (· == t) == 0

end State

/-- GPLACE (R353). -/
def execGplace (d a n : Reg) (s : State) : Result :=
  .next (s.groupCommand (.gplace d a n) d (s.g a) (s.g n) 1 false)
/-- GMOVE (R353): RUN must be 0. -/
def execGmove (d a n : Reg) (s : State) : Result :=
  .next (s.groupCommand (.gmove d a n) d (s.g a) (s.g n) 2 true)
/-- GCUT (R353). -/
def execGcut (d a : Reg) (s : State) : Result := .next (s.groupCommand (.gcut d a) d (s.g a) 0 3 true)
/-- GFREEZE (R353). -/
def execGfreeze (d a : Reg) (s : State) : Result :=
  .next (s.groupCommand (.gfreeze d a) d (s.g a) 0 4 true)
/-- GEVICT (R353). -/
def execGevict (d a : Reg) (s : State) : Result := .next (s.groupCommand (.gevict d a) d (s.g a) 0 5 true)
/-- GRESUME (R353). -/
def execGresume (d a : Reg) (s : State) : Result :=
  .next (s.groupCommand (.gresume d a) d (s.g a) 0 6 true)
/-- GSTAT (R354): waits for the Pilot's answer; no yield check (R213). -/
def execGstat (d a : Reg) (s : State) : Result :=
  .next (if s.commandsRecorded s.cur then s.retire d (s.gstatWord (s.g a)) else s.block .gstat false)

end Sys2Proof.Machine
end

