-- ==== Sys2Proof/Machine/Gen.lean ====
section
/-! DEFINITION. Address generators, A slots 0x60 to 0x67: runs, checks, requests, stops and translation
(R140-R152, R343, R372, R373). -/

namespace Sys2Proof.Machine

/-! ## Parameters of a run (R141, R142) -/

/-- The default of an address parameter (R141). -/
def genDefault (sel : Nat) : Nat := match sel with
  | 0x1E => 0x300 | 0x1F => 8 | 0x20 => 0x13 | _ => 0

/-- A parameter in force for the open run. -/
def Run.par (r : Run) (sel : Nat) : Nat := look (genDefault sel) r.held sel
/-- The counts of the present dimensions (R141). -/
def Run.counts (r : Run) : List Nat := presentCounts fun d => r.par (0x10 + d)
/-- LEMIT. -/
def Run.lemit (r : Run) : Nat := r.par 0x1E / 2 ^ 7 % 8
/-- LONE. -/
def Run.lone (r : Run) : Bool := bit (r.par 0x1E) 10
/-- CAPM. -/
def Run.capm (r : Run) : Bool := bit (r.par 0x1E) 11
/-- AOP. -/
def Run.aop (r : Run) : Nat := r.par 0x1E / 2 ^ 12 % 16
/-- STREAMP. -/
def Run.streamp (r : Run) : Nat := r.par 0x1E / 8 % 16
/-- XSLOT. -/
def Run.xslot (r : Run) : Nat := 40 + r.par 0x1E % 8
/-- COMM (R373). -/
def Run.comm (r : Run) : Bool := bit (r.par 0x21) 0

/-- The offset of copy k from the capability's address, without an index (R143, R148). -/
def Run.offset (r : Run) (k : Nat) : Int :=
  sext (r.par 0x16) 56 +
  ((List.range r.idx.length).map fun d => (r.idx.getD d 0 : Int) * sext (r.par (0x18 + d)) 56).sum +
  k * sext (r.par 0x1F) 56

/-- The data ports of an operation, A first (R140). -/
def genPorts (op aop : Nat) : List Nat :=
  match op with
  | 0x61 | 0x62 | 0x66 | 0x67 => [0]
  | 0x63 => [0, 1]
  | 0x64 => if aop = 9 then [0, 1, 2] else [0, 1]
  | _ => []

/-- The operation takes a capability pair (R140). -/
def takesCap (op : Nat) : Bool := op != 0x65 && op != 0x66
/-- It stores and posts (R144). -/
def postsStores (op : Nat) : Bool := op == 0x61 || op == 0x63

/-- A run opened with the parameters now in force, its counters 0 (R142). -/
def Slot.openRun (x : Slot) : Run :=
  let r := { x.run with isOpen := true, held := x.params, firings := 0, stored := 0, loopDue := none, capPoi := false, cap := {} }
  { r with idx := List.replicate r.counts.length 0 }

/-- The open run with the words that came in its stop in force, a counter for each present dimension (R147;
log 101). -/
def Run.updated (r : Run) : Run :=
  let q := { r with stop := none, held := r.stopWords.foldl (fun (t : Table Nat) (w : Nat × Nat) => put t w.1 w.2) r.held }
  { q with idx := (List.range q.counts.length).map fun d => r.idx.getD d 0 }

/-- abnk's first run opens as the element becomes ARMED (R148). -/
def Slot.beginRun (x : Slot) : Slot := if x.op == 0x65 then { x with run := x.openRun } else x

/-- The parameters a firing goes by: the open run's, or those in force as it opens (R142). -/
def Slot.genRun (x : Slot) : Run := if x.run.isOpen then x.run else { x.run with held := x.params }

/-- Replies, and the beats between them, are delivered as they arrive (R373); aamo, achk and abnk ignore COMM. -/
def Slot.lateFor (x : Slot) : Bool := x.genRun.comm && (x.op == 0x60 || x.op == 0x62 || x.op == 0x63)

/-- A generator stands where a cut takes it (R152): no run is open, or one that abnk has not fired in (R148), or
dimensions 0 to dim have wrapped. -/
def atCut (op : Nat) (r : Run) (dim : Option Nat) : Bool :=
  !r.isOpen || (op == 0x65 && r.firings = 0) || (r.loopDue.isNone && (match dim with
    | some d => (r.idx.take (d + 1)).all (· == 0)
    | none => false))

namespace State

/-! ## Cuts (R152, R343) -/

/-- The declared cut dimension of a generator. -/
def cutDim (s : State) (p n : Nat) : Option Nat :=
  let t := s.tile p
  ((s.group (s.handleOf p)).image.cuts.find? fun c => c.1 = t.col && c.2.1 = t.row && c.2.2.1 = n).map (·.2.2.2)

/-- A tile's generator is its group's cut master (R343). -/
def isCutMaster (s : State) (p n : Nat) : Bool :=
  let t := s.tile p
  let rank := fun (c r k : Nat) => (r * 256 + c) * 64 + k
  (s.cutDim p n).isSome && (s.group (s.handleOf p)).image.cuts.all fun c =>
    rank t.col t.row n ≤ rank c.1 c.2.1 c.2.2.1

/-- The cut master has completed an iteration: CPC rises, and a multiple of INTERVAL asks a snapshot
(R343). -/
def cutPoint (s : State) (p n d : Nat) : State :=
  match s.cutDim p n with
  | none => s
  | some c =>
    if d < c || !s.isCutMaster p n then s
    else
      let h := s.handleOf p
      let g := s.group h
      let v := (s.context g.ctx).snapint
      let s1 := s.setGroup h { g with cpc := g.cpc + 1 }
      if v ≠ 0 && (g.cpc + 1).toNat % v.toNat = 0 then s1.post (.evSnapshot h) else s1

/-! ## Delivery in firing order (R144, R373) -/

/-- What comes next of a generator's requests goes to its consumers in firing order; `kept` are the spilled ones that
what has COMM = 1 may pass. A completion beat waits for its own event. -/
def flushList (s : State) (p n : Nat) (kept : List Req) : List Req → State
  | [] => let x := s.slot p n; s.setSlot p n { x with run := { x.run with reqs := kept } }
  | q :: t =>
    let x := s.slot p n
    let stop := s.setSlot p n { x with run := { x.run with reqs := kept ++ q :: t } }
    match q.reply with
    | some bs =>
      if kept.isEmpty || q.comm then
        let s1 := s.emitAll p n x.cx bs
        flushList (if x.op == 0x60 then s1.emitAll p n x.cy bs else s1) p n kept t
      else stop
    | none =>
      if q.spilled && q.comm then flushList s p n (kept ++ [q]) t
      else if q.kind = .complete && kept.isEmpty then stop.postOnce (.evRunCompletionBeat p n)
      else stop

/-- What a generator may deliver is delivered; a HELD one delivers nothing (R348). -/
def flushGen (s : State) (p n : Nat) : State :=
  if (s.slot p n).held then s else (s.flushList p n [] (s.slot p n).run.reqs).wake p n

/-- A beat kept in firing order; with `late`, one that spilled requests do not hold back (R373). -/
def addMark (s : State) (p n : Nat) (late : Bool) (bs : List Beat) : State :=
  let x := s.slot p n
  s.setSlot p n { x with run := { x.run with reqs := x.run.reqs ++ [{ kind := .mark, comm := late, reply := some bs }] } }

/-- A request issued, with the event that performs it. -/
def addReq (s : State) (p n : Nat) (q : Req) : State :=
  let x := s.slot p n
  let q1 := { q with id := s.ids }
  ({ s with ids := s.ids + 1 }.setSlot p n { x with run := { x.run with reqs := x.run.reqs ++ [q1] } }).post
    (reqEvent p n q1)

/-! ## Firings -/

/-- The run closes (R142): a storing one owes its completion beat; abnk opens its next run (R148). -/
def closeGen (s : State) (p n : Nat) : State :=
  let x := s.slot p n
  let r := { x.run with isOpen := false, loopDue := none, idx := [] }
  if postsStores x.op then
    s.setSlot p n { x with run := { r with reqs := r.reqs ++ [{ kind := .complete, data := wd r.stored }] } }
  else s.setSlot p n (Slot.beginRun { x with run := r })

/-- The run opens: the pair at P is taken and held with the parameters in force (R142, R143). -/
def openGen (s : State) (p n : Nat) : State :=
  let x := s.slot p n
  if x.run.isOpen then s
  else
    let r := x.openRun
    if takesCap x.op then
      match firstBeats x.portP 2 with
      | some [lo, hi] =>
        let pair := lo.kind = .caplo && hi.kind = .caphi
        let poi := lo.poi || hi.poi
        let s1 := (s.setSlot p n { x with run := { r with
          cap := { lo := lo.data, hi := hi.data, tag := pair && lo.tag }, capPoi := poi } }).takeFrom p n 3 2
        if poi then s1.countError (s.handleOf p) else s1
      | _ => s
    else s.setSlot p n { x with run := r }

/-- The beats of a generator's data firing: for each data port the units of its copies. -/
def genUnits (x : Slot) (aop : Nat) : List (List (List Beat)) :=
  (genPorts x.op aop).map fun o =>
    if x.op == 0x61 then (firstUnits x.copies (x.port o)).getD []
    else ((firstBeats (x.port o) x.copies).getD []).map fun b => [b]

/-- The data beats of a firing leave their ports. -/
def genTake (s : State) (p n aop : Nat) : State :=
  let x := s.slot p n
  (genPorts x.op aop).foldl (fun a o =>
    a.takeFrom p n o (if x.op == 0x61 then ((firstUnits x.copies (x.port o)).getD []).flatten.length else x.copies)) s

/-- What one copy of a data firing does: its failing cause and address, its request, the beats it sends,
or nothing. -/
structure CopyAct where
  fail : Option CapFault := none
  addr : Word := 0
  req : Option Req := none
  beats : List Beat := []
  stored : Nat := 0
deriving DecidableEq, Repr

/-- The access size of a copy (R143). -/
def genSize (m : Fmt) (op : Nat) (r : Run) (u : List Beat) : Nat :=
  if op == 0x60 then (if r.capm then 16 else 8)
  else if op == 0x61 then 8 * u.length
  else if op == 0x67 then 2 ^ (r.par 0x20 % 16)
  else m.w / 8

/-- The permissions a copy needs (R140, R145). -/
def genPerms (op : Nat) (r : Run) (u : List Beat) : Nat :=
  if op == 0x60 || op == 0x62 then permLoad
  else if op == 0x64 then permLoad ||| permStore ||| permAtomic
  else if op == 0x67 then r.par 0x20 / 16 % 2 ^ 16
  else
    let lo := u.headD {}
    let hi := u.getD 1 {}
    if u.length = 2 && lo.tag && !lo.poi then
      permStore ||| permStoreCap |||
        (if ({ lo := lo.data, hi := hi.data } : Cap).has permGlobal then 0 else permStoreLocal)
    else permStore

/-- The address of copy k, exact (R143, R149). -/
def genAddress (op : Nat) (r : Run) (k : Nat) (idx : Word) : Int :=
  if op == 0x67 then idx.toNat
  else if op == 0x60 || op == 0x61 then r.cap.lo.toNat + r.offset k
  else r.cap.lo.toNat + r.offset k + sext idx.toNat 64 * 2 ^ (r.par 0x17 % 16)

/-- The checks of a copy in the order of R146. -/
def genCheck (s : State) (x : Nat) (p op : Nat) (r : Run) (a : Int) (size perms : Nat) : Option CapFault :=
  let w := wrap a
  let store := op == 0x61 || op == 0x63 || op == 0x64
  match capCheckX true r.cap w size perms (op != 0x67 && s.denied x r.cap w size store) with
  | some f => some f
  | none =>
    if a < 0 || 2 ^ 64 ≤ a then some .bounds
    else if a % size ≠ 0 then some .align
    else if op != 0x67 && !(s.touchesWindow x (bits w 0 57) size) &&
        !((s.slot p r.xslot).st ≠ .empty && (s.slot p r.xslot).op == 0x66) then some .xlatcfg
    else none

/-- A lost beat of a load, framed as the beat it comes of (R91, R111, R145). -/
def lostBeats (op : Nat) (r : Run) (k : Kind) : List Beat :=
  if op == 0x60 && r.capm then [{ kind := .caplo, poi := true }, { kind := .caphi, poi := true }]
  else if postsStores op then [] else [framedPoison k]

/-- Copy k of a data firing; `us` holds its unit from each data port. -/
def genCopy (s : State) (x : Nat) (p op : Nat) (m : Fmt) (r : Run) (k : Nat) (us : List (List Beat)) : CopyAct :=
  let u := us.headD []
  let a0 := u.headD {}
  let framing := if op == 0x60 || op == 0x61 then Kind.data else resultKind a0.kind
  if op == 0x65 then
    let v := r.offset k
    if v < 0 || 65536 ≤ v then { fail := some .bounds, addr := wrap v, beats := [poisonBeat] }
    else { addr := wrap v, beats := [{ data := wrap v }] }
  else if r.capPoi || (op != 0x60 && op != 0x61 && a0.poi) then { beats := lostBeats op r framing }
  else
    let a := genAddress op r k a0.data
    let size := genSize m op r u
    match s.genCheck x p op r a size (genPerms op r u) with
    | some f => { fail := some f, addr := wrap a, beats := lostBeats op r framing }
    | none =>
      let w := wrap a
      let b := (us.getD 1 []).headD {}
      let c := (us.getD 2 []).headD {}
      let q : Req := { va := w, size, cap := r.cap, xslot := r.xslot, port := r.streamp, comm := r.comm && op != 0x64,
                       copy := k, framing }
      match op with
      | 0x60 | 0x62 => { addr := w, req := some { q with kind := .load } }
      | 0x61 =>
        { addr := w, stored := u.length,
          req := some { q with kind := .store, data := a0.data, data2 := (u.getD 1 {}).data, tag := u.length = 2 && a0.tag,
                               poi := u.any (·.poi) } }
      | 0x63 => { addr := w, stored := 1, req := some { q with kind := .store, data := b.data, poi := b.poi } }
      | 0x64 =>
        { addr := w, req := some { q with kind := .amo r.aop, data := b.data, cmp := c.data,
                                          poi := b.poi || (r.aop == 9 && c.poi) } }
      | _ => { addr := w, beats := [{ data := a0.data, kind := framing }] }

/-- A LOOPEND among the data beats of a firing (R142, R111): same kind and dimension in every copy, or an
error; no access and no counter step. A poisoned beat that a copy takes beside it poisons it (R91). -/
def genLoop (s : State) (p n aop : Nat) (units : List (List (List Beat))) : State :=
  let x := s.slot p n
  let heads := (units.headD []).map fun u => u.headD {}
  let h0 := heads.headD {}
  let good := heads.all (fun b => b.isLoop && b.dim = h0.dim)
  let s1 := s.genTake p n aop
  let s2 := if good then s1 else s1.countError (s.handleOf p)
  let outs := if x.op == 0x61 || (x.op == 0x63 && !good) then []
    else (List.range heads.length).map fun k =>
      let b := heads.getD k {}
      if !good then framedPoison h0.kind else if units.any fun us => (us.getD k []).any (·.poi) then b.poison else b
  (outs.foldl (fun a b => a.addMark p n x.lateFor [b]) s2).flushGen p n

/-- The counters after a data firing (R142): the LOOPEND due, the cut point, the close. -/
def genAdvance (s : State) (p n : Nat) : State :=
  let x := s.slot p n
  let cs := x.run.counts
  let st := stepNest cs x.run.idx
  let d := st.2 - 1
  let loop := 0 < st.2 && x.run.lemit ≤ d
  let r := { x.run with firings := x.run.firings + 1, idx := st.1, loopDue := if loop then some d else none }
  let s1 := s.setSlot p n { x with run := r }
  let s2 := if st.2 = 0 then s1 else s1.cutPoint p n d
  if 0 < st.2 && st.2 = cs.length && !loop then s2.closeGen p n else s2

/-- A data firing fails (R147): the generator is STOPPED and its record is raised. -/
def genStop (s : State) (p n : Nat) (acts : List CopyAct) : State :=
  let x := s.slot p n
  let ks := (List.range acts.length).filter fun k => ((acts.getD k {}).fail).isSome
  let a := acts.getD (ks.headD 0) {}
  let lanes := (ks.map fun k => 2 ^ k).sum
  let cause := (a.fail.getD .tag).code
  let h := s.handleOf p
  let s1 := s.setSlot p n { x with run := { x.run with stop := some { cause, lanes, addr := a.addr }, stopWords := [] } }
  s1.raise { cause := 1, detail := cause, src := 1, place := p, slot := n, ctx := some (s.group h).ctx, addr := a.addr,
             aux := wd x.run.firings, lanes := wd lanes, idx := x.run.idx, group := wd h,
             raiser := .gen p n, waits := true }

/-- A data firing whose copies issue; `skip` lets failing ones be passed over (R147). -/
def genIssue (s : State) (p n aop : Nat) (acts : List CopyAct) : State :=
  let s1 := s.genTake p n aop
  let s2 := acts.foldl (fun a c =>
    match c.req with
    | some q => a.addReq p n q
    | none => if c.beats.isEmpty then a else a.addMark p n (s.slot p n).lateFor c.beats) s1
  let x := s2.slot p n
  let s3 := s2.setSlot p n { x with run := { x.run with stored := x.run.stored + (acts.map (·.stored)).sum } }
  (((s3.genAdvance p n).flushGen p n).moved p)

/-- A firing of an open run: the LOOPEND due, or a data firing (R142-R147). -/
def genData (s : State) (p n : Nat) (skip : Bool) : State :=
  let x := s.slot p n
  let r := x.run
  match r.loopDue with
  | some d =>
    let s1 := s.setSlot p n { x with run := { r with loopDue := none } }
    let k := if x.op == 0x61 then 0 else if r.lone then 1 else x.copies
    let last := d + 1 = r.counts.length
    let s2 := (List.range k).foldl (fun a _ => a.addMark p n (x.lateFor && !last) [loopBeat d]) s1
    ((if last then s2.closeGen p n else s2).flushGen p n).moved p
  | none =>
    let units := genUnits x r.aop
    if units.any fun us => us.any fun u => (u.headD {}).isLoop then (s.genLoop p n r.aop units).moved p
    else
      let m := (s.tile p).fmt x.fsel
      let acts := (List.range x.copies).map fun k =>
        s.genCopy (s.group (s.handleOf p)).ctx p x.op m r k (units.map fun us => us.getD k [])
      if !skip && acts.any (fun c => c.fail.isSome) then s.genStop p n acts
      else s.genIssue p n r.aop acts

/-- ABORT of a stop (R147): the failing firing's beats are spent, each copy emits one poisoned beat and the
run closes. -/
def genAbort (s : State) (p n : Nat) : State :=
  let x := s.slot p n
  let r := x.run
  let d := r.counts.length - 1
  let b := if r.counts ≠ [] && r.lemit ≤ d then (loopBeat d).poison else poisonBeat
  let s1 := s.genTake p n r.aop
  let s2 := (List.range x.copies).foldl (fun a _ => a.addMark p n false [b]) s1
  let y := s2.slot p n
  (((s2.setSlot p n { y with run := { y.run with stop := none } }).closeGen p n).flushGen p n).moved p

/-- A stop whose action has come (R147): ABORT takes effect at once, RETRY puts the words that came into
force, SKIP stays for the firing. -/
def settleStop (s : State) (p n : Nat) : State :=
  let x := s.slot p n
  match x.run.stop with
  | none => s
  | some g => match g.action with
    | some 3 => s.genAbort p n
    | some 1 =>
      s.setSlot p n { x with run := x.run.updated }
    | _ => s

/-- A stop waits for its answer (R147). -/
def stopped? (x : Slot) : Bool := match x.run.stop with
  | none => false
  | some g => g.action ≠ some 2

/-- The results that wait at a generator's consumers; ald has two (R140, R144). -/
def delivered (x : Slot) : Nat := if x.op == 0x60 then Nat.max (queued x x.cx) (queued x x.cy) else queued x x.cx

/-- A generator can fire (R101, R142, R144, R152): it is not stopped, stands at no cut it must take, its
requests leave room, and what it takes has come. -/
def genReady (s : State) (p n : Nat) : Bool :=
  let x := s.slot p n
  let r := x.genRun
  let cutting := (s.group (s.handleOf p)).st = .cutting
  if x.op == 0x66 then
    x.live && noWord x && !cutting && r.lookups.length + Nat.max (queued x x.cx) (queued x x.cy) < 64 && !(avail x.portA).isEmpty
  else
    x.live && noWord x && !stopped? x && !(cutting && atCut x.op x.run (s.cutDim p n)) &&
    r.reqs.length + delivered x + x.copies ≤ 64 * x.copies &&
    (r.loopDue.isSome ||
      ((x.run.isOpen || !takesCap x.op || (firstBeats x.portP 2).isSome) &&
       (genPorts x.op r.aop).all fun o =>
         if x.op == 0x61 then (firstUnits x.copies (x.port o)).isSome else (firstBeats (x.port o) x.copies).isSome))

/-- A generator's firing (R142): nothing happens while it must hold. -/
def genFire (s : State) (op : Nat) (a : ElemArgs) : State :=
  if s.el.st = .empty then s
  else
    let p := s.curTile
    let n := s.curSlot
    let s1 := (s.bearing op a).settleStop p n
    if s1.genReady p n then
      let skip := (s1.slot p n).run.stop.isSome
      let s2 := s1.openGen p n
      let y := s2.slot p n
      (s2.setSlot p n { y with run := { y.run with stop := none } }).genData p n skip
    else s1

/-! ## Translation and performance (R144, R150, R260, R372) -/

/-- Who an element's translations are for (R367). -/
def elemAsker (s : State) (p : Nat) : Asker :=
  let g := s.group (s.handleOf p)
  { ctx := g.ctx, cfgid := some g.image.cfgid, stack := stackOfTile p }

/-- Who a request's translation is for: it goes through its stream port's port tile (R144, R378). -/
def reqAsker (s : State) (p : Nat) (q : Req) : Asker :=
  { s.elemAsker p with port := some (s.portTile (s.handleOf p) p q.port) }

/-- The leaf grants a request needs (R367). -/
def Req.need (q : Req) : Need := match q.kind with
  | .load => Need.load
  | .amo _ => Need.both
  | _ => Need.store

/-- The spilled requests of a group's stream port (R372). -/
def spilledOf (s : State) (gh port : Nat) : List Req :=
  (s.group gh).tiles.flatMap fun t => (List.range 8).flatMap fun i =>
    (s.slot t.2.2 (40 + i)).run.reqs.filter fun q => q.spilled && q.port = port

/-- A request changed. -/
def setReq (s : State) (p n id : Nat) (f : Req → Req) : State :=
  let x := s.slot p n
  s.setSlot p n { x with run := { x.run with reqs := x.run.reqs.map fun q => if q.id = id then f q else q } }

/-- A store performed leaves the list; a load's reply goes out as it arrives (COMM = 1) or in order. -/
def finishReq (s : State) (p n : Nat) (q : Req) (bs : List Beat) : State :=
  if q.kind = .store then
    let x := s.slot p n
    (s.setSlot p n { x with run := { x.run with reqs := x.run.reqs.filter (·.id ≠ q.id) } }).flushGen p n
  else if q.comm && !(s.slot p n).held then
    let x := s.slot p n
    let s1 := s.emitAll p n x.cx bs
    let s2 := if x.op == 0x60 then s1.emitAll p n x.cy bs else s1
    (s2.setReq p n q.id fun o => { o with reply := some [] }).flushGen p n
  else (s.setReq p n q.id fun o => { o with reply := some bs }).flushGen p n

/-- What a load that fails delivers (R91, R145). -/
def failedReply (q : Req) : List Beat :=
  if q.size = 16 then [{ kind := .caplo, poi := true }, { kind := .caphi, poi := true }] else [framedPoison q.framing]

/-- The reply of a load (R144, R145). -/
def loadReply (q : Req) (bs : List Byte) (tag poi : Bool) : List Beat :=
  if poi then failedReply q
  else if q.size = 16 then
    let c := capOfBytes bs (tag && q.cap.has permLoadCap)
    [{ data := c.lo, kind := .caplo, tag := c.tag }, { data := c.hi, kind := .caphi }]
  else [{ data := wd (fromBytes bs), kind := q.framing }]

/-- A request performed at its L2 slice; an atomic is an acquire at PACKAGE scope, its CAS that fails too (R144, R145,
R225, R260, R267, R268, R271). -/
def performAt (s : State) (p n gh x port : Nat) (q : Req) (ph : Phys) : State :=
  let detail := if q.kind = .store then 2 else 1
  let s0 := s
  let s := s0.filterReads x (stackOfTile port) (portSource port gh) q.cap
  if s0.filtered x q.cap || !q.cap.tag then
    (s.raise (revokedRecord x port gh detail q.va q.cap false)).finishReq p n q (failedReply q)
  else match q.kind with
    | .store =>
      let bs := if q.size = 16 then toBytes 8 q.data.toNat ++ toBytes 8 q.data2.toNat else toBytes q.size q.data.toNat
      let t := s.filterTag x (q.tag && ph.cs) q.data2 q.data
      (s.portStore port ph bs t q.poi q.va gh).finishReq p n q []
    | .amo op =>
      let s1 := (s.countRequest port ph).dropL1 port ph
      let r := s1.loadLine ph q.size q.va (portSource port gh)
      let w := 8 * q.size
      let old := fromBytes r.1
      let b := q.data.toNat % 2 ^ w
      if q.poi || r.2.2.1 then
        ((r.2.2.2.storeLine ph r.1 false true).raisePorts gh).finishReq p n q [framedPoison q.framing]
      else
        let s2 := if op == 9 then
            (if old = q.cmp.toNat % 2 ^ w then r.2.2.2.storeLine ph (toBytes q.size b) false false else r.2.2.2)
          else r.2.2.2.storeLine ph (toBytes q.size (amoValue w op old b)) false false
        (s2.raisePorts gh).finishReq p n q [{ data := wd old, kind := q.framing }]
    | _ =>
      let r := s.portLoad port ph q.size q.va gh
      let c := capOfBytes r.1 true
      r.2.2.2.finishReq p n q (loadReply q r.1 (r.2.2.2.filterTag x r.2.1 c.hi c.lo) r.2.2.1)

/-- A PAGE1 record of a stream port and page is RAISED or WRITTEN (R384). -/
def pageOpen (s : State) (x gh port page : Nat) : Bool :=
  let is := fun (r : Record) => r.cause = 2 && r.raiser = .port gh port page
  s.raised.any is || (s.context x).fq.slots.any (fun e => is e.2) || s.ring.slots.any (fun e => is e.2)

/-- A request joins the RAISED record of its page (R384). -/
def joinRecord (s : State) (gh port page : Nat) : State :=
  { s with raised := s.raised.map fun (r : Record) =>
      if r.cause = 2 && r.raiser = .port gh port page then { r with aux := r.aux + 1 } else r }

/-- A request is spilled at its port tile; its page's record is raised, or joined (R150, R370, R372). -/
def spillReq (s : State) (p n gh x : Nat) (q : Req) (f : Option WalkFail) : State :=
  let s1 := { s with ids := s.ids + 1 }.setReq p n q.id fun o => { o with spilled := true, spillAt := s.ids }
  let page := bits q.va 0 57 / 4096
  let joined := if s.pageOpen x gh q.port page then s1.joinRecord gh q.port page else s1
  match f with
  | none => joined
  | some f =>
    if !f.stage2 && s.pageOpen x gh q.port page then joined
    else s1.raise (pageRecord { src := 3, place := s.portTile gh p q.port, ctx := some x, group := wd gh,
                                raiser := .port gh q.port page } q.va f)

/-- The request of that id that is still to be performed. -/
def openReq (s : State) (p n id : Nat) : Option Req :=
  (s.slot p n).run.reqs.find? fun q => q.id = id && q.kind ≠ .complete && q.reply.isNone && !q.spilled

/-- A request waits for an earlier one of its generator: one to the same line that is not spilled (R144); an atomic, a
release, for all of its copy (R267, R269). -/
def behindLine (s : State) (p n : Nat) (q : Req) : Bool :=
  (s.slot p n).run.reqs.any fun o =>
    o.id < q.id && o.kind ≠ .complete && o.reply.isNone &&
    ((!o.spilled && bits o.va 0 57 / 64 = bits q.va 0 57 / 64) || (q.kind.isAmo && o.copy = q.copy))

/-- The translation of a request: its copy's current page, or the bound axlat's answer, which becomes that page
(R150). -/
def xlatReq (s : State) (p n : Nat) (q : Req) : Except (WalkFail × State) (Phys × State) :=
  let k := s.reqAsker p q
  let va := bits q.va 0 57
  match s.cached ((find (s.slot p n).run.pages q.copy).toList) k va (Req.need q) with
  | some e => .ok (s.physBy e va, s)
  | none =>
    let ax := s.slot p q.xslot
    match s.translate ax.run.cache 64 k va (Req.need q) with
    | .error f => .error f
    | .ok (ph, cache, s1) =>
      let s2 := s1.setSlot p q.xslot { s1.slot p q.xslot with run := { (s1.slot p q.xslot).run with cache } }
      let y := s2.slot p n
      .ok (ph, match s2.cached cache k va (Req.need q) with
        | some e => s2.setSlot p n { y with run := { y.run with pages := put y.run.pages q.copy e } }
        | none => s2)

/-- A request waits for replayed ones of its stream port to its line, which go in spill order before it (R372). -/
def behindReplay (s : State) (gh : Nat) (q : Req) : Bool :=
  (s.portReqs gh q.port).any fun o =>
    o.2.2.spillAt ≠ 0 && o.2.2.id ≠ q.id && bits o.2.2.va 0 57 / 64 = bits q.va 0 57 / 64 &&
    (q.spillAt = 0 || o.2.2.spillAt < q.spillAt)

/-- A load served from the beacon buffer of its layer, under the revocation filter (R145, R252, R260, R285). -/
def windowReq (s : State) (p n gh x : Nat) (q : Req) : State :=
  let b := s.beaconLoad x (layerOfTile p) (bits q.va 0 57) q.size
  let c := capOfBytes b.bytes true
  if s.filtered x q.cap || !q.cap.tag then
    ((s.filterReads x (stackOfTile p) (portSource (s.portTile gh p q.port) gh) q.cap).raise
      (revokedRecord x (s.portTile gh p q.port) gh 1 q.va q.cap false)).finishReq p n q (failedReply q)
  else (s.filterReads x (stackOfTile p) (portSource (s.portTile gh p q.port) gh) q.cap).finishReq p n q (loadReply q b.bytes (s.filterTag x b.tag c.hi c.lo) b.poi)

/-- An element's request reaches its port tile and, translated, its L2 slice; a beacon window's is served
from the layer's buffer (R144, R150, R285, R372). -/
def perform (s : State) (p n : Nat) (q : Req) : State :=
  let gh := s.handleOf p
  let x := (s.group gh).ctx
  let va := bits q.va 0 57
  if q.aborted then s.finishReq p n q (failedReply q)
  else if q.kind = .load && s.touchesWindow x va q.size then s.windowReq p n gh x q
  else
    let spilled := s.spilledOf gh q.port
    if 64 ≤ spilled.length then s
    else if s.behindLine p n q || s.behindReplay gh q then s.post (reqEvent p n q)
    else if spilled.any fun o => bits o.va 0 57 / 64 = va / 64 then s.spillReq p n gh x q none
    else
      match s.xlatReq p n q with
      | .error (f, s2) => s2.spillReq p n gh x q (some f)
      | .ok (ph, s2) =>
        let port := s2.slicePort gh (s2.portTile gh p q.port) ph
        if (q.kind = .load && s2.l1Serves port ph) || s2.leavesPort gh port (stackOfTile port) ph then s2.performAt p n gh x port q ph
        else s2.holdEvent x (stackOfTile port) (reqEvent p n q)

/-! ## axlat's own port (R150) -/

/-- A lookup answered: the address goes to CX, or to CY when the walk or its checks fail; a refusal by ATS is none of
them. A poisoned address and a LOOPEND go to CX (log 108). -/
def answerLookup (s : State) (p n : Nat) (b : Beat) : State :=
  let x := s.slot p n
  if b.isLoop || b.poi then s.emitNow p n x.cx (if b.poi then framedPoison (resultKind' b.kind) else b)
  else
    match s.translate x.run.cache 64 { s.elemAsker p with noAts := true } (bits b.data 0 57) {} with
    | .error (_, s1) => s1.emitNow p n x.cy { data := b.data, kind := resultKind b.kind }
    | .ok (_, cache, s1) =>
      let y := s1.slot p n
      (s1.setSlot p n { y with run := { y.run with cache } }).emitNow p n x.cx { data := b.data, kind := resultKind b.kind }
where
  /-- The KIND of a poisoned beat passed on (R91). -/
  resultKind' (k : Kind) : Kind := match k with
    | .loopend => .loopend
    | k => resultKind k

/-- A firing of axlat (R150): the head of A goes to the lookups, answered in order. -/
def xlatFire (s : State) (a : ElemArgs) : State :=
  if s.el.st = .empty then s
  else
    let p := s.curTile
    let n := s.curSlot
    let s1 := s.bearing 0x66 a
    if s1.genReady p n then
      match headBeat s1.el.portA with
      | some b =>
        let s2 := s1.takeFrom p n 0 1
        let y := s2.slot p n
        ((s2.setSlot p n { y with run := { y.run with lookups := y.run.lookups ++ [b] } }).postOnce
          (.evXlatWalkComplete p n)).moved p
      | none => s1
    else s1

end State

/-- ald (R140, R142-R147). -/
def execElAld (a : ElemArgs) (s : State) : Result := .next (s.genFire 0x60 a)
/-- ast (R140, R142-R147). -/
def execElAst (a : ElemArgs) (s : State) : Result := .next (s.genFire 0x61 a)
/-- agth (R140, R142-R147). -/
def execElAgth (a : ElemArgs) (s : State) : Result := .next (s.genFire 0x62 a)
/-- asct (R140, R142-R147). -/
def execElAsct (a : ElemArgs) (s : State) : Result := .next (s.genFire 0x63 a)
/-- aamo (R140, R142-R147). -/
def execElAamo (a : ElemArgs) (s : State) : Result := .next (s.genFire 0x64 a)
/-- abnk (R148). -/
def execElAbnk (a : ElemArgs) (s : State) : Result := .next (s.genFire 0x65 a)
/-- axlat (R150). -/
def execElAxlat (a : ElemArgs) (s : State) : Result := .next (s.xlatFire a)
/-- achk (R149). -/
def execElAchk (a : ElemArgs) (s : State) : Result := .next (s.genFire 0x67 a)

/-- MEMORY_REPLY (R144): the load or atomic k of a generator is performed and its reply delivered. -/
def execEvMemoryReply (p n k : Nat) (s : State) : Result :=
  .next (match s.openReq p n k with
    | some q => if q.kind = .store then s else s.perform p n q
    | none => s)

/-- STORE_ACK (R144): the store k of a generator is performed and acknowledged. -/
def execEvStoreAck (p n k : Nat) (s : State) : Result :=
  .next (match s.openReq p n k with
    | some q => if q.kind = .store then s.perform p n q else s
    | none => s)

/-- RUN_COMPLETION_BEAT (R144, R268): every store of the run is performed; the count goes to CX and the L1
generation of the context rises at the group's port tiles. -/
def execEvRunCompletionBeat (p n : Nat) (s : State) : Result :=
  .next (match (s.slot p n).run.reqs with
    | q :: t =>
      if q.kind = .complete && !(s.slot p n).held then
        let x := s.slot p n
        let s1 := (s.setSlot p n { x with run := { x.run with reqs := t } }).emitNow p n x.cx { data := q.data }
        (s1.raisePorts (s.handleOf p)).flushGen p n
      else s
    | [] => s)

/-- XLAT_WALK_COMPLETE (R150): the lookup at the head of an axlat's A port is answered. -/
def execEvXlatWalkComplete (p n : Nat) (s : State) : Result :=
  .next (match (s.slot p n).run.lookups with
    | b :: t =>
      if (s.slot p n).held then s
      else
        let x := s.slot p n
        let s1 := (s.setSlot p n { x with run := { x.run with lookups := t } }).answerLookup p n b
        (if t.isEmpty then s1 else s1.postOnce (.evXlatWalkComplete p n)).wake p n
    | [] => s)

end Sys2Proof.Machine
end

