-- ==== Sys2Proof/Machine/Lut.lean ====
section
/-! DEFINITION. LUT islands, L slots 0x90 to 0x94 (R180-R187). -/

namespace Sys2Proof.Machine

/-! ## The net (R181-R184) -/

/-- LOPT (R181). -/
def Slot.lopt (x : Slot) : Nat := x.param 0x15 0x7F90
/-- FW. -/
def Slot.fw (x : Slot) : Nat := x.lopt / 2 ^ 9 % 64 + 1
/-- CLRDIM. -/
def Slot.clrdim (x : Slot) : Nat := x.lopt / 64 % 8
/-- FFEN. -/
def Slot.ffen (x : Slot) : Nat := x.param 0x11 0 + x.param 0x12 0 * 2 ^ 32
/-- LOS. -/
def Slot.los (x : Slot) : Nat := x.param 0x13 0 + x.param 0x14 0 * 2 ^ 32
/-- The table and selectors of LUT i. -/
def Slot.lut (x : Slot) (i : Nat) : Nat := look 0 x.luts i

/-- A source bit of the net (R182). -/
def netBit (a b y q c : Nat) : Bool :=
  if c < 64 then bit a c else if c < 128 then bit b (c - 64) else if c < 192 then bit y (c - 128) else bit q (c - 192)

/-- The outputs Y of LUTs 0 to 63, in order (R183). -/
def netOutputs (x : Slot) (a b q : Nat) : Nat :=
  (List.range 64).foldl (fun y i =>
    let v := x.lut i
    let f := fun k => b2n (netBit a b y q (v / 2 ^ (8 * k) % 256)) * 2 ^ k
    y + b2n (bit v (32 + (f 0 + f 1 + f 2 + f 3))) * 2 ^ i) 0

/-- OUT and the next Q from the outputs Y (R183). -/
def netStep (x : Slot) (y q : Nat) : Nat × Nat :=
  let m := 2 ^ 64 - 1
  ((q &&& x.los) ||| (y &&& (m - x.los)), (y &&& x.ffen) ||| (q &&& (m - x.ffen)))

/-- lmap's outputs (R184). -/
def mapOutputs (x : Slot) (a b c q : Nat) : Nat :=
  let tt := x.lut 0 / 2 ^ 32
  (List.range 64).foldl (fun y i =>
    y + b2n (bit tt (b2n (bit a i) + 2 * b2n (bit b i) + 4 * b2n (bit c i) + 8 * b2n (bit q i))) * 2 ^ i) 0

/-- Q of a copy. -/
def Slot.ff (x : Slot) (k : Nat) : Nat := (look 0 x.run.q k).toNat

/-- The outputs Y of an island for the words it read. -/
def islandOutputs (x : Slot) (k : Nat) (ws : List Nat) : Nat :=
  let w := fun i => arg 0 ws i
  if x.op == 0x90 then mapOutputs x (w 0) (w 1) (w 2) (x.ff k)
  else netOutputs x (w 0) (if x.op == 0x91 then w 1 else 0) (x.ff k)

/-- Q and mark of copy k set. -/
def Slot.setFf (x : Slot) (k q : Nat) (mark : Bool) : Slot :=
  { x with run := { x.run with q := put x.run.q k (wd q), marks := setMem x.run.marks k mark } }
where
  /-- A member added or removed. -/
  setMem (l : List Nat) (k : Nat) (on : Bool) : List Nat := if on then insertNat k l else l.filter (· ≠ k)

/-- One evaluation on words that carry poison or not: OUT, whether it is poisoned, and the slot after it
(R183, R187). -/
def evaluate (x : Slot) (k : Nat) (poi : Bool) (ws : List Nat) : Nat × Bool × Slot :=
  let r := netStep x (islandOutputs x k ws) (x.ff k)
  let marked := x.run.marks.contains k
  if poi then (0, true, if x.ffen = 0 then x else x.setFf k (x.ff k) true)
  else (r.1, marked, if marked then x else x.setFf k r.2 false)

/-- A LOOPEND handled: Q and the mark are cleared when its dimension is at least CLRDIM (R183, R187). -/
def clearBy (x : Slot) (k d : Nat) : Slot := if x.clrdim ≤ d then x.setFf k 0 false else x

namespace State

/-- What copy k of lmap or lnet sends for the beats `bs`, and the slot after it; `ends` judges the beats of all copies
(R111, R184). -/
def islandCopy (ends : LoopEnds) (y : Slot) (k : Nat) (bs : List Beat) : Beat × Slot :=
  let h := bs.headD {}
  match ends with
  | .same => (loopResult bs, clearBy y k h.dim)
  | .mixed => (framedPoison h.kind, y)
  | .none =>
    let v := evaluate y k (bs.any (·.poi)) (bs.map fun c => c.data.toNat)
    (if v.2.1 then framedPoison (resultKind h.kind) else { data := wd v.1, kind := resultKind h.kind }, v.2.2)

/-- A firing of lmap or lnet by every copy (R111, R184). -/
def islandFire (s : State) (op : Nat) (a : ElemArgs) : State :=
  if s.el.st = .empty then s
  else
    let s1 := s.bearing op a
    if fires s1.el then
      let p := s.curTile
      let n := s.curSlot
      let x := s1.el
      let taken := fun k => x.reads.map fun o => operandBeat x o k
      let ends := LoopEnds.of ((List.range x.copies).flatMap taken)
      let s2 := (x.reads.foldl (fun b o => b.takeFrom p n o x.copies) s1).countErrors p (if ends = .mixed then 1 else 0)
      ((List.range x.copies).foldl (fun b k =>
        let r := islandCopy ends (b.slot p n) k (taken k)
        ((b.setSlot p n r.2).emitAt p n (s.fc + 2) x.cx r.1).emitAt p n (s.fc + 2) x.cy r.1) s2).moved p
    else s1

/-- The acting slot set. -/
def setEl (s : State) (x : Slot) : State := s.setSlot s.curTile s.curSlot x

/-- lpack (R185): run.bits holds bitLen bits of the output word, run.poisoned their poison. -/
def lpackStep (s : State) : Option State :=
  match headBeat s.el.portA with
  | none => none
  | some b =>
    let x := s.el
    let r := x.run
    let s1 := s.taken 0 1
    if b.isLoop then
      let part : List Beat := if r.bitLen = 0 then [] else [if r.poisoned then poisonBeat else { data := wd r.bits }]
      let y := clearBy s1.el 0 b.dim
      some ((s1.setEl { y with run := { y.run with bits := 0, bitLen := 0, poisoned := false } }).toBoth (part ++ [b]))
    else
      let v := evaluate s1.el 0 b.poi [b.data.toNat]
      let len := r.bitLen + x.fw
      let all := r.bits + v.1 % 2 ^ x.fw * 2 ^ r.bitLen
      let y := v.2.2
      if 64 ≤ len then
        some ((s1.setEl { y with run := { y.run with bits := all / 2 ^ 64, bitLen := len - 64,
                                                     poisoned := v.2.1 && len ≠ 64 } }).toBoth
          [if r.poisoned || v.2.1 then poisonBeat else { data := wd all }])
      else some (s1.setEl { y with run := { y.run with bits := all, bitLen := len, poisoned := r.poisoned || v.2.1 } })

/-- Bits held of an input bitstream: the beats of run.beats less run.cnt bits used (R185, R186). -/
def heldBits (r : Run) : Nat := 64 * r.beats.length - r.cnt
/-- The next k bits of the bitstream, and whether a beat they touch is poisoned. -/
def nextBits (r : Run) (k : Nat) : Nat × Bool :=
  let v := r.beats.foldr (fun b a => b.data.toNat + 2 ^ 64 * a) 0
  (v / 2 ^ r.cnt % 2 ^ k, (r.beats.take ((r.cnt + k + 63) / 64)).any (·.poi))
/-- k bits used. -/
def useBits (r : Run) (k : Nat) : Run :=
  { r with beats := r.beats.drop ((r.cnt + k) / 64), cnt := (r.cnt + k) % 64 }

/-- The element as its held bits see it: a word applies from the next beat consumed (R187). -/
def asHeld (x : Slot) : Slot := match x.run.past with
  | some v => { x with params := v.1, luts := v.2 }
  | none => x

/-- An evaluation of held bits done, the present parameters kept. -/
def setHeld (s : State) (y : Slot) (r : Run) : State :=
  s.setEl { y with params := s.el.params, luts := s.el.luts, run := r }

/-- lunpk (R185, R187). -/
def lunpkStep (s : State) : Option State :=
  let x := asHeld s.el
  let r := x.run
  if x.fw ≤ heldBits r then
    let f := nextBits r x.fw
    let v := evaluate x 0 f.2 [f.1]
    let y := v.2.2
    some ((s.setHeld y (useBits y.run x.fw)).toBoth [if v.2.1 then poisonBeat else { data := wd v.1 }])
  else match headBeat x.portA with
    | none => none
    | some b =>
      let s1 := s.taken 0 1
      if b.isLoop then
        let y := clearBy s1.el 0 b.dim
        some ((s1.setEl { y with run := { y.run with beats := [], cnt := 0, past := none } }).toBoth [b])
      else some (s1.setRun { r with beats := r.beats ++ [b], past := none })

/-- ldec (R186, R187): run.isOpen tells that bits are discarded up to the next LOOPEND, as after a poisoned symbol too,
which sends one poison beat (log 109). -/
def ldecStep (s : State) : Option State :=
  let x := asHeld s.el
  let r := x.run
  let head := headBeat x.portA
  let stop := match head with
    | some b => b.isLoop
    | none => false
  let n := heldBits r
  if r.isOpen || n = 0 || (n < 64 && !stop) then
    match head with
    | none => none
    | some b =>
      let s1 := s.taken 0 1
      if b.isLoop then
        let y := clearBy s1.el 0 b.dim
        some ((s1.setEl { y with run := { y.run with beats := [], cnt := 0, isOpen := false, past := none } }).toBoth [b])
      else if r.isOpen then some (s1.setRun { r with past := none })
      else some (s1.setRun { r with beats := r.beats ++ [b], past := none })
  else
    let k := Nat.min 64 n
    let w := nextBits r k
    let v := evaluate x 0 w.2 [w.1]
    let y := v.2.2
    let l := v.1 % 64
    if v.2.1 then
      some ((s.setHeld y { y.run with beats := [], cnt := 0, isOpen := true }).toBoth [poisonBeat])
    else if l = 0 then
      some ((s.setHeld y { y.run with beats := [], cnt := 0, isOpen := true }).elError.toBoth [poisonBeat])
    else if n < l then some (s.setHeld y { y.run with beats := [], cnt := 0 })
    else some ((s.setHeld y (useBits y.run l)).toBoth [{ data := wd (v.1 / 64) }])

end State

/-- lmap (R184). -/
def execElLmap (a : ElemArgs) (s : State) : Result := .next (s.islandFire 0x90 a)
/-- lnet (R184). -/
def execElLnet (a : ElemArgs) (s : State) : Result := .next (s.islandFire 0x91 a)
/-- lpack (R185). -/
def execElLpack (a : ElemArgs) (s : State) : Result := .next (s.turn 0x92 a State.lpackStep)
/-- lunpk (R185). -/
def execElLunpk (a : ElemArgs) (s : State) : Result := .next (s.turn 0x93 a State.lunpkStep)
/-- ldec (R186). -/
def execElLdec (a : ElemArgs) (s : State) : Result := .next (s.turn 0x94 a State.ldecStep)

end Sys2Proof.Machine
end

