-- ==== Sys2Proof/Machine/Slab.lean ====
section
/-! DEFINITION. Slabs and microscaling blocks (R79, R80, R93, R94, R124). -/

namespace Sys2Proof.Machine

/-! ## Slabs (R93, R94) -/

/-- What a beat does to the slab open at a whole-slab port: the beats of the slab left open, whether the slab is being
discarded to its end, a slab completed, malformed slabs seen, and a LOOPEND to be handled. -/
structure SlabStep where
  cur : List Beat := []
  drop : Bool := false
  done : Option (List Beat) := none
  bad : Nat := 0
  loop : Option Beat := none
deriving DecidableEq, Repr

/-- R94: `cap` is the greatest length, `ok` tells a legal length. The beats of a slab that is too long are all discarded,
to its TAIL, and it counts once: `drop` tells that one is being discarded (log 18). A CAPLO or CAPHI outside a slab is
dropped without a count (log 18). -/
def slabStep (drop : Bool) (cur : List Beat) (cap : Nat) (ok : Nat → Bool) (b : Beat) : SlabStep :=
  let old := if cur.isEmpty then 0 else 1
  if drop && (b.kind = .data || b.kind = .tail) then { drop := b.kind = .data }
  else match b.kind with
  | .head => { cur := [b], bad := old }
  | .solo => if ok 1 then { done := some [b], bad := old } else { bad := old + 1 }
  | .loopend => { bad := old, loop := some b }
  | .data =>
    if cur.isEmpty then { bad := 1 }
    else if cap < cur.length + 1 then { bad := 1, drop := true } else { cur := cur ++ [b] }
  | .tail =>
    if cur.isEmpty then { bad := 1 }
    else if cap < cur.length + 1 || !ok (cur.length + 1) then { bad := 1 } else { done := some (cur ++ [b]) }
  | .caplo | .caphi => { bad := old }

/-- The beats of an ordinary slab (R93). -/
def slabOf (poi : Bool) (ds : List Nat) : List Beat :=
  let n := ds.length
  (ds.zip (List.range n)).map fun q =>
    let kind : Kind := if n = 1 then .solo else if q.2 = 0 then .head else if q.2 + 1 = n then .tail else .data
    if poi then framedPoison kind else { data := wd q.1, kind }

/-- The poisoned SOLO of a malformed slab or an invalid token (R61, R94). -/
def poisonSolo : Beat := framedPoison .solo

/-! ## Microscaling (R79, R80) -/

/-- Bits of an element code. -/
def mxWidth (m : Fmt) : Nat := if m.code = 0x19 || m.code = 0x1A then 6 else if m.code = 0x1B then 4 else 8
/-- Beats of a block. -/
def mxBeats (m : Fmt) : Nat := if m.code = 0x19 || m.code = 0x1A then 3 else if m.code = 0x1B then 2 else 4
/-- emax of the format (R80). -/
def mxEmax (m : Fmt) : Int :=
  match m.code with
  | 0x18 => 8 | 0x19 => 2 | 0x1A => 4 | 0x1B => 2 | _ => 0

/-- Beats joined into one string, beat 0 lowest. -/
def joinBeats : List Nat → Nat
  | [] => 0
  | d :: t => d % 2 ^ 64 + 2 ^ 64 * joinBeats t

/-- The 32 element codes of a block. -/
def mxCodes (m : Fmt) (ds : List Nat) : List Nat :=
  let v := joinBeats ds
  (List.range 32).map fun k => v / 2 ^ (mxWidth m * k) % 2 ^ mxWidth m

/-- The beats of a block of 32 codes. -/
def mxPack (m : Fmt) (codes : List Nat) : List Nat :=
  let v := packLanes (mxWidth m) codes
  (List.range (mxBeats m)).map fun i => v / 2 ^ (64 * i) % 2 ^ 64

/-- The value of an element code, without its scale (R79). -/
def mxElem (m : Fmt) (c : Nat) : FVal :=
  if m.code = 0x1C then
    let v := sext c 8
    if v = 0 then .zero false else .fin v (-6)
  else m.fl.decode m.b.daz c

/-- A value times 2^j. -/
def FVal.scale (v : FVal) (j : Int) : FVal :=
  match v with
  | .fin z k => .fin z (k + j)
  | v => v

/-- The value of an element under its block's scale byte (R79). -/
def mxValue (m : Fmt) (scale c : Nat) : FVal :=
  if scale = 255 then .nan true else (mxElem m c).scale ((scale : Int) - 127)

/-- The scale byte of a block of 32 values (R80). -/
def mxScale (m : Fmt) (vs : List FVal) : Nat :=
  if vs.any (fun v => match v with
      | .nan _ | .inf _ => true
      | _ => false) then 255
  else
    let exps : List Int := vs.filterMap fun v => match v with
      | .fin z k => some (k + Nat.log2 z.natAbs)
      | _ => none
    match exps with
    | [] => 0
    | e :: t =>
      let top := t.foldl (fun a b => if a < b then b else a) e
      let x := top - mxEmax m
      if x < -127 then 0 else if 127 < x then 254 else (x + 127).toNat

/-- One element converted under its block's scale: saturating (R80, R90, R124). Under a scale of 0xFF there is no X to
divide by: the codes are those of the values themselves (log 91). -/
def mxConvert (m : Fmt) (mode : RMode) (rnd scale : Nat) (v : FVal) : Nat :=
  let y := if scale = 255 then v else v.scale (127 - (scale : Int))
  if m.code = 0x1C then
    match y with
    | .fin z k => wrapLane 8 (satSigned (roundInt mode rnd z (k + 6)) 8).1
    | .inf n => if n then 0x81 else 0x7F
    | _ => 0
  else match y with
    | .inf n => m.fl.signBit n + m.fl.largestCode
    | y => m.fl.roundExact { m.b with sat := true } mode rnd y.exact

/-- A block of 32 values in MX form: scale byte and codes; the generator steps for each element in mode SR
(R89). -/
def mxQuantise (m : Fmt) (mode : RMode) (gen : BitVec 32) (vs : List FVal) : Nat × List Nat × BitVec 32 :=
  let sc := mxScale m vs
  let r := roundLanes mode (fun i rnd => (mxConvert m mode rnd sc (vs.getD i (.zero false)), false)) (List.range vs.length) gen
  (sc, r.1.map (·.1), r.2)

/-- A list cut into pieces of n. -/
def pieces {α : Type} (n : Nat) : Nat → List α → List (List α)
  | 0, _ => []
  | k + 1, l => l.take n :: pieces n k (l.drop n)

/-- Blocks quantised one after another. -/
def mxQuantiseAll (m : Fmt) (mode : RMode) : List (List FVal) → BitVec 32 → List (Nat × List Nat) × BitVec 32
  | [], gen => ([], gen)
  | b :: t, gen =>
    let q := mxQuantise m mode gen b
    let r := mxQuantiseAll m mode t q.2.2
    ((q.1, q.2.1) :: r.1, r.2)

/-- The beats of an MX slab: HEAD with the scales, then the codes (R93). -/
def mxSlab (m : Fmt) (poi : Bool) (blocks : List (Nat × List Nat)) : List Beat :=
  let ds := packLanes 8 (blocks.map (·.1)) :: blocks.flatMap fun b => mxPack m b.2
  slabOf poi ds

/-- The values of an MX slab's beats, block by block: scales in the first beat (R93). -/
def mxSlabValues (m : Fmt) (ds : List Nat) : List (List FVal) :=
  match ds with
  | [] => []
  | h :: t =>
    let n := t.length / mxBeats m
    ((pieces (mxBeats m) n t).zip (List.range n)).map fun q =>
      (mxCodes m q.1).map (mxValue m (laneOf 8 h q.2))

namespace State

/-- The acting element's first generator set. -/
def setGen (s : State) (g : BitVec 32) : State :=
  s.setSlot s.curTile s.curSlot { s.el with gens := put s.el.gens 0 g }

/-- Beats that leave for both consumers one per fc, the first in n fc, behind what is still to leave (R124). -/
def toBothIn (s : State) (n : Nat) (bs : List Beat) : State :=
  let start := s.el.pipe.foldl (fun m i => Nat.max m (i.due + 1)) (s.fc + n)
  (bs.zip (List.range bs.length)).foldl (fun (a : State) b => (a.emitAt s.curTile s.curSlot (start + b.2) s.el.cx b.1).emitAt
    s.curTile s.curSlot (start + b.2) s.el.cy b.1) s

/-- Beats of a whole-slab element that follow the slabs it is sending (R94, R124). -/
def sendSlab (s : State) (bs : List Beat) : State := if s.el.pipe.isEmpty then s.toBoth bs else s.toBothIn 0 bs

/-- Poisoned SOLOs and errors for malformed slabs (R94). -/
def malformed (s : State) (k : Nat) : State :=
  (List.range k).foldl (fun a _ => (a.sendSlab [poisonSolo]).elError) s

/-- A whole-slab element takes one beat of A (R94, R124): `f` answers the result of a completed slab. -/
def slabTurn (s : State) (cap : Nat) (ok : Nat → Bool) (f : State → List Beat → State) : Option State :=
  match headBeat s.el.portA with
  | none => none
  | some b =>
    let k := slabStep (s.el.run.drains.contains 0) s.el.run.beats cap ok b
    let s1 := ((s.taken 0 1).setRun { s.el.run with
      beats := k.cur, drains := if k.drop then [0] else [] }).malformed k.bad
    let s2 := match k.done with
      | some l => f s1 l
      | none => s1
    some (match k.loop with
      | some b => s2.sendSlab [b]
      | none => s2)

/-- qmx on a complete slab (R124). -/
def qmxSlab (s : State) (l : List Beat) : State :=
  let e := (s.tile s.curTile).env s.el
  let vs := l.flatMap fun b => (lanesOf e.fmt.w b.data.toNat).map e.fmt.val
  let r := mxQuantiseAll e.out s.el.round (pieces 32 (vs.length / 32) vs) (s.el.gen 0)
  (if s.el.round = .sr then s.setGen r.2 else s).toBothIn 4 (mxSlab e.out (l.any (·.poi)) r.1)

/-- Every MX value is a value of .f64, and of no narrower format, so that conversion to it rounds nothing (R90). -/
def mxExact (b : Fmt) : Bool := b.code = 0x10

/-- dqmx on a complete slab (R90, R124). -/
def dqmxSlab (s : State) (l : List Beat) : State :=
  let e := (s.tile s.curTile).env s.el
  let vs := (mxSlabValues e.fmt (l.map fun b => b.data.toNat)).flatten
  let r := roundLanes s.el.round
    (fun i rnd => (e.out.fl.roundExact e.out.b s.el.round rnd (vs.getD i (.nan true)).exact, false))
    (List.range vs.length) (s.el.gen 0)
  let n := 64 / e.out.w
  let ds := (pieces n (vs.length / n) (r.1.map (·.1))).map (packLanes e.out.w)
  (if s.el.round = .sr && !mxExact e.out then s.setGen r.2 else s).toBothIn 4 (slabOf (l.any (·.poi)) ds)

/-- qmx (R124): 32 B values, B from 1 to 8. -/
def qmxStep (s : State) : Option State :=
  let n := 64 / ((s.tile s.curTile).env s.el).fmt.w
  s.slabTurn (256 / n) (fun k => (k * n) % 32 = 0) qmxSlab

/-- dqmx (R124): B blocks behind their scales. -/
def dqmxStep (s : State) : Option State :=
  let n := mxBeats ((s.tile s.curTile).env s.el).fmt
  s.slabTurn (1 + 8 * n) (fun k => 1 < k && (k - 1) % n = 0) dqmxSlab

end State

/-- qmx (R124). -/
def execElQmx (a : ElemArgs) (s : State) : Result := .next (s.turn 0x3C a State.qmxStep)
/-- dqmx (R124). -/
def execElDqmx (a : ElemArgs) (s : State) : Result := .next (s.turn 0x3D a State.dqmxStep)

end Sys2Proof.Machine
end

