-- ==== Sys2Proof/Machine/Matrix.lean ====
section
/-! DEFINITION. The matrix node, slot 56: operand intake, accumulator buffers and every operation
(R59-R61, R96, R188-R204). -/

namespace Sys2Proof.Machine

/-! ## Operand slabs (R94, R191, R194, R201) -/

/-- A slab taken from a port: its beats, or none for a malformed one; the beats consumed; and the beats
counted as errors. -/
structure Taken where
  slab : Option (List Beat) := none
  used : Nat := 0
  bad : Nat := 0
deriving DecidableEq, Repr

/-- The next slab of exactly `len` beats among data beats; none while it has not all come. A longer one is malformed to
its end (log 18), and a beat that reveals a malformed slab by opening or framing otherwise is left. -/
def nextSlab (len : Nat) : List Beat → List Beat → Nat → Nat → Option Taken
  | [], _, _, _ => none
  | b :: t, cur, k, bad =>
    if cur.isEmpty then
      match b.kind with
      | .head => nextSlab len t [b] (k + 1) bad
      | .solo => if len = 1 then some ⟨some [b], k + 1, bad⟩ else some ⟨none, k + 1, bad + 1⟩
      | .data | .tail => nextSlab len t [] (k + 1) (bad + 1)
      | _ => nextSlab len t [] (k + 1) bad
    else match b.kind with
      | .data => nextSlab len t (cur ++ [b]) (k + 1) bad
      | .tail =>
        if cur.length + 1 = len then some ⟨some (cur ++ [b]), k + 1, bad⟩ else some ⟨none, k + 1, bad + 1⟩
      | _ => some ⟨none, k, bad + 1⟩

/-- A port's list without its first k data beats from the given feeder (none: any). -/
def dropBeats (f : Option Nat) : Nat → List Arrived → List Arrived
  | 0, l => l
  | _ + 1, [] => []
  | k + 1, a :: t =>
    if !a.beat.cfg && (f.isNone || f = some a.src) then dropBeats f k t else a :: dropBeats f (k + 1) t

/-- The valid feeders of XFEEDA or XFEEDB, lowest entry first (R190). -/
def feedersOf (v : Nat) : List Nat :=
  ((List.range 4).filter fun i => bit v (7 * i + 6)).map fun i => v / 2 ^ (7 * i) % 64

/-- What an operand stream takes: its slabs in order, the port left, the errors, the regions of the beats
taken are those of the port's difference. -/
structure Intake where
  slabs : List (Option (List Beat)) := []
  rest : List Arrived := []
  bad : Nat := 0
deriving DecidableEq, Repr

/-- The slabs i to i + k - 1 of an operand, dealt by the feeders in turn (R191). -/
def takeSlabs (fs : List Nat) (len : Nat) : Nat → Nat → List Arrived → Option Intake
  | 0, _, l => some { rest := l }
  | k + 1, i, l =>
    let f : Option Nat := fs[i % fs.length]?
    let sub := (l.filter fun a => !a.beat.cfg && (f.isNone || f = some a.src)).map (·.beat)
    match nextSlab len sub [] 0 0 with
    | none => none
    | some t =>
      match takeSlabs fs len k (i + 1) (dropBeats f t.used l) with
      | none => none
      | some r => some { slabs := t.slab :: r.slabs, rest := r.rest, bad := t.bad + r.bad }

/-- What an abandoned operation leaves of an operand stream (R202): it has taken the slabs that came, and what has come
of the next. -/
def leaveSlabs (fs : List Nat) (len : Nat) : Nat → Nat → List Arrived → Intake
  | 0, _, l => { rest := l }
  | k + 1, i, l =>
    let f : Option Nat := fs[i % fs.length]?
    let sub := (l.filter fun a => !a.beat.cfg && (f.isNone || f = some a.src)).map (·.beat)
    match nextSlab len sub [] 0 0 with
    | none => leaveSlabs fs len k (i + 1) (dropBeats f sub.length l)
    | some t =>
      let r := leaveSlabs fs len k (i + 1) (dropBeats f t.used l)
      { r with bad := t.bad + r.bad }

/-! ## Native blocks (R192, R194) -/

/-- Slabs of a native block and their length in beats. -/
def blockShape (m : Fmt) : Nat × Nat :=
  if m.kind = .mx then (2, 1 + 8 * mxBeats m) else if m.kind = .t3 then (1, 16) else (1, 8 * m.w)

/-- The array fc of a native block (R192). -/
def blockTime (m : Fmt) : Nat := match pairClass m with
  | 1 => 32 | 2 => 16 | 3 => 4 | 4 => 2 | _ => 1

/-- The 512 values of a native block, line by line of 32 (or k by k under BT), from its beats. -/
def blockValues (m : Fmt) (slabs : List (List Nat)) : List FVal :=
  if m.kind = .mx then slabs.flatMap fun l => (mxSlabValues m l).flatten
  else if m.kind = .t3 then
    slabs.flatten.flatMap fun d =>
      (((lanesOf 8 d).take 7).flatMap fun v => (tritsOf v).getD [0, 0, 0, 0, 0]).take 32 |>.map fun t =>
        if t = 0 then FVal.zero false else FVal.fin t 0
  else slabs.flatten.flatMap fun d => (lanesOf m.w d).map m.val

/-- A .t3 block with a reserved byte among those it reads (R81). -/
def badTrits (m : Fmt) (slabs : List (List Nat)) : Bool :=
  m.kind = .t3 && slabs.flatten.any fun d => ((lanesOf 8 d).take 7).any fun v => (tritsOf v).isNone

/-- A block of operand values with its poison. -/
structure Block2 where
  vals : List FVal := []
  poi : Bool := false
deriving DecidableEq, Repr

/-- The data words of an optional slab. -/
def slabData (s : Option (List Beat)) : List Nat := match s with
  | some l => l.map fun b => b.data.toNat
  | none => []
/-- A slab is malformed or holds a poisoned beat. -/
def slabPoi (s : Option (List Beat)) : Bool := match s with
  | some l => l.any (·.poi)
  | none => true

/-- The native blocks of an operand's slabs. -/
def blocksOf (m : Fmt) (slabs : List (Option (List Beat))) : List Block2 :=
  let k := (blockShape m).1
  (pieces k (slabs.length / k) slabs).map fun ss =>
    let ds := ss.map slabData
    { vals := blockValues m ds, poi := ss.any slabPoi || badTrits m ds }

/-! ## Buffers (R193) -/

namespace Matrix

/-- The cells of buffer b. -/
def buf (x : Matrix) (b : Nat) : Table (BitVec 32) := if b = 0 then x.buf0 else x.buf1
/-- The marks of buffer b. -/
def marks (x : Matrix) (b : Nat) : List Nat := if b = 0 then x.marks0 else x.marks1

/-- Cell (i, j) of buffer b in the given grid. -/
def cell (x : Matrix) (b : Nat) (wide : Bool) (i j : Nat) : Nat :=
  if wide then (look 0 (x.buf b) (256 * i + 2 * j)).toNat + 2 ^ 32 * (look 0 (x.buf b) (256 * i + 2 * j + 1)).toNat
  else (look 0 (x.buf b) (256 * i + j)).toNat

/-- The 16 x 16 blocks of 32-bit cells that block (mb, nb) of a grid covers. -/
def cover (wide : Bool) (mb nb : Nat) : List Nat :=
  if wide then [16 * mb + 2 * nb, 16 * mb + 2 * nb + 1] else [16 * mb + nb]

/-- Block (mb, nb) of buffer b is marked. -/
def marked (x : Matrix) (b : Nat) (wide : Bool) (mb nb : Nat) : Bool :=
  (cover wide mb nb).any fun k => (x.marks b).contains k

/-- A cell set: 0 is not listed. -/
def setCell (t : Table (BitVec 32)) (k : Nat) (v : BitVec 32) : Table (BitVec 32) :=
  if v = 0 then del t k else put t k v

/-- A working copy committed (R195). -/
def commit (x : Matrix) (w : MatWork) : Matrix :=
  let cols := 16 * w.n
  let t := (w.cells.zip (List.range w.cells.length)).foldl (fun t q =>
    let i := q.2 / cols
    let j := q.2 % cols
    if w.wide then
      setCell (setCell t (256 * i + 2 * j) (BitVec.ofNat 32 q.1)) (256 * i + 2 * j + 1) (BitVec.ofNat 32 (q.1 / 2 ^ 32))
    else setCell t (256 * i + j) (BitVec.ofNat 32 q.1)) (x.buf w.buf)
  let ms := (w.marks.zip (List.range w.marks.length)).foldl (fun l q =>
    (cover w.wide (q.2 / w.n) (q.2 % w.n)).foldl (fun l k =>
      if q.1 then insertNat k l else l.filter (· ≠ k)) l) (x.marks w.buf)
  if w.buf = 0 then { x with buf0 := t, marks0 := ms, work := none, committed := x.committed + 1 }
  else { x with buf1 := t, marks1 := ms, work := none, committed := x.committed + 1 }

end Matrix

/-! ## Arithmetic of the node (R96, R196) -/

/-- The accumulator format. -/
def accFmt (wide : Bool) : FloatFmt := if wide then f64 else f32

/-- The exact sum of products (R96). -/
def exactSum (mode : RMode) : List (FVal × FVal) → Exact
  | [] => .zero false
  | [p] => p.1.mul p.2
  | p :: q :: t => Exact.add mode (p.1.mul p.2) (exactSum mode (q :: t))

/-- DAZ and FTZ of the accumulators: those of FSEL's entry where it is the accumulator's format (R78; log 94). -/
def accBits (t : Tile) (x : Slot) : FBits :=
  let m := t.fmt x.fsel
  if m.code = 0x10 || m.code = 0x11 then m.b else {}

/-- Numbers rounded one after another, each from its index and its old value: the generator steps once for
each rounding in mode SR. -/
def roundAll (f : FloatFmt) (b : FBits) (mode : RMode) (g : Nat → Nat → Exact) : List (Nat × Nat) → BitVec 32 → List Nat × BitVec 32
  | [], gen => ([], gen)
  | (i, old) :: t, gen =>
    let gen1 := if mode = .sr then stepGen gen else gen
    let v := f.roundExact b mode gen1.toNat (g i old)
    let r := roundAll f b mode g t gen1
    (v :: r.1, r.2)

/-- The same for cells of FP64: one fused multiply-add for each k (R96). -/
def fmaRun (b : FBits) (mode : RMode) : List (FVal × FVal) → Nat → BitVec 32 → Nat × BitVec 32
  | [], acc, gen => (acc, gen)
  | p :: t, acc, gen =>
    let gen1 := if mode = .sr then stepGen gen else gen
    let v := f64.roundExact b mode gen1.toNat (Exact.add mode (f64.decode b.daz acc).exact (p.1.mul p.2))
    fmaRun b mode t v gen1

/-- Cells of FP64 in order. -/
def fmaAll (b : FBits) (mode : RMode) (g : Nat → List (FVal × FVal)) : List (Nat × Nat) → BitVec 32 → List Nat × BitVec 32
  | [], gen => ([], gen)
  | (i, old) :: t, gen =>
    let v := fmaRun b mode (g i) old gen
    let r := fmaAll b mode g t v.2
    (v.1 :: r.1, r.2)

/-- The format DCVT names: 0 is the accumulator's, 5 and 6 the microscaling ones (R59). -/
def dcvtFmt (wide : Bool) (d : Nat) : Fmt :=
  match d with
  | 1 => .ofFloat 0x12 .float bf16 {} | 2 => .ofFloat 0x13 .float f16 {}
  | 3 => .ofFloat 0x14 .e e4m3 { sat := true } | 4 => .ofFloat 0x15 .e e5m2 { sat := true }
  | 5 => fmtOf 0x18 | 6 => fmtOf 0x1B
  | _ => if wide then .ofFloat 0x10 .float f64 {} else .ofFloat 0x11 .float f32 {}

/-- DownConvert of values in order to an ordinary format; `same`, an always exact one, rounds nothing (R90, R196). -/
def downAll (tgt : Fmt) (mode : RMode) (same : Bool) (vs : List FVal) (gen : BitVec 32) : List Nat × BitVec 32 :=
  if same then (vs.map fun v => tgt.fl.roundExact tgt.b .ne 0 v.exact, gen)
  else
    let r := roundLanes mode (fun i rnd => (tgt.fl.roundExact tgt.b mode rnd (vs.getD i (.zero false)).exact, false))
      (List.range vs.length) gen
    (r.1.map (·.1), r.2)

/-- The values of down-converted cells, 32 to a microscaling block (R196). -/
def downValues (tgt : Fmt) (mode : RMode) (same : Bool) (vs : List FVal) (gen : BitVec 32) : List FVal × BitVec 32 :=
  if tgt.kind = .mx then
    let r := mxQuantiseAll tgt mode (pieces 32 (vs.length / 32) vs) gen
    (r.1.flatMap fun b => b.2.map (mxValue tgt b.1), r.2)
  else
    let r := downAll tgt mode same vs gen
    (r.1.map (tgt.fl.decode false), r.2)

/-! ## The token's validity (R59-R61, R188, R193-R200) -/

/-- The bytes of a native block in the stationary store: its codes, and a scale byte to each microscaling
block (R198). -/
def storedBytes (m : Fmt) : Nat :=
  if m.kind = .mx then 16 * (8 * mxBeats m + 1) else if m.kind = .t3 then 128 else 64 * m.w

/-- The A and the B format of a node. -/
def nodeFmts (t : Tile) (x : Slot) : Fmt × Fmt := (t.fmt x.fsel, t.fmt (x.param 0x10 x.fsel))

/-- The format of operand A of a multiplication, chained or not. -/
def mulFmt (t : Tile) (x : Slot) (a : MatArgs) : Fmt :=
  if a.chain then dcvtFmt (pairClass (t.fmt x.fsel) = 1) a.dcvt.toNat else t.fmt x.fsel

/-- The checks of a multiplication beyond R60 (R192, R193, R194, R196, R197). -/
def mulValid (t : Tile) (x : Slot) (op : Nat) (a : MatArgs) : Bool :=
  let fs := nodeFmts t x
  let wide := pairClass fs.1 = 1
  let af := mulFmt t x a
  let bf := if op = 3 then fmtOf ((t.mat.store.getD {}).entry) else fs.2
  a.m.toNat ≤ 16 && a.n.toNat ≤ (if wide then 8 else 16) &&
  (!a.chain || 32 * a.k.toNat ≤ (if wide then 128 else 256)) &&
  pairClass af == pairClass bf && pairClass af ≠ 0 &&
  !(a.bt && (bf.kind = .mx || bf.kind = .t3)) &&
  (if op = 2 then (x.op == 0xB2 && (af.code = 0x12 || af.code = 0x13 || af.code = 0x14 || af.code = 0x15))
   else if op = 3 then
    (x.op == 0xB1 && match t.mat.store with
      | some st => st.n = a.n.toNat && st.k = a.k.toNat
      | none => false)
   else true)

/-- A buffer operation's region lies in the grid (R193). -/
def regionValid (t : Tile) (x : Slot) (a : MatArgs) : Bool :=
  a.m.toNat ≤ 16 && a.n.toNat ≤ (if pairClass (t.fmt x.fsel) = 1 then 8 else 16)

/-- DCVT for a buffer's output (R199). -/
def storeValid (t : Tile) (x : Slot) (a : MatArgs) (mx : Bool) : Bool :=
  let d := a.dcvt.toNat
  regionValid t x a && (d = 0 || pairClass (t.fmt x.fsel) ≠ 1) &&
  (if d = 5 || d = 6 then mx && a.n.toNat % 2 = 0 else true)

/-- BLOAD's blocks have a layout and fit (R194, R198). -/
def bloadValid (t : Tile) (x : Slot) (a : MatArgs) : Bool :=
  let bf := (nodeFmts t x).2
  x.op == 0xB1 && !(a.bt && (bf.kind = .mx || bf.kind = .t3)) && a.n.toNat * a.k.toNat * storedBytes bf ≤ 131072

/-- TRN's formats (R200). -/
def trnValid (t : Tile) (x : Slot) (a : MatArgs) : Bool :=
  let f := t.fmt x.fsel
  (f.kind = .float || f.kind = .e) && a.dcvt.toNat ≠ 5 && a.dcvt.toNat ≠ 6

namespace State

/-- The matrix node of the acting tile. -/
def mat (s : State) : Matrix := (s.tile s.curTile).mat
/-- The node set. -/
def setMat (s : State) (x : Matrix) : State := s.setTile s.curTile { s.tile s.curTile with mat := x }
/-- The X slot of the acting tile. -/
def xs (s : State) : Slot := s.slot s.curTile 56
/-- The node's accumulator is FP64 (R192). -/
def wide (s : State) : Bool := pairClass ((s.tile s.curTile).fmt s.xs.fsel) = 1
/-- The status channel (R189). -/
def status (s : State) : BitVec 9 := if s.xs.cy = noConsumer then s.xs.cx else s.xs.cy
/-- Beats on CX. -/
def xOut (s : State) (bs : List Beat) : State := s.emitAll s.curTile 56 s.xs.cx bs
/-- A beat on the status channel. -/
def xStatus (s : State) (b : Beat) : State := s.emitNow s.curTile 56 s.status b
/-- k errors of the node and its group (R201). -/
def xErrors (s : State) (k : Nat) : State :=
  (List.range k).foldl (fun a _ =>
    let e := a.mat.errs
    (a.setMat { a.mat with errs := if e = 0xFFFFFFFF then e else e + 1 }).countError (s.handleOf s.curTile)) s
/-- The node's generator set in mode SR. -/
def setXGen (s : State) (g : BitVec 32) : State :=
  if s.xs.round = .sr then s.setSlot s.curTile 56 { s.xs with gens := put s.xs.gens 0 g } else s

/-- The head token of P leaves. -/
def popToken (s : State) : State :=
  (s.setMat { s.mat with accepted := false, opened := false, left := none }).takeFrom s.curTile 56 3 1

/-- An invalid or poisoned token (R61): one poisoned SOLO on CX; an invalid one is counted. -/
def rejectToken (s : State) (poisoned : Bool) : State :=
  let s1 := s.popToken.xOut [poisonSolo]
  if poisoned then s1 else s1.xErrors 1

/-- The feeders of a port (R190). -/
def feeders (s : State) (o : Nat) : List Nat :=
  if o = 0 then feedersOf (s.xs.param 0x11 0) else if o = 1 then feedersOf (s.xs.param 0x12 0) else []

/-- A beat in front of the slabs of an operand port as its stream opens: a word applies, a LOOPEND goes, a beat outside a
slab or of a slot that is no feeder is counted (R94, R190, R191, R194). -/
def openBeat (s : State) (o : Nat) (a : Arrived) : State :=
  let p := s.curTile
  let fs := s.feeders o
  let s1 := s.countTaken (s.handleOf p) a.region s.xs.region
  if a.beat.cfg then s1.applyWord p 56 a.beat
  else if !fs.isEmpty && !fs.contains a.src then s1.countErrors p 1
  else if a.beat.kind = .data || a.beat.kind = .tail then (s1.xStatus poisonSolo).xErrors 1 else s1

/-- The beats of a port up to the last configuration word that no slab stands before (R190). -/
def beforeSlabs (fs : List Nat) (l : List Arrived) : List Arrived :=
  let pre := l.takeWhile fun a =>
    a.beat.cfg || (!fs.isEmpty && !fs.contains a.src) || (a.beat.kind ≠ .head && a.beat.kind ≠ .solo)
  (pre.reverse.dropWhile fun a => !a.beat.cfg).reverse

/-- Configuration words in front of the slabs of an operand port apply as an operation opens its stream (R190). -/
def openPort (s : State) (o : Nat) : State :=
  let l := s.xs.port o
  let gone := beforeSlabs (s.feeders o) l
  gone.foldl (fun a b => a.openBeat o b) (s.setSlot s.curTile 56 (s.xs.setPort o (l.drop gone.length)))

/-- Producers that waited for room at a full port of the node go on (R73). -/
def freeRoom (s : State) (l : List Arrived) : State :=
  if nodeRoom ≤ l.length then s.nudge (s.handleOf s.curTile) else s

/-- The beats at an open port, up to its next configuration word, that come from slots its feeder entries do not name
are discarded and counted (R191). -/
def judgePort (s : State) (o : Nat) : State :=
  let p := s.curTile
  let fs := s.feeders o
  let l := s.xs.port o
  let now := l.takeWhile fun a => !a.beat.cfg
  let bad := now.filter fun a => !fs.contains a.src
  if fs.isEmpty || bad.isEmpty then s
  else
    let s1 := s.setSlot p 56 (s.xs.setPort o ((now.filter fun a => fs.contains a.src) ++ l.drop now.length))
    ((bad.foldl (fun a b => a.countTaken (a.handleOf p) b.region a.xs.region) s1).countErrors p bad.length).freeRoom l

/-- The slabs an operation needs at port o are there (R194). -/
def slabsAt (s : State) (o count len : Nat) : Option Intake :=
  takeSlabs (s.feeders o) len count 0 ((s.xs.port o))

/-- An operand stream taken: its port, its counters, its malformed slabs (R94, R102, R201). -/
def takeIntake (s : State) (o : Nat) (i : Intake) : State :=
  let p := s.curTile
  let gone := (s.xs.port o).filter fun a => !a.beat.cfg
  let kept := (i.rest.filter fun a => !a.beat.cfg).length
  let s1 := s.setSlot p 56 (s.xs.setPort o i.rest)
  let s2 := (gone.take (gone.length - kept)).foldl (fun a b => a.countTaken (s.handleOf p) b.region s.xs.region) s1
  (List.range i.bad).foldl (fun a _ => (a.xStatus poisonSolo).xErrors 1) ((s2.moved p).freeRoom (s.xs.port o))

/-! ## Commit (R195) -/

/-- A buffer operation's result goes to the working copy; its commit comes (R195). -/
def putWork (s : State) (w : MatWork) : State :=
  (s.popToken.setMat { s.popToken.mat with work := some w }).post (.evMatrixCommit s.curTile)

/-- An operation that writes no buffer is done. -/
def doneOp (s : State) : State :=
  let s1 := s.popToken
  s1.setMat { s1.mat with committed := s1.mat.committed + 1 }

/-! ## The governor (R204) -/

/-- The budget and ramp limit of a layer in window w; with THROT the budget is at most 16 (R204, R433). -/
def governorLimits (y : Layer) (w : Nat) : Nat × Nat :=
  let l := if y.limitsFrom ≤ w then (y.budNext, y.rampNext) else (y.bud, y.ramp)
  (if y.throt then Nat.min l.1 16 else l.1, l.2)

/-- The node's window brought up to date. -/
def openWindow (s : State) : Matrix :=
  let x := s.mat
  let w := s.fc / 64
  if w = x.window then x
  else { x with window := w, used := 0, usedLast := if w = x.window + 1 then x.used else 0 }

/-- The array's work in one fc: an array fc within Grant, or a stalled one, counted in k.GOVSTALL. The answer is the
state, and whether the operation's array work is over. -/
def arrayWork (s : State) (cost : Nat) : State × Bool :=
  let x := s.openWindow
  let left := x.left.getD cost
  if s.fc < x.busyUntil then (s.setMat { x with left := some left }, false)
  else if left = 0 then (s.setMat { x with left := some 0 }, true)
  else
    let l := governorLimits (s.layer (layerOfTile s.curTile)) (s.fc / 64)
    if x.used < Nat.min l.1 (x.usedLast + l.2) then
      (s.setMat { x with left := some (left - 1), used := x.used + 1, busyUntil := s.fc + 1 }, false)
    else
      let s1 := s.setMat { x with left := some left, busyUntil := s.fc + 1 }
      let t := s1.tile s.curTile
      (s1.setTile s.curTile { t with govStall := t.govStall + 1 }, false)

/-! ## Running an operation -/

/-- The operand slabs an operation takes: port, count and length (R194). -/
abbrev Need3 : Type := List (Nat × Nat × Nat)

/-- The operation's operand ports are open: as its token is accepted the words at their heads apply, and every parameter
then stays as it is for the operation (R190; log 95). -/
def openPorts (s : State) (need : Need3) : State :=
  if s.mat.opened then s
  else
    let s1 := need.foldl (fun a q => a.openPort q.1) s
    s1.setMat { s1.mat with opened := true }

/-- An operation at the head of P (R61, R188, R195): it waits while the node may not act, an invalid token
is rejected and applies no word, else `f` runs it once its operands are there. -/
def matrixOp (s : State) (use : MatUse) (a : MatArgs) (need : Tile → Slot → Need3) (valid : Tile → Slot → Bool)
    (f : State → State) : State :=
  if s.xs.st = .empty || !s.xs.live || !freeOut s.xs || s.mat.work.isSome then s
  else if !a.valid use then s.rejectToken false
  else
    let s1 := s.openPorts (need (s.tile s.curTile) s.xs)
    if valid (s1.tile s.curTile) s1.xs then f s1 else s.rejectToken false

/-- Waits for the operand slabs of up to three ports. -/
def withSlabs (s : State) (need : Need3) (f : State → List Intake → State) : State :=
  let s1 := need.foldl (fun a q => a.judgePort q.1) s
  match need.mapM fun q => s1.slabsAt q.1 q.2.1 q.2.2 with
  | none => s1
  | some is => f s1 is

/-- Every operand stream taken. -/
def takeAll (s : State) (need : List (Nat × Nat × Nat)) (is : List Intake) : State :=
  (need.zip is).foldl (fun a q => a.takeIntake q.1.1 q.2) s

/-- The region's old cells, row by row, with their index. -/
def oldCells (s : State) (b m n : Nat) (keep : Bool) : List (Nat × Nat) :=
  (List.range (16 * m * (16 * n))).map fun q =>
    (q, if keep then s.mat.cell b s.wide (q / (16 * n)) (q % (16 * n)) else 0)

/-- The marks of the region block by block. -/
def oldMarks (s : State) (b m n : Nat) : List Bool :=
  (List.range (m * n)).map fun q => s.mat.marked b s.wide (q / n) (q % n)

end State

/-- The two kept positions of group g of row r in a 2:4 index slab (R197). -/
def keptAt (ds : List Nat) (r g : Nat) : Nat × Nat :=
  let v := ds.getD (r / 2) 0 / 2 ^ (32 * (r % 2) + 4 * g) % 16
  (v % 4, v / 4)

/-- A row's group of four k under its kept positions: given the kept values of the row (R197). -/
def spread (ds : List Nat) (r k : Nat) (kept : Nat → FVal) : FVal :=
  let p := keptAt ds r (k / 4)
  if k % 4 = p.1 then kept (2 * (k / 4)) else if k % 4 = p.2 then kept (2 * (k / 4) + 1) else .zero false

/-- Operand A of a multiplication: the value of row i at step k, and the poison of each row block. -/
structure OperandA where
  val : List (List FVal) := []
  poi : List Bool := []
  bad : Nat := 0
deriving DecidableEq, Repr

/-- A's rows from streamed blocks, in order kb then mb (R194). -/
def rowsOf (m k : Nat) (bs : List Block2) : List (List FVal) :=
  (List.range (16 * m)).map fun i => (List.range k).flatMap fun kb =>
    (((bs.getD (kb * m + i / 16) {}).vals).drop (32 * (i % 16))).take 32

/-- A's rows from sparse blocks of 16 kept values (R197). -/
def sparseRows (m k : Nat) (bs : List Block2) (idx : List (List Nat)) : List (List FVal) :=
  (List.range (16 * m)).map fun i => (List.range k).flatMap fun kb =>
    let row := (((bs.getD (kb * m + i / 16) {}).vals).drop (16 * (i % 16))).take 16
    (List.range 32).map fun c => spread (idx.getD (kb * m + i / 16) []) (i % 16) c fun j => row.getD j (.zero false)

/-- Dense rows with the values that a sparse index does not keep set to zero. -/
def maskRows (m k : Nat) (rows : List (List FVal)) (idx : List (List Nat)) : List (List FVal) :=
  (List.range (16 * m)).map fun i =>
    let row := rows.getD i []
    (List.range (32 * k)).map fun c =>
      let p := keptAt (idx.getD (c / 32 * m + i / 16) []) (i % 16) (c % 32 / 4)
      if c % 4 = p.1 || c % 4 = p.2 then row.getD c (.zero false) else .zero false

/-- The bad groups of a row of a 2:4 index slab: none in a malformed slab or a poisoned beat (R197, R201). -/
def badInRow (d : Option (List Beat)) (r : Nat) : Nat :=
  match d with
  | none => 0
  | some l =>
    if (l.getD (r / 2) {}).poi then 0
    else ((List.range 8).filter fun g => (keptAt (slabData d) r g).2 ≤ (keptAt (slabData d) r g).1).length

/-- The bad groups of index slabs, row block by row block (R197). -/
def badGroups (m : Nat) (idx : List (Option (List Beat))) : List Nat :=
  (List.range m).map fun mb =>
    (((idx.zip (List.range idx.length)).filter fun q => q.2 % m = mb).map fun q =>
      ((List.range 16).map (badInRow q.1)).sum).sum

/-- The columns of B, in order kb then nb; under BT a block is 32 rows of 16 (R194). -/
def colsOf (n k : Nat) (bt : Bool) (bs : List Block2) : List (List FVal) :=
  (List.range (16 * n)).map fun j => (List.range k).flatMap fun kb =>
    let b := bs.getD (kb * n + j / 16) {}
    (List.range 32).map fun c =>
      b.vals.getD (if bt then 16 * c + j % 16 else 32 * (j % 16) + c) (.zero false)

/-- Products accumulated into the cells, block of k by block of k (R96, R196). -/
def accumulate (wide : Bool) (b : FBits) (mode : RMode) (cols : Nat) (as bs : List (List FVal)) : Nat → List Nat → BitVec 32 →
    Nat → List Nat × BitVec 32
  | 0, cells, gen, _ => (cells, gen)
  | k + 1, cells, gen, kb =>
    let pairs := fun q => (((as.getD (q / cols) []).drop (32 * kb)).take 32).zip (((bs.getD (q % cols) []).drop (32 * kb)).take 32)
    let old := (List.range cells.length).zip cells
    let r := if wide then fmaAll b mode pairs old gen
      else roundAll f32 b mode (fun q o => Exact.add mode (f32.decode b.daz o).exact (exactSum mode (pairs q))) old gen
    accumulate wide b mode cols as bs k r.1 r.2 (kb + 1)

/-! ## Operands (R194, R197) -/

/-- The operand slabs of MMA, MMAS and MMAB. -/
def mulNeed (op : Nat) (a : MatArgs) (t : Tile) (x : Slot) : State.Need3 :=
  let af := mulFmt t x a
  let bf := (nodeFmts t x).2
  let m := a.m.toNat
  let k := a.k.toNat
  (if a.chain then []
   else [(0, k * m * (if op = 2 then 1 else (blockShape af).1), if op = 2 then 4 * af.w else (blockShape af).2)]) ++
  (if op = 3 then [] else [(1, k * a.n.toNat * (blockShape bf).1, (blockShape bf).2)]) ++
  (if op = 2 then [(2, k * m, 8)] else [])
/-- The accumulator-format matrix of ALOAD and AADD. -/
def loadNeed (a : MatArgs) (t : Tile) (x : Slot) : State.Need3 :=
  [(0, a.m.toNat * a.n.toNat, 4 * (accFmt (pairClass (t.fmt x.fsel) = 1)).width)]
/-- The vector of ASCALE and ABIAS. -/
def vectorNeed (a : MatArgs) (t : Tile) (x : Slot) : State.Need3 :=
  [(1, 1, 16 * a.n.toNat * (accFmt (pairClass (t.fmt x.fsel) = 1)).width / 64)]
/-- The blocks of BLOAD. -/
def bloadNeed (a : MatArgs) (t : Tile) (x : Slot) : State.Need3 :=
  let sh := blockShape (nodeFmts t x).2
  [(1, a.n.toNat * a.k.toNat * sh.1, sh.2)]
/-- The matrix of TRN. -/
def trnNeed (a : MatArgs) (t : Tile) (x : Slot) : State.Need3 := [(0, a.m.toNat * a.n.toNat, 4 * (t.fmt x.fsel).w)]

/-- The operand slabs of the operation of a token. -/
def needOf (w : Nat) (t : Tile) (x : Slot) : State.Need3 :=
  match decodeMatrix w with
  | .ok (.mxMma a) => mulNeed 1 a t x
  | .ok (.mxMmas a) => mulNeed 2 a t x
  | .ok (.mxMmab a) => mulNeed 3 a t x
  | .ok (.mxBload a) => bloadNeed a t x
  | .ok (.mxAload a) | .ok (.mxAadd a) => loadNeed a t x
  | .ok (.mxAscale a) | .ok (.mxAbias a) => vectorNeed a t x
  | .ok (.mxTrn a) => trnNeed a t x
  | _ => []

namespace State

/-- Operand A when it is chained: the other buffer's cells down-converted (R196). -/
def chainedRows (s : State) (a : MatArgs) (gen : BitVec 32) : List (List FVal) × BitVec 32 :=
  let o := 1 - a.buf.toNat
  let k := 32 * a.k.toNat
  let tgt := dcvtFmt s.wide a.dcvt.toNat
  let vs := (List.range (16 * a.m.toNat * k)).map fun q => (accFmt s.wide).decode false (s.mat.cell o s.wide (q / k) (q % k))
  let r := downValues tgt s.xs.round (a.dcvt = 0) vs gen
  (pieces k (16 * a.m.toNat) r.1, r.2)

/-- The row blocks that a marked block of the other buffer poisons (R196, R201). -/
def chainedPoi (s : State) (a : MatArgs) : List Bool :=
  (List.range a.m.toNat).map fun mb =>
    (List.range (2 * a.k.toNat)).any fun nb => s.mat.marked (1 - a.buf.toNat) s.wide mb nb

/-- MMA, MMAS and MMAB (R194-R197, R201, R204): op 1, 2 and 3. -/
def multiply (s : State) (op : Nat) (a : MatArgs) : State :=
  let t := s.tile s.curTile
  let fs := nodeFmts t s.xs
  let m := a.m.toNat
  let n := a.n.toNat
  let k := a.k.toNat
  let af := mulFmt t s.xs a
  let need := mulNeed op a t s.xs
  s.withSlabs need fun s1 is =>
    let time := if op = 2 then (blockTime af + 1) / 2 else blockTime af
    let w := s1.arrayWork (m * n * k * time)
    if !w.2 then w.1
    else
      let s2 := w.1.takeAll need is
      let at_ := fun (o : Nat) => ((need.zip is).find? fun q => q.1.1 = o).map fun q => q.2.slabs
      let idxSlabs := (at_ 2).getD []
      let idx := idxSlabs.map slabData
      let bads := if op = 2 then badGroups m idxSlabs else []
      let idxPoi := (List.range m).map fun mb =>
        ((idxSlabs.zip (List.range idxSlabs.length)).any fun q => q.2 % m = mb && slabPoi q.1)
      let mode := s1.xs.round
      let chained := s2.chainedRows a (s2.xs.gen 0)
      let blocksA := if op = 2 then
          ((at_ 0).getD []).map fun d => ({ vals := (slabData d).flatMap fun v => (lanesOf af.w v).map af.val, poi := slabPoi d } : Block2)
        else blocksOf af ((at_ 0).getD [])
      let rows := if a.chain then (if op = 2 then maskRows m k chained.1 idx else chained.1)
        else if op = 2 then sparseRows m k blocksA idx else rowsOf m k blocksA
      let gen1 := if a.chain then chained.2 else s2.xs.gen 0
      let poiA := if a.chain then s2.chainedPoi a
        else (List.range m).map fun mb => (blocksA.zip (List.range blocksA.length)).any fun q => q.2 % m = mb && q.1.poi
      let st := t.mat.store.getD {}
      let blocksB := if op = 3 then
          (st.blocks.zip st.poi).map fun q =>
            let d := q.1.map (·.toNat)
            let f := fmtOf st.entry
            ({ vals := blockValues f (if f.kind = .mx then pieces (d.length / 2) 2 d else [d]), poi := q.2 } : Block2)
        else blocksOf fs.2 ((at_ 1).getD [])
      let cols := colsOf n k (if op = 3 then st.bt else a.bt) blocksB
      let poiB := (List.range n).map fun nb => (blocksB.zip (List.range blocksB.length)).any fun q => q.2 % n = nb && q.1.poi
      let r := accumulate s.wide (accBits t s.xs) mode (16 * n) rows cols k ((s2.oldCells a.buf.toNat m n a.acc).map (·.2)) gen1 0
      let old := s2.oldMarks a.buf.toNat m n
      let marks := (List.range (m * n)).map fun q =>
        (a.acc && old.getD q false) || poiA.getD (q / n) false || poiB.getD (q % n) false ||
        idxPoi.getD (q / n) false || bads.getD (q / n) 0 ≠ 0
      ((s2.xErrors bads.sum).setXGen r.2).putWork { buf := a.buf.toNat, wide := s.wide, m, n, cells := r.1, marks }

/-- The stream of an accumulator-format matrix: the cell values in region order and the poison of each
block (R194). -/
def streamCells (m n w : Nat) (slabs : List (Option (List Beat))) : List Nat × List Bool :=
  let bs := slabs.map fun d => (slabData d).flatMap (lanesOf w)
  ((List.range (16 * m * (16 * n))).map fun q =>
      let i := q / (16 * n)
      let j := q % (16 * n)
      (bs.getD (i / 16 * n + j / 16) []).getD (16 * (i % 16) + j % 16) 0,
   slabs.map slabPoi)

/-- ALOAD and AADD (R199). -/
def loadOp (s : State) (a : MatArgs) (add : Bool) : State :=
  let m := a.m.toNat
  let n := a.n.toNat
  let w := (accFmt s.wide).width
  let b := accBits (s.tile s.curTile) s.xs
  let need := loadNeed a (s.tile s.curTile) s.xs
  s.withSlabs need fun s1 is =>
    let s2 := s1.takeAll need is
    let v := streamCells m n w ((is.headD {}).slabs)
    let f := accFmt s.wide
    let mode := s1.xs.round
    if add then
      let r := roundAll f b mode (fun q o => Exact.add mode (f.decode b.daz o).exact (f.decode b.daz (v.1.getD q 0)).exact)
        (s2.oldCells a.buf.toNat m n true) (s2.xs.gen 0)
      let old := s2.oldMarks a.buf.toNat m n
      let marks := (List.range (m * n)).map fun q => old.getD q false || v.2.getD q false
      (s2.setXGen r.2).putWork { buf := a.buf.toNat, wide := s.wide, m, n, cells := r.1, marks }
    else s2.putWork { buf := a.buf.toNat, wide := s.wide, m, n, cells := v.1, marks := v.2 }

/-- ASCALE and ABIAS (R91, R199): a vector of 16N values from B; its poison marks every block. -/
def vectorOp (s : State) (a : MatArgs) (bias : Bool) : State :=
  let m := a.m.toNat
  let n := a.n.toNat
  let f := accFmt s.wide
  let w := f.width
  let b := accBits (s.tile s.curTile) s.xs
  let need := vectorNeed a (s.tile s.curTile) s.xs
  s.withSlabs need fun s1 is =>
    let s2 := s1.takeAll need is
    let slab := ((is.headD {}).slabs).headD none
    let vs := ((slabData slab).flatMap (lanesOf w)).map (f.decode b.daz)
    let mode := s1.xs.round
    let r := roundAll f b mode (fun q o =>
      let c := f.decode b.daz o
      let v := vs.getD (q % (16 * n)) (.zero false)
      if bias then Exact.add mode c.exact v.exact else c.mul v) (s2.oldCells a.buf.toNat m n true) (s2.xs.gen 0)
    let old := s2.oldMarks a.buf.toNat m n
    let marks := (List.range (m * n)).map fun q => old.getD q false || slabPoi slab
    (s2.setXGen r.2).putWork { buf := a.buf.toNat, wide := s.wide, m, n, cells := r.1, marks }

/-- A block of 16 x 16 values emitted as one slab, or 16 x 32 as two microscaling slabs (R199). -/
def emitBlock (s : State) (tgt : Fmt) (mode : RMode) (same poi : Bool) (vs : List FVal) : State :=
  if tgt.kind = .mx then
    let r := mxQuantiseAll tgt mode (pieces 32 (vs.length / 32) vs) (s.xs.gen 0)
    ((s.xOut (mxSlab tgt poi (r.1.take 8))).xOut (mxSlab tgt poi (r.1.drop 8))).setXGen r.2
  else
    let r := downAll tgt mode same vs (s.xs.gen 0)
    let n := 64 / tgt.w
    (s.xOut (slabOf poi ((pieces n (vs.length / n) r.1).map (packLanes tgt.w)))).setXGen r.2

/-- ASTORE and ASTOREZ (R199). -/
def storeOp (s : State) (a : MatArgs) (zero : Bool) : State :=
  let m := a.m.toNat
  let n := a.n.toNat
  let b := a.buf.toNat
  let d := a.dcvt.toNat
  let f := accFmt s.wide
  let tgt := dcvtFmt s.wide d
  let mx := d = 5 || d = 6
  let cols := if mx then n / 2 else n
  let wd_ := if mx then 32 else 16
  let s1 := (List.range (m * cols)).foldl (fun (t : State) q =>
    let mb := q / cols
    let nb := q % cols
    let vs := (List.range (16 * wd_)).map fun c =>
      f.decode false (s.mat.cell b s.wide (16 * mb + c / wd_) (wd_ * nb + c % wd_))
    let poi := if mx then s.mat.marked b s.wide mb (2 * nb) || s.mat.marked b s.wide mb (2 * nb + 1)
      else s.mat.marked b s.wide mb nb
    t.emitBlock tgt s.xs.round (d = 0) poi vs) s
  if zero then
    s1.putWork { buf := b, wide := s.wide, m, n, cells := List.replicate (16 * m * (16 * n)) 0,
                 marks := List.replicate (m * n) false }
  else s1.doneOp

/-- AZERO (R199). -/
def zeroOp (s : State) (a : MatArgs) : State :=
  let m := a.m.toNat
  let n := a.n.toNat
  s.putWork { buf := a.buf.toNat, wide := s.wide, m, n, cells := List.replicate (16 * m * (16 * n)) 0,
              marks := List.replicate (m * n) false }

/-- BLOAD (R198). -/
def bloadOp (s : State) (a : MatArgs) : State :=
  let t := s.tile s.curTile
  let bf := (nodeFmts t s.xs).2
  let sh := blockShape bf
  let need := bloadNeed a t s.xs
  s.withSlabs need fun s1 is =>
    let s2 := (s1.takeAll need is).doneOp
    let ss := pieces sh.1 (a.n.toNat * a.k.toNat) ((is.headD {}).slabs)
    s2.setMat { s2.mat with store := some {
      n := a.n.toNat, k := a.k.toNat, entry := t.profile.getD (s.xs.param 0x10 s.xs.fsel) 0, bt := a.bt,
      blocks := ss.map fun l => l.flatMap fun d => match d with
        | some bs => bs.map (·.data)
        | none => List.replicate sh.2 0,
      poi := ss.map fun l => l.any slabPoi || badTrits bf (l.map slabData) } }

/-- BDROP (R198). -/
def bdropOp (s : State) : State := let s1 := s.doneOp; s1.setMat { s1.mat with store := none }

/-- TRN (R200). -/
def trnOp (s : State) (a : MatArgs) : State :=
  let m := a.m.toNat
  let n := a.n.toNat
  let d := a.dcvt.toNat
  let from_ := (s.tile s.curTile).fmt s.xs.fsel
  let tgt := if d = 0 then { from_ with b := {} } else dcvtFmt false d
  let need := trnNeed a (s.tile s.curTile) s.xs
  let same := d = 0 || exactPair from_ tgt
  s.withSlabs need fun s1 is =>
    let s2 := s1.takeAll need is
    let v := streamCells m n from_.w ((is.headD {}).slabs)
    ((List.range (n * m)).foldl (fun (t : State) q =>
      let nb := q / m
      let mb := q % m
      let vs := (List.range 256).map fun c =>
        from_.fl.decode false (v.1.getD ((16 * mb + c % 16) * (16 * n) + 16 * nb + c / 16) 0)
      t.emitBlock tgt s.xs.round same (v.2.getD (mb * n + nb) false) vs) s2).doneOp

/-- A row's sum in column order, each addition rounded (R200). -/
def rowSum (f : FloatFmt) (b : FBits) (mode : RMode) : List Nat → Nat → BitVec 32 → Nat × BitVec 32
  | [], acc, gen => (acc, gen)
  | c :: t, acc, gen =>
    let g := if mode = .sr then stepGen gen else gen
    rowSum f b mode t (f.roundExact b mode g.toNat (Exact.add mode (f.decode b.daz acc).exact (f.decode b.daz c).exact)) g

/-- Rows summed one after another. -/
def rowSums (f : FloatFmt) (b : FBits) (mode : RMode) : List (List Nat) → BitVec 32 → List Nat × BitVec 32
  | [], gen => ([], gen)
  | l :: t, gen =>
    let v := rowSum f b mode l.tail (l.headD 0) gen
    let r := rowSums f b mode t v.2
    (v.1 :: r.1, r.2)

/-- RMAX and RSUM (R200): one slab of 16M values; a row that meets a marked block poisons its beat. -/
def rowOp (s : State) (a : MatArgs) (sum : Bool) : State :=
  let m := a.m.toNat
  let n := a.n.toNat
  let b := a.buf.toNat
  let f := accFmt s.wide
  let acc : Fmt := { dcvtFmt s.wide 0 with b := accBits (s.tile s.curTile) s.xs }
  let tgt := dcvtFmt s.wide a.dcvt.toNat
  let rows := (List.range (16 * m)).map fun i => (List.range (16 * n)).map fun j => s.mat.cell b s.wide i j
  let r := if sum then rowSums f acc.b s.xs.round rows (s.xs.gen 0)
    else (rows.map fun l => acc.flush ((l.tail.map acc.read).foldl (acc.pick true) (acc.read (l.headD 0))), s.xs.gen 0)
  let v := downAll tgt s.xs.round (a.dcvt = 0) (r.1.map (f.decode false)) r.2
  let w := 64 / tgt.w
  let bad := fun i => (List.range n).any fun nb => s.mat.marked b s.wide (i / 16) nb
  let beats := ((slabOf false ((pieces w (16 * m / w) v.1).map (packLanes tgt.w))).zip (List.range (16 * m / w))).map fun q =>
    if (List.range w).any fun c => bad (q.2 * w + c) then q.1.poison else q.1
  ((s.xOut beats).setXGen v.2).doneOp

/-- Every earlier operation has committed and its last result beat has left CX (R200). -/
def quietOut (s : State) : Bool :=
  s.mat.work.isNone && (s.xs.cx = noConsumer || queued s.xs s.xs.cx = 0)

/-- MARK, XFENCE and CNTRD: a word on the status channel (R200). -/
def statusOp (s : State) (v : Word) (clear : Bool) : State :=
  if !s.quietOut then s
  else
    let s1 := s.xStatus { data := v }
    (if clear then s1.setMat { s1.mat with errs := 0 } else s1).doneOp

/-! ## Tokens -/

/-- The token at the head of P, if it may be taken. -/
def headToken (s : State) : Option Beat := headBeat s.xs.portP

/-- The element's own turn (R188, R202): a token at the head of P is accepted and its operation's turn
comes; one that names no operation the node accepts is rejected (R61). -/
def nodeTurn (s : State) (op : Nat) (a : ElemArgs) : State :=
  if s.el.st = .empty then s
  else
    let s1 := s.bearing op a
    let cutting := (s1.group (s1.handleOf s1.curTile)).st = .cutting
    if !s1.xs.live || (cutting && !s1.mat.accepted) then s1
    else match s1.headToken with
      | none => s1
      | some b =>
        if b.poi || b.kind ≠ .data || (decodeMatrix b.data.toNat).toOption.isNone then
          (if freeOut s1.xs && s1.mat.work.isNone then (s1.rejectToken b.poi).wake s1.curTile 56 else s1)
        else
          let s2 := s1.setMat { s1.mat with accepted := true }
          if s2.agenda.contains (.matrix s2.curTile) then s2 else { s2 with agenda := s2.agenda ++ [.matrix s2.curTile] }

/-- What the operation at the head of P needs of its ports. -/
def headNeed (s : State) : Need3 := match s.headToken with
  | some b => needOf b.data.toNat (s.tile s.curTile) s.xs
  | none => []

/-- The accepted operation is short of an operand (R202). -/
def short (s : State) : Bool := s.headNeed.any fun q => (s.slabsAt q.1 q.2.1 q.2.2).isNone

/-- An accepted operation that a cut finds short of operands is abandoned (R202): the operand beats it has
taken are discarded, its token stays at the head of P. -/
def abandon (s : State) (p : Nat) : State :=
  let c : State := { s with curTile := p, curSlot := 56 }
  if !c.mat.accepted then s
  else
    let s1 := c.headNeed.foldl (fun (a : State) q => a.takeIntake q.1 (leaveSlabs (a.feeders q.1) q.2.2 q.2.1 0 (a.xs.port q.1))) c
    s1.setMat { s1.mat with accepted := false, opened := false, left := none }

end State

/-- xnode (R188). -/
def execElXnode (a : ElemArgs) (s : State) : Result := .next (s.nodeTurn 0xB0 a)
/-- xnodeb (R188). -/
def execElXnodeb (a : ElemArgs) (s : State) : Result := .next (s.nodeTurn 0xB1 a)
/-- xnodes (R188). -/
def execElXnodes (a : ElemArgs) (s : State) : Result := .next (s.nodeTurn 0xB2 a)

/-- MMA (R196). -/
def execMxMma (a : MatArgs) (s : State) : Result :=
  .next (s.matrixOp .mma a (mulNeed 1 a) (fun t x => mulValid t x 1 a) fun t => t.multiply 1 a)
/-- MMAS (R197). -/
def execMxMmas (a : MatArgs) (s : State) : Result :=
  .next (s.matrixOp .mma a (mulNeed 2 a) (fun t x => mulValid t x 2 a) fun t => t.multiply 2 a)
/-- MMAB (R197). -/
def execMxMmab (a : MatArgs) (s : State) : Result :=
  .next (s.matrixOp .mmab a (mulNeed 3 a) (fun t x => mulValid t x 3 a) fun t => t.multiply 3 a)
/-- BLOAD (R198). -/
def execMxBload (a : MatArgs) (s : State) : Result :=
  .next (s.matrixOp .bload a (bloadNeed a) (fun t x => bloadValid t x a) fun t => t.bloadOp a)
/-- BDROP (R198). -/
def execMxBdrop (a : MatArgs) (s : State) : Result :=
  .next (s.matrixOp .none a (fun _ _ => []) (fun _ x => x.op == 0xB1) State.bdropOp)
/-- AZERO (R199). -/
def execMxAzero (a : MatArgs) (s : State) : Result :=
  .next (s.matrixOp .region a (fun _ _ => []) (fun t x => regionValid t x a) fun t => t.zeroOp a)
/-- ALOAD (R199). -/
def execMxAload (a : MatArgs) (s : State) : Result :=
  .next (s.matrixOp .region a (loadNeed a) (fun t x => regionValid t x a) fun t => t.loadOp a false)
/-- ASTORE (R199). -/
def execMxAstore (a : MatArgs) (s : State) : Result :=
  .next (s.matrixOp .store a (fun _ _ => []) (fun t x => storeValid t x a true) fun t => t.storeOp a false)
/-- ASTOREZ (R199). -/
def execMxAstorez (a : MatArgs) (s : State) : Result :=
  .next (s.matrixOp .store a (fun _ _ => []) (fun t x => storeValid t x a true) fun t => t.storeOp a true)
/-- AADD (R199). -/
def execMxAadd (a : MatArgs) (s : State) : Result :=
  .next (s.matrixOp .region a (loadNeed a) (fun t x => regionValid t x a) fun t => t.loadOp a true)
/-- ASCALE (R199). -/
def execMxAscale (a : MatArgs) (s : State) : Result :=
  .next (s.matrixOp .region a (vectorNeed a) (fun t x => regionValid t x a) fun t => t.vectorOp a false)
/-- ABIAS (R199). -/
def execMxAbias (a : MatArgs) (s : State) : Result :=
  .next (s.matrixOp .region a (vectorNeed a) (fun t x => regionValid t x a) fun t => t.vectorOp a true)
/-- TRN (R200). -/
def execMxTrn (a : MatArgs) (s : State) : Result :=
  .next (s.matrixOp .trn a (trnNeed a) (fun t x => trnValid t x a) fun t => t.trnOp a)
/-- RMAX (R200). -/
def execMxRmax (a : MatArgs) (s : State) : Result :=
  .next (s.matrixOp .store a (fun _ _ => []) (fun t x => storeValid t x a false) fun t => t.rowOp a false)
/-- RSUM (R200). -/
def execMxRsum (a : MatArgs) (s : State) : Result :=
  .next (s.matrixOp .store a (fun _ _ => []) (fun t x => storeValid t x a false) fun t => t.rowOp a true)
/-- MARK (R200). -/
def execMxMark (a : MatArgs) (s : State) : Result :=
  .next (s.matrixOp .mark a (fun _ _ => []) (fun _ _ => true) fun t =>
    t.statusOp (wd (a.m.toNat + a.n.toNat * 256 + a.k.toNat * 65536)) false)
/-- XFENCE (R200). -/
def execMxXfence (a : MatArgs) (s : State) : Result :=
  .next (s.matrixOp .none a (fun _ _ => []) (fun _ _ => true) fun t => t.statusOp t.mat.committed false)
/-- CNTRD (R200). -/
def execMxCntrd (a : MatArgs) (s : State) : Result :=
  .next (s.matrixOp .none a (fun _ _ => []) (fun _ _ => true) fun t => t.statusOp (wd t.mat.errs.toNat) true)

/-- MATRIX_COMMIT (R195): the working copy becomes visible all at once. -/
def execEvMatrixCommit (p : Nat) (s : State) : Result :=
  .next (match (s.tile p).mat.work with
    | some w =>
      if (s.slot p 56).held then s
      else ((s.setTile p { s.tile p with mat := (s.tile p).mat.commit w }).moved p).wake p 56
    | none => s)

/-- GOVERNOR_WINDOW (R204, R433): in a window of layer l a written budget and ramp limit are in force; before it the
event comes again. -/
def execEvGovernorWindow (l : Nat) (s : State) : Result :=
  let y := s.layer l
  .next (if y.limitsFrom ≤ s.fc / 64 then s.setLayer l { y with bud := y.budNext, ramp := y.rampNext }
    else s.postOnce (.evGovernorWindow l))

end Sys2Proof.Machine
end

