-- ==== Sys2Proof/Machine/Online.lean ====
section
/-! DEFINITION. Online nodes, O slots 0xA0 to 0xA7 (R82, R167-R179). -/

namespace Sys2Proof.Machine

/-! ## Digits (R82, R169, R171) -/

/-- The digit a 2-bit code stands for (R82). -/
def digitOf (c : Nat) : Int := if c = 1 then 1 else if c = 3 then -1 else 0
/-- The 32 digit codes of a token, first digit first. -/
def codesOf (d : Word) : List Nat := (List.range 32).map fun m => bits d (62 - 2 * m) 2
/-- The digits of the tokens of a stream. -/
def digitsOf (bs : List Beat) : List Int := bs.flatMap fun b => (codesOf b.data).map digitOf
/-- A token that poisons its result: poisoned, or with a reserved code (R82, R179). -/
def badToken (b : Beat) : Bool := b.poi || (codesOf b.data).contains 2
/-- The token of 32 digits. -/
def tokenOf (ds : List Int) : Word :=
  wd (ds.zip (List.range 32) |>.foldl (fun a q =>
    a + (if q.1 = 1 then 1 else if q.1 = -1 then 3 else 0) * 2 ^ (62 - 2 * q.2)) 0)

/-- The prefix of j digits in units of 2^-n. -/
def prefixOf (ds : List Int) (n j : Nat) : Int :=
  ((List.range j).map fun k => ds.getD k 0 * 2 ^ (n - 1 - k)).sum

/-- The first m digits of OnlineDigits, with Z in units of 2^-k; F(j) is f j in the same units (R171). -/
def onlineDigits (f : Nat → Int) (k : Nat) : Nat → List Int × Int
  | 0 => ([], 0)
  | m + 1 =>
    let r := onlineDigits f k m
    let e := 2 ^ (m + 2) * (f (m + 1) - r.2)
    let z : Int := if 2 ^ k ≤ e then 1 else if e < -(2 ^ k) then -1 else 0
    (r.1 ++ [z], r.2 + z * 2 ^ (k - (m + 1)))

/-- The online delay (R167). -/
def delayOf (op : Nat) : Nat := if op = 0xA2 then 2 else if op = 0xA3 || op = 0xA4 then 3 else 0

/-! ## A node's stream -/

/-- Tokens held of operand port o. -/
def Run.toks (r : Run) (o : Nat) : List Beat := match o with
  | 0 => r.beats | 1 => r.beatsB | _ => r.beatsC
/-- Tokens of a port set. -/
def Run.setToks (r : Run) (o : Nat) (l : List Beat) : Run := match o with
  | 0 => { r with beats := l } | 1 => { r with beatsB := l } | _ => { r with beatsC := l }
/-- A slab is complete. -/
def slabEnded (l : List Beat) : Bool := match l.getLast? with
  | some b => b.kind = .tail || b.kind = .solo
  | none => false
/-- The operand ports of an operation (R167). -/
def operandPorts (op : Nat) : List Nat :=
  if op = 0xA4 then [0, 1, 2] else if op = 0xA0 || op = 0xA1 then [0] else [0, 1]
/-- OEXP of the open stream. -/
def Run.oexp (r : Run) : Nat := look 0 r.held 0x10
/-- NTOK of the open stream. -/
def Run.ntok (r : Run) : Nat := look 0 r.held 0x11 % 8 + 1
/-- The rounding mode of the open stream (R179). -/
def Run.mode (r : Run) : RMode := modeOf (look 0 r.held 3)
/-- The code of a rounding mode (R57). -/
def codeOfMode (m : RMode) : Nat := match m with
  | .ne => 0 | .tz => 1 | .pi => 2 | .ni => 3 | .sr => 4

/-- F(j) of an operation as an integer and its unit 2^-K, over the held digits (R170, R171). -/
def onlineTarget (op : Nat) (r : Run) (j : Nat) : Int × Nat :=
  let n := 32 * r.ntok
  let e := r.oexp
  let d := j + delayOf op
  let x := prefixOf (digitsOf r.beats) n (Nat.min d n)
  let y := prefixOf (digitsOf r.beatsB) n (Nat.min d n)
  let w := prefixOf (digitsOf r.beatsC) n (Nat.min d n)
  let eo := outExponent op e
  if op = 0xA2 then
    let low := if oexpOf e 0 < oexpOf e 1 then oexpOf e 0 else oexpOf e 1
    (x * 2 ^ (oexpOf e 0 - low).toNat + y * 2 ^ (oexpOf e 1 - low).toNat, (n + (eo - low)).toNat)
  else if op = 0xA3 then (x * y, 2 * n + 1)
  else
    let p := oexpOf e 0 + oexpOf e 1
    let c := oexpOf e 2
    let low := if p < c then p else c
    (x * y * 2 ^ (p - low).toNat + w * 2 ^ n * 2 ^ (c - low).toNat, (2 * n + (eo - low)).toNat)

/-- The first m digits a node has computed (R171, R173): ofrom's stand in acc. -/
def computedDigits (op : Nat) (r : Run) (m : Nat) : List Int :=
  if op = 0xA0 then
    let n := 32 * r.ntok
    (List.range m).map fun k =>
      if bit r.acc.natAbs (n - 1 - k) then (if r.acc < 0 then -1 else 1) else 0
  else (onlineDigits (fun j => (onlineTarget op r j).1) (onlineTarget op r 0).2 m).1

/-- Digits a node may compute: it holds what they need (R172). -/
def digitLimit (op : Nat) (r : Run) : Nat :=
  let n := 32 * r.ntok
  if op = 0xA0 then n
  else (operandPorts op).foldl (fun m o =>
    if slabEnded (r.toks o) then m else Nat.min m (32 * (r.toks o).length - delayOf op)) n

/-- Output up to digit m depends on a poisoned operand token (R179). -/
def dependsBad (op : Nat) (r : Run) (m : Nat) : Bool :=
  r.poisoned || (op != 0xA0 && (operandPorts op).any fun o =>
    ((r.toks o).zip (List.range 8)).any fun q => badToken q.1 && 32 * q.2 < m + delayOf op)

/-- The kind of output token t: the last one closes the stream (R169, R177). -/
def tokenKind (t : Nat) (last : Bool) : Kind :=
  if last then (if t = 0 then .solo else .tail) else if t = 0 then .head else .data

/-- Digits of an operand that are held: all of them once its slab has ended (R169). -/
def heldDigits (r : Run) (l : List Beat) : Nat := if slabEnded l then 32 * r.ntok else 32 * l.length

/-- R175: the decision over prefixes, if the held digits make it certain: j and the sign. -/
def decide175 (r : Run) : Option (Nat × Int) :=
  let n := 32 * r.ntok
  let ea := oexpOf r.oexp 0
  let eb := oexpOf r.oexp 1
  let low := if ea < eb then ea else eb
  let xs := digitsOf r.beats
  let ys := digitsOf r.beatsB
  let m := Nat.min (Nat.min (heldDigits r r.beats) (heldDigits r r.beatsB)) n
  let diff := fun j => prefixOf xs n j * 2 ^ (ea - low).toNat - prefixOf ys n j * 2 ^ (eb - low).toNat
  let bound := fun j => ((2 : Int) ^ (ea - low).toNat + 2 ^ (eb - low).toNat) * 2 ^ (n - j)
  match (List.range (Nat.min m (n - 1))).find? fun i => bound (i + 1) < (diff (i + 1)).natAbs with
  | some i => some (i + 1, (diff (i + 1)).sign)
  | none => if m = n then some (n, (diff n).sign) else none

/-- The first digit position that a bad token of either operand stands at (R179). -/
def firstBad (r : Run) : Option Nat :=
  let f := fun (l : List Beat) => (l.findIdx? badToken)
  match f r.beats, f r.beatsB with
  | some a, some b => some (32 * Nat.min a b)
  | some a, none => some (32 * a)
  | none, some b => some (32 * b)
  | none, none => none

/-- The comparison depends on a bad token: it is decided behind one, or not before one although both operands' digits up
to there are held (R175, R179). -/
def comparePoisoned (r : Run) : Bool :=
  match decide175 r, firstBad r with
  | some (j, _), some k => k < j
  | none, some k => k ≤ Nat.min (heldDigits r r.beats) (heldDigits r r.beatsB)
  | _, none => false

namespace State

/-! ## The CUT protocol (R177) -/

/-- What the beat at the head of P does now; none when there is none or it waits for a later stream. -/
def examineCut (s : State) (p n : Nat) : Option State :=
  let x := s.slot p n
  let r := x.run
  match if x.op == 0xA1 || x.op == 0xA5 then none else headBeat x.portP with
  | none => none
  | some b =>
    let s1 := s.takeFrom p n 3 1
    if b.kind ≠ .data || (!b.poi && bits b.data 32 32 ≠ 0) then some (s1.countError (s.handleOf p))
    else if b.poi then some s1
    else
      let d := (bits b.data 0 32 + 2 ^ 32 - r.stream % 2 ^ 32) % 2 ^ 32
      if d = 0 then
        (if r.isOpen then some (s1.setSlot p n { s1.slot p n with run := { r with cutNow := true } }) else none)
      else if 2 ^ 31 < d then some s1
      else none

/-! ## Streams -/

/-- Output to the consumers of a node's result: CY takes no stream of ocmp, omax and omin (R167). -/
def streamOut (s : State) (op : Nat) (bs : List Beat) : State :=
  if 0xA5 ≤ op then s.toX bs else s.toBoth bs

/-- A SEED word that came in the stream takes effect (R179). -/
def reseed (x : Slot) : Slot := match find x.run.held 4 with
  | some v => { x with seed := BitVec.ofNat 32 v, gens := [] }
  | none => x

/-- The stream ends: its operand slabs are discarded to their ends (R172, R177). -/
def endStream (s0 : State) (op : Nat) : State :=
  let s := s0.setSlot s0.curTile s0.curSlot (reseed s0.el)
  let r := s.el.run
  let left := if op = 0xA0 then [] else (operandPorts op).filter fun o => !slabEnded (r.toks o)
  s.setRun { r with isOpen := false, stream := (r.stream + 1) % 2 ^ 32, cnt := 0, pos := 0, cutNow := false,
                    poisoned := false, accSet := false, beats := [], beatsB := [], beatsC := [],
                    held := del r.held 4,
                    drains := left.map fun o => if (r.toks o).isEmpty then o + 4 else o }

/-- A slab to be discarded loses its next beat (R172, R177); one that a new slab cuts short counts an error, unless it is
malformed and counted (8 + port). -/
def drainStep (s : State) : Option State :=
  let r := s.el.run
  match r.drains.find? fun d => (headBeat (s.el.port (d % 4))).isSome with
  | none => none
  | some d =>
    let o := d % 4
    let b := (headBeat (s.el.port o)).getD {}
    let rest := r.drains.erase d
    if d / 4 ≠ 1 && (b.kind = .head || b.kind = .solo || b.isLoop) then
      let s1 := s.setRun { r with drains := rest }
      some (if d < 4 then s1.elError else s1)
    else
      let done := b.kind = .tail || b.kind = .solo || b.isLoop
      some ((s.taken o 1).setRun { r with drains := if done then rest else (if d < 8 then o else d) :: rest })

/-- Between streams: LOOPENDs at every operand port go on; beats at every port open a stream (R172, R179). -/
def openStream (s : State) (op : Nat) : Option State :=
  let ps := operandPorts op
  let hs := ps.filterMap fun o => headBeat (s.el.port o)
  if hs.length ≠ ps.length then none
  else if hs.all Beat.isLoop then
    let s1 := ps.foldl (fun a o => a.taken o 1) s
    let h := hs.headD {}
    if hs.all fun b => b.dim = h.dim then some (s1.streamOut op [if hs.any (·.poi) then h.poison else h])
    else some (s1.elError.streamOut op [framedPoison .loopend])
  else if hs.any Beat.isLoop then none
  else
    let r := s.el.run
    some (s.setRun { r with isOpen := true, held := put s.el.params 3 (codeOfMode s.el.round), cnt := 0, pos := 0,
                            cutNow := false, poisoned := false, accSet := false,
                            beats := [], beatsB := [], beatsC := [] })

/-- A malformed operand slab (R94, R169): a poisoned SOLO, an error, the stream's end. -/
def badStream (s : State) (op : Nat) : State := (s.endStream op).elError.streamOut op [poisonSolo]

/-- A beat of an operand slab of the open stream is taken; of a slab that is too long the rest is discarded (R94, R169;
log 18). -/
def collectStep (s : State) (op : Nat) : Option State :=
  let r := s.el.run
  match (operandPorts op).find? fun o => !slabEnded (r.toks o) && (headBeat (s.el.port o)).isSome with
  | none => none
  | some o =>
    let b := (headBeat (s.el.port o)).getD {}
    let t := slabStep false (r.toks o) r.ntok (fun n => n ≤ r.ntok) b
    if t.bad = 0 then
      some ((s.taken o 1).setRun (r.setToks o (match t.done with
        | some l => l
        | none => t.cur)))
    else if (b.kind = .head || b.kind = .solo || b.isLoop) && !(r.toks o).isEmpty then
      let s1 := s.badStream op
      let r1 := s1.el.run
      some (s1.setRun { r1 with drains := r1.drains.erase o })
    else
      let s1 := (s.taken o 1).badStream op
      let r1 := s1.el.run
      let rest := (r1.drains.erase o).erase (o + 4)
      some (s1.setRun { r1 with drains := if t.drop then rest ++ [8 + o] else rest })

/-- Digits computed, and output tokens sent, by ofrom, oadd, omul and omad (R171, R172, R177). -/
def produceStep (s : State) (op : Nat) : Option State :=
  let r := s.el.run
  let full := 32 * (r.cnt + 1) ≤ r.pos
  if full || r.cutNow then
    let m := Nat.min r.pos (32 * (r.cnt + 1))
    let ds := ((computedDigits op r m).drop (32 * r.cnt))
    let last := r.cutNow || r.cnt + 1 = r.ntok
    let kind := tokenKind r.cnt last
    let b : Beat := if dependsBad op r m then framedPoison kind else { data := tokenOf ds, kind }
    let s1 := s.streamOut op [b]
    some (if last then s1.endStream op else s1.setRun { r with cnt := r.cnt + 1 })
  else
    let lim := digitLimit op r
    if r.pos < lim then some (s.setRun { r with pos := Nat.min (r.pos + 8) lim }) else none

/-- ofrom's value is taken and its digits are fixed (R173). -/
def fromStep (s : State) : Option State :=
  match headBeat s.el.portA with
  | none => none
  | some b =>
    let r := s.el.run
    let x := s.el
    let n := 32 * r.ntok
    let m := (s.tile s.curTile).fmt x.fsel
    let v := m.val (laneOf m.w b.data.toNat 0)
    let eo := oexpOf r.oexp 3
    let g := if r.mode = .sr then stepGen (x.gen 0) else x.gen 0
    let sg := fun (neg : Bool) => if neg then -((2 : Int) ^ n - 1) else 2 ^ n - 1
    let q : Int := match v with
      | .fin z k =>
        let i := roundInt r.mode g.toNat z (k - eo + n)
        if 2 ^ n ≤ i.natAbs then sg (z < 0) else i
      | .inf neg => sg neg
      | _ => 0
    let bad := b.poi || v.isNan
    let s1 := s.taken 0 1
    let y := s1.el
    some (s1.setSlot s.curTile s.curSlot { y with
      gens := if r.mode = .sr && !b.poi then put y.gens 0 g else y.gens,
      run := { r with acc := q, accSet := true, poisoned := bad } })

/-- ofrom (R173). -/
def ofromStep (s : State) : Option State :=
  let r := s.el.run
  if !r.isOpen then s.openStream 0xA0
  else if !r.accSet then s.fromStep
  else s.produceStep 0xA0

/-- oadd, omul and omad (R170-R172). -/
def arithStep (op : Nat) (s : State) : Option State :=
  match s.drainStep with
  | some t => some t
  | none =>
    if !s.el.run.isOpen then s.openStream op
    else if s.el.run.cutNow then s.produceStep op
    else match s.collectStep op with
      | some t => some t
      | none => s.produceStep op

/-- oto (R174); the rest of a slab that was too long goes first (R94). -/
def otoStep (s : State) : Option State :=
  let r := s.el.run
  if let some t := s.drainStep then some t
  else if !r.isOpen then s.openStream 0xA1
  else if slabEnded r.beats then
    let x := s.el
    let m := (s.tile s.curTile).fmt x.fsel
    let n := 32 * r.ntok
    let g := if r.mode = .sr then stepGen (x.gen 0) else x.gen 0
    let bad := r.beats.any badToken
    let v := m.fl.roundExact m.b r.mode g.toNat (.dyadic (prefixOf (digitsOf r.beats) n n) (oexpOf r.oexp 0 - n))
    let s1 := s.setSlot s.curTile s.curSlot { x with gens := if r.mode = .sr && !bad then put x.gens 0 g else x.gens }
    some ((s1.endStream 0xA1).toBoth [if bad then poisonBeat else { data := wd v }])
  else s.collectStep 0xA1

/-- ocmp (R175). -/
def ocmpStep (s : State) : Option State :=
  match s.drainStep with
  | some t => some t
  | none =>
    let r := s.el.run
    if !r.isOpen then s.openStream 0xA5
    else
      let dec := decide175 r
      if comparePoisoned r then some ((s.endStream 0xA5).toX [poisonBeat])
      else match dec with
        | some (j, sg) =>
          let s1 := (s.endStream 0xA5).toX [{ data := wd (j * 2 ^ 32 + (sg % 2 ^ 32).toNat) }]
          some (if j < 32 * r.ntok then s1.toY [{ data := wd r.stream }] else s1)
        | none => s.collectStep 0xA5

/-- The chosen stream of omax and omin goes on: token cnt, as it is held (R176, R177, R179). -/
def chosenStep (s : State) (op : Nat) : Option State :=
  let r := s.el.run
  let l := r.toks (if r.turn then 1 else 0)
  match l.drop r.cnt with
  | b :: _ =>
    let bad := r.poisoned || (l.take (r.cnt + 1)).any badToken
    let last := r.cutNow || b.kind = .tail || b.kind = .solo
    let kind := if r.cutNow then tokenKind r.cnt true else b.kind
    let s1 := s.toX [if bad then framedPoison kind else { b with kind }]
    some (if last then s1.endStream op else s1.setRun { r with cnt := r.cnt + 1 })
  | [] =>
    if r.cutNow then
      let b : Beat := { kind := tokenKind r.cnt true }
      some ((s.toX [if r.poisoned || l.any badToken then b.poison else b]).endStream op)
    else s.collectStep op

/-- omax and omin (R176): accSet tells that the choice is made, turn that it is B. -/
def choiceStep (op : Nat) (s : State) : Option State :=
  match s.drainStep with
  | some t => some t
  | none =>
    let r := s.el.run
    if !r.isOpen then s.openStream op
    else if r.accSet then s.chosenStep op
    else if r.cutNow then some ((s.toX [{ kind := .solo }]).endStream op)
    else
      let dec := decide175 r
      if comparePoisoned r then some ((s.setRun { r with accSet := true, turn := false, poisoned := true }).toY [poisonBeat])
      else match dec with
        | some (_, sg) =>
          let b := if op = 0xA6 then decide (sg < 0) else decide (0 < sg)
          some ((s.setRun { r with accSet := true, turn := b }).toY [{ data := b2w b }])
        | none => s.collectStep op

/-- A turn of an online node: a beat at P that has its effect now comes before anything is emitted
(R177). -/
def onlineTurn (s : State) (op : Nat) (a : ElemArgs) (f : State → Option State) : State :=
  s.turn op a fun t =>
    if (t.examineCut t.curTile t.curSlot).isSome then some (t.postOnce (.evOnlineCut t.curTile t.curSlot)) else f t

end State

/-- ofrom (R173). -/
def execElOfrom (a : ElemArgs) (s : State) : Result := .next (s.onlineTurn 0xA0 a State.ofromStep)
/-- oto (R174). -/
def execElOto (a : ElemArgs) (s : State) : Result := .next (s.onlineTurn 0xA1 a State.otoStep)
/-- oadd (R170-R172). -/
def execElOadd (a : ElemArgs) (s : State) : Result := .next (s.onlineTurn 0xA2 a (State.arithStep 0xA2))
/-- omul (R170-R172). -/
def execElOmul (a : ElemArgs) (s : State) : Result := .next (s.onlineTurn 0xA3 a (State.arithStep 0xA3))
/-- omad (R170-R172). -/
def execElOmad (a : ElemArgs) (s : State) : Result := .next (s.onlineTurn 0xA4 a (State.arithStep 0xA4))
/-- ocmp (R175). -/
def execElOcmp (a : ElemArgs) (s : State) : Result := .next (s.onlineTurn 0xA5 a State.ocmpStep)
/-- omax (R176). -/
def execElOmax (a : ElemArgs) (s : State) : Result := .next (s.onlineTurn 0xA6 a (State.choiceStep 0xA6))
/-- omin (R176). -/
def execElOmin (a : ElemArgs) (s : State) : Result := .next (s.onlineTurn 0xA7 a (State.choiceStep 0xA7))

/-- ONLINE_CUT (R177): the beat at the head of P of an online node is examined. -/
def execEvOnlineCut (p n : Nat) (s : State) : Result :=
  .next (if (s.slot p n).live then
      match s.examineCut p n with
      | some t => t.wake p n
      | none => s
    else s)

end Sys2Proof.Machine
end

