-- ==== Sys2Proof/Machine/Port.lean ====
section
/-! DEFINITION. Edge ports, helm ports and the control port, slots 57 to 63 (R162-R166, R419). -/

namespace Sys2Proof.Machine

namespace State

/-! ## Edge ports (R162-R164) -/

/-- The unit at the head of inbound channel c of an edge: a capability pair goes whole (R55). -/
def inchUnit (s : State) (p e c : Nat) : List Arrived := avail (look [] (s.tile p).inch (8 * e + c))

/-- The head beat of an inbound channel gone; a full channel has room again (R73). -/
def popInch (s : State) (p e c : Nat) : State :=
  let l := look [] (s.tile p).inch (8 * e + c)
  let s1 := s.setTile p { s.tile p with inch := put (s.tile p).inch (8 * e + c) l.tail }
  if portRoom ≤ l.length then s1.nudge (s.handleOf p) else s1

/-- Whether EIN maps inbound channel c of an eterm to CX, and to CY (R163). -/
def einTo (x : Slot) (c : Nat) : Bool × Bool :=
  let v := x.param 0x13 0
  let mine := bit (x.param 0x10 0) c
  (mine && v % 16 == 8 + c, mine && v / 16 % 16 == 8 + c)

/-- A head beat terminated: to the consumers EIN names, else discarded and counted (R163). -/
def terminate (s : State) (p e c : Nat) (b : Beat) : State :=
  let x := s.slot p (60 + e)
  let (toCx, toCy) := einTo x c
  let s1 := s.popInch p e c
  if toCx || toCy then
    let s2 := if toCx then s1.emitNow p (60 + e) x.cx b else s1
    if toCy then s2.emitNow p (60 + e) x.cy b else s2
  else s1.countError (s.handleOf p)

/-- One channel of an edge moves its head beat, if it can; outside EMASK the beat is discarded and counted (log 108). -/
def moveInch (op : Nat) (s : State) (p e c : Nat) : Option State :=
  match s.inchUnit p e c with
  | [] => none
  | a :: _ =>
    let x := s.slot p (60 + e)
    if op = 0xC3 then
      let (toCx, toCy) := einTo x c
      if (!toCx || roomFor x x.cx) && (!toCy || roomFor x x.cy) then some (s.terminate p e c a.beat) else none
    else if !bit (x.param 0x10 0) c then some ((s.popInch p e c).countError (s.handleOf p))
    else if op = 0xC2 then none
    else ((s.popInch p e c).sendEdge p (if op = 0xC0 then oppositeEdge e else x.param 0x11 0) c a)

/-- The turn of an edge port: every inbound channel in order (R163). -/
def edgeStep (op : Nat) (s : State) : Option State :=
  let p := s.curTile
  let e := s.curSlot - 60
  let r := (List.range 8).foldl (fun (a : State × Bool) c =>
    match moveInch op a.1 p e c with
    | some t => (t, true)
    | none => a) (s, false)
  if r.2 then some r.1 else none

/-! ## Helm ports (R165, R227) -/

/-- A mapped port's head unit enters its stream's queue of 16 (R165). -/
def hinPort (s : State) (o : Nat) : Option State :=
  let p := s.curTile
  let u := s.curSlot - 57
  let v := s.el.param 0x10 0
  if !bit v (7 * o + 6) then none
  else
    let n := v / 2 ^ (7 * o) % 64
    match headUnit (s.el.port o) with
    | some bs =>
      let q := s.inq p u n
      if q.length + bs.length ≤ 16 then
        let s1 := s.taken o bs.length
        some (s1.setUnit p u { s1.unit p u with inq := put (s1.unit p u).inq n (q ++ bs) })
      else none
    | none => none

/-- A mapped stream's head unit goes to CX or CY (R165). -/
def houtTo (s : State) (i : Nat) : Option State :=
  let p := s.curTile
  let u := s.curSlot - 57
  let v := s.el.param 0x11 0
  if !bit v (7 * i + 6) then none
  else
    let n := v / 2 ^ (7 * i) % 64
    match s.outq p u n with
    | [] => none
    | b :: bs =>
      if !roomFor s.el (if i = 0 then s.el.cx else s.el.cy) then none else
      let k := if b.kind = .caplo && !b.cfg then 2 else 1
      let s1 := s.setUnit p u { s.unit p u with outq := put (s.unit p u).outq n ((b :: bs).drop k) }
      some (if i = 0 then s1.toX ((b :: bs).take k) else s1.toY ((b :: bs).take k))

/-- Moves tried in order; none when none of them can go. -/
def eachMove (fs : List (State → Option State)) (s : State) : Option State :=
  let r := fs.foldl (fun (a : State × Bool) f =>
    match f a.1 with
    | some t => (t, true)
    | none => a) (s, false)
  if r.2 then some r.1 else none

/-- The moves of hin. -/
def hinMoves : List (State → Option State) := (List.range 4).map fun o s => hinPort s o
/-- The moves of hout. -/
def houtMoves : List (State → Option State) := (List.range 2).map fun i s => houtTo s i

/-! ## The control port (R166) -/

/-- KID. -/
def kid (x : Slot) : Nat := x.param 0x10 0

/-- kgate: the beat travels to CX as an ordinary beat with TAG 0, one tile per fc. -/
def kgateStep (s : State) : Option State :=
  match headUnit s.el.portA with
  | none => none
  | some u =>
    let far := ((s.destTile s.curTile s.el.cx).map (s.controlHops s.curTile)).getD 0
    some (u.foldl (fun (t : State) b =>
      t.emitAt s.curTile s.curSlot (s.fc + Nat.max 1 far) s.el.cx b.plain) (s.taken 0 u.length))

/-- klast: a kept last-beat token of its KID becomes a DATA beat; its delivery acquires at GROUP scope. -/
def klastStep (s : State) : Option State :=
  let p := s.curTile
  match (s.tile p).tokens.find? fun t => t.1 = kid s.el with
  | none => none
  | some t =>
    let s1 := s.setTile p { s.tile p with tokens := (s.tile p).tokens.erase t }
    some ((s1.toX [{ data := wd (t.1 % 256 + t.2 * 256) }]).raisePorts (s.handleOf p))

/-- kwave: the wave of region KID becomes a DATA beat 0. -/
def kwaveStep (s : State) : Option State :=
  let p := s.curTile
  if (s.tile p).waves.contains (kid s.el) then
    some ((s.setTile p { s.tile p with waves := (s.tile p).waves.erase (kid s.el) }).toX [{}])
  else none

/-- kbar: an A beat arrives at barrier KID; each completion becomes a DATA beat with the new phase. -/
def kbarStep (s : State) : Option State :=
  let p := s.curTile
  match (s.tile p).completions.find? fun c => c.1 = kid s.el with
  | some c =>
    some ((s.setTile p { s.tile p with completions := (s.tile p).completions.erase c }).toX [{ data := b2w c.2 }])
  | none =>
    match headBeat s.el.portA with
    | none => none
    | some _ => some ((s.taken 0 1).arrive p (kid s.el) none)

end State

/-- epass (R163). -/
def execElEpass (a : ElemArgs) (s : State) : Result := .next (s.turn 0xC0 a (State.edgeStep 0xC0))
/-- eturn (R163). -/
def execElEturn (a : ElemArgs) (s : State) : Result := .next (s.turn 0xC1 a (State.edgeStep 0xC1))
/-- eroute (R163, R164). -/
def execElEroute (a : ElemArgs) (s : State) : Result := .next (s.turn 0xC2 a (State.edgeStep 0xC2))
/-- eterm (R163). -/
def execElEterm (a : ElemArgs) (s : State) : Result := .next (s.turn 0xC3 a (State.edgeStep 0xC3))
/-- hin (R165). -/
def execElHin (a : ElemArgs) (s : State) : Result := .next (s.turn 0xC8 a (State.eachMove State.hinMoves))
/-- hout (R165). -/
def execElHout (a : ElemArgs) (s : State) : Result := .next (s.turn 0xC9 a (State.eachMove State.houtMoves))
/-- hbi (R165). -/
def execElHbi (a : ElemArgs) (s : State) : Result :=
  .next (s.turn 0xCA a (State.eachMove (State.hinMoves ++ State.houtMoves)))
/-- kgate (R166). -/
def execElKgate (a : ElemArgs) (s : State) : Result := .next (s.turn 0xCC a State.kgateStep)
/-- klast (R166). -/
def execElKlast (a : ElemArgs) (s : State) : Result := .next (s.turn 0xCD a State.klastStep)
/-- kwave (R166, R419). -/
def execElKwave (a : ElemArgs) (s : State) : Result := .next (s.turn 0xCE a State.kwaveStep)
/-- kbar (R166). -/
def execElKbar (a : ElemArgs) (s : State) : Result := .next (s.turn 0xCF a State.kbarStep)

end Sys2Proof.Machine
end

