-- ==== Sys2Proof/Machine/Reduce.lean ====
section
/-! DEFINITION. Stream reductions and accumulating dot products (R97, R127-R130). -/

namespace Sys2Proof.Machine

/-- A parameter of a run: as it stood when the run opened, or as it stands (R104). -/
def Slot.runParam (x : Slot) (sel d : Nat) : Nat :=
  if x.run.isOpen then look d x.run.held sel else x.param sel d

/-- The formats of the acting reduction, with OUTF as its run holds it (R104). -/
def State.reduceEnv (s : State) : Env :=
  let t := s.tile s.curTile
  { t.env s.el with out := t.fmt (s.el.runParam 0x11 s.el.fsel) }

/-- A lane is nonzero for rcnt (R129). -/
def countsLane (m : Fmt) (v : Nat) : Bool :=
  if m.kind = .float || m.kind = .e then
    match m.val v with
    | .zero _ => false
    | _ => true
  else v ≠ 0

/-- rmax and rmin on lane codes (R129). -/
def betterOf (m : Fmt) (greater : Bool) (a b : Nat) : Nat :=
  if m.kind = .float || m.kind = .e then m.pick greater (m.read a) (m.read b)
  else if (if greater then m.int a < m.int b else m.int b < m.int a) then b else a

/-- Whether lane v is greater than the best so far, by value (R129; log 16). -/
def greaterLane (m : Fmt) (best v : Nat) : Bool :=
  if m.kind = .float || m.kind = .e then 0 < (m.val v).cmp (m.val best) else m.int best < m.int v

/-- A lane holds NaN. -/
def nanLane (m : Fmt) (v : Nat) : Bool := (m.kind = .float || m.kind = .e) && (m.val v).isNan

/-- A beat absorbed into the run (R127, R129): `op` tells the reduction. rsum's accumulator is read as it stands, without
OUTF's DAZ (log 92). -/
def absorb (e : Env) (op : Nat) (r : Run) (gen : BitVec 32) (d : Nat) : Run × BitVec 32 :=
  let ls := lanesOf e.fmt.w d
  if op = 0x41 || op = 0x43 then (r, gen)
  else if op = 0x48 then
    if e.fmt.kind = .int then ({ r with acc := r.acc + (ls.map e.fmt.int).sum }, gen)
    else ls.foldl (fun (q : Run × BitVec 32) v =>
      let g := if e.x.round = .sr then stepGen q.2 else q.2
      let x := (e.fmt.val v).exact
      let y := if q.1.accSet then (e.out.fl.decode false q.1.accBits.toNat).exact.add e.x.round x else x
      ({ q.1 with accBits := wd (e.out.fl.roundExact e.out.b e.x.round g.toNat y), accSet := true }, g)) (r, gen)
  else if op = 0x4C then ({ r with pos := r.pos + (ls.filter (countsLane e.fmt)).length }, gen)
  else if op = 0x4B then
    ((ls.zip (List.range ls.length)).foldl (fun q v =>
      if nanLane e.fmt v.1 then q
      else if !q.accSet || greaterLane e.fmt q.accBits.toNat v.1 then
        { q with accBits := wd v.1, accSet := true, pos := r.cnt * ls.length + v.2 }
      else q) r, gen)
  else
    (ls.foldl (fun q v =>
      { q with accBits := wd (if q.accSet then betterOf e.fmt (op = 0x49) q.accBits.toNat v else v), accSet := true }) r, gen)

/-- What an empty run of rmax or rmin gives (R130). -/
def emptyBest (m : Fmt) (greater : Bool) : Nat :=
  if m.kind = .float || m.kind = .e then
    m.fl.signBit greater + (if m.fl.nan = .ieee then m.fl.infCode else m.fl.largestCode)
  else if m.signed then (if greater then 2 ^ (m.w - 1) else 2 ^ (m.w - 1) - 1)
  else if greater then 0 else 2 ^ m.w - 1

/-- The result of a run and its flag (R127, R129, R130). -/
def runResult (e : Env) (op : Nat) (r : Run) : Nat × Bool :=
  if op = 0x41 || op = 0x43 || (op = 0x48 && e.fmt.kind = .int) then
    let q := e.out.sat r.acc
    (wrapLane e.out.w q.1, q.2)
  else if op = 0x48 then (r.accBits.toNat, false)
  else if op = 0x4C then (r.pos, false)
  else if op = 0x4B then (if r.accSet then r.pos else 2 ^ 64 - 1, false)
  else if !r.accSet then (emptyBest e.fmt (op = 0x49), false)
  else if nanLane e.fmt r.accBits.toNat then (e.fmt.fl.nanCode, false)
  else if e.fmt.kind = .int then (r.accBits.toNat % 2 ^ e.fmt.w, false)
  else (e.fmt.flush (e.fmt.read r.accBits.toNat), false)

/-- The run state between runs. -/
def Run.fresh (byLoop : Bool) : Run := { closed := some byLoop }

namespace State

/-- A run closes: its result beat, with flags on CY when FLAGOUT is set (R108, R128). -/
def closeRun (s : State) (op : Nat) (poi byLoop : Bool) : State :=
  let e := s.reduceEnv
  let r := s.el.run
  let tooMany := (op = 0x41 || op = 0x43) && 65536 < r.products
  let res := runResult e op r
  let bad := poi || r.poisoned || tooMany
  let b : Beat := if bad then poisonBeat else { data := wd res.1 }
  let f : Beat := if bad then poisonBeat else { data := b2w res.2 }
  let s1 := (s.setRun (Run.fresh byLoop)).toX [b]
  let s2 := s1.toY [if s.el.param 0x14 0 = 1 then f else b]
  if tooMany then s2.elError else s2

/-- A data beat taken by a reduction (R128). -/
def takeValue (s : State) (op : Nat) (b : Beat) : State :=
  let x := s.el
  let r0 := if x.run.isOpen then x.run else { x.run with isOpen := true, held := x.params }
  let s0 := s.setRun r0
  let e := s0.reduceEnv
  let r1 := { r0 with poisoned := r0.poisoned || b.poi }
  let sum := if op = 0x41 || op = 0x43 then
      dotSum e.fmt b.data.toNat ((s0.el.run.beats.headD {}).data.toNat) else some 0
  let (r2, g) := if r1.poisoned then (r1, x.gen 0) else absorb e op r1 (x.gen 0) b.data.toNat
  let r3 := { r2 with cnt := r2.cnt + 1, beats := [],
                      acc := r2.acc + sum.getD 0, poisoned := r2.poisoned || sum.isNone,
                      products := r2.products + (if e.fmt.kind = .t3 then 40 else 64 / e.fmt.w) }
  let s1 := (if x.round = .sr then s0.setGen g else s0).setRun r3
  let n := s1.el.runParam 0x12 0 % 2 ^ 32
  if n ≠ 0 && n ≤ r3.cnt then s1.closeRun op false false else s1

/-- A LOOPEND taken by a reduction (R128). -/
def takeLoop (s : State) (op : Nat) (b : Beat) : State :=
  let r := s.el.run
  let rdim := s.el.runParam 0x12 0 / 2 ^ 32 % 8
  let closes := 0 < r.cnt || r.closed ≠ some false
  if b.poi then (if closes then s.closeRun op true true else s).toBoth [b.poison]
  else if b.dim < rdim then s
  else
    let s1 := if closes then s.closeRun op false true else s
    if rdim < b.dim then s1.toBoth [loopBeat (b.dim - rdim - 1)] else s1

/-- fc that a reduction takes for a beat: 4 x n for a floating rsum of n lanes (R129). -/
def reduceTime (s : State) (op : Nat) : Nat :=
  let m := ((s.tile s.curTile).env s.el).fmt
  if op = 0x48 && m.kind ≠ .int then 4 * (64 / m.w) else 1

/-- The acting element goes on no sooner than n fc from now. -/
def restFor (s : State) (n : Nat) : State := s.setRun { s.el.run with due := s.fc + n }

/-- A reduction of port A takes a beat (R128, R129); before its time it is looked at again, and on a constant A it never
acts (log 106). -/
def reduceStep (op : Nat) (s : State) : Option State :=
  match headBeat s.el.portA with
  | none => none
  | some b =>
    if s.el.src 0 ≠ 0 then none
    else if s.fc < s.el.run.due then some (s.wake s.curTile s.curSlot)
    else
      let s1 := s.taken 0 1
      some (if b.isLoop then s1.takeLoop op b else (s1.takeValue op b).restFor (s.reduceTime op))

/-- The operand of port o for dota: the head of the port, or the constant (R107). -/
def dotOperand (x : Slot) (o : Nat) : Option Beat :=
  if x.src o = 0 then headBeat (x.port o) else some { data := x.const (x.src o - 1) }

/-- The poisoned beat of a mismatch, on CY as a flag beat where FLAGOUT is set (R108, R111). -/
def mismatched (s : State) (k : Kind) : State :=
  let s1 := s.elError.toX [framedPoison k]
  s1.toY [if s.el.param 0x14 0 = 1 then poisonBeat else framedPoison k]

/-- dota and dotta take a beat of each operand (R111, R127). Where a LOOPEND stands against data, or LOOPENDs differ, both
are consumed, one error is counted, a poisoned beat goes out, and the run stays open (log 93). On two constants it never
acts (log 106). -/
def dotaStep (op : Nat) (s : State) : Option State :=
  let x := s.el
  match dotOperand x 0, dotOperand x 1 with
  | some a, some b =>
    let ports := [0, 1].filter fun o => x.src o = 0
    if ports.isEmpty then none
    else
      let s1 := ports.foldl (fun q o => q.taken o 1) s
      let from_ := ports.map fun o => if o = 0 then a else b
      if from_.all Beat.isLoop then
        let p := from_.any (·.poi)
        if from_.all (fun q => q.dim = (from_.headD {}).dim) then
          some (s1.takeLoop op { (from_.headD {}) with poi := p })
        else some (s1.mismatched .loopend)
      else if from_.any Beat.isLoop then some (s1.mismatched (from_.headD {}).kind)
      else
        some ((s1.setRun { s1.el.run with beats := [b] }).takeValue op { a with poi := a.poi || b.poi })
  | _, _ => none

end State

/-- dota (R127). -/
def execElDota (a : ElemArgs) (s : State) : Result := .next (s.turn 0x41 a (State.dotaStep 0x41))
/-- dotta (R127). -/
def execElDotta (a : ElemArgs) (s : State) : Result := .next (s.turn 0x43 a (State.dotaStep 0x43))
/-- rsum (R129). -/
def execElRsum (a : ElemArgs) (s : State) : Result := .next (s.turn 0x48 a (State.reduceStep 0x48))
/-- rmax (R129). -/
def execElRmax (a : ElemArgs) (s : State) : Result := .next (s.turn 0x49 a (State.reduceStep 0x49))
/-- rmin (R129). -/
def execElRmin (a : ElemArgs) (s : State) : Result := .next (s.turn 0x4A a (State.reduceStep 0x4A))
/-- rargmax (R129). -/
def execElRargmax (a : ElemArgs) (s : State) : Result := .next (s.turn 0x4B a (State.reduceStep 0x4B))
/-- rcnt (R129). -/
def execElRcnt (a : ElemArgs) (s : State) : Result := .next (s.turn 0x4C a (State.reduceStep 0x4C))

end Sys2Proof.Machine
end

