-- ==== Sys2Proof/Machine/Fire.lean ====
section
/-! DEFINITION. The meaning of an element word by its operation code (R51): how a region or a self-timed
element fires without building an instruction. -/

namespace Sys2Proof.Machine

/-- The fields of an element word below its code (R46). -/
def Slot.args (x : Slot) : ElemArgs := elemArgs x.word.toNat

/-- One firing or turn of the operation a code names; a code that names none does nothing (R51). -/
def fireByOpcode (op : Nat) (a : ElemArgs) (s : State) : Result :=
  match op with
  | 0x00 => execElMov a s
  | 0x01 => execElAdd a s
  | 0x02 => execElSub a s
  | 0x03 => execElMul a s
  | 0x04 => execElMulhi a s
  | 0x05 => execElDiv a s
  | 0x06 => execElRem a s
  | 0x07 => execElNeg a s
  | 0x08 => execElAbs a s
  | 0x09 => execElMin a s
  | 0x0A => execElMax a s
  | 0x0B => execElAdds a s
  | 0x0C => execElSubs a s
  | 0x0D => execElAbsd a s
  | 0x0E => execElMad a s
  | 0x0F => execElClamp a s
  | 0x10 => execElFma a s
  | 0x11 => execElFadd a s
  | 0x12 => execElFsub a s
  | 0x13 => execElFmul a s
  | 0x14 => execElFdiv a s
  | 0x15 => execElFsqrt a s
  | 0x16 => execElFmin a s
  | 0x17 => execElFmax a s
  | 0x18 => execElFneg a s
  | 0x19 => execElFabs a s
  | 0x1A => execElFrcp a s
  | 0x1B => execElFrsqrt a s
  | 0x1C => execElFexp2 a s
  | 0x1D => execElFlog2 a s
  | 0x1E => execElFsinpi a s
  | 0x1F => execElFcospi a s
  | 0x20 => execElCmpeq a s
  | 0x21 => execElCmpne a s
  | 0x22 => execElCmplt a s
  | 0x23 => execElCmple a s
  | 0x24 => execElCmpun a s
  | 0x25 => execElSel a s
  | 0x26 => execElClass a s
  | 0x28 => execElAnd a s
  | 0x29 => execElOr a s
  | 0x2A => execElXor a s
  | 0x2B => execElNot a s
  | 0x2C => execElShl a s
  | 0x2D => execElShr a s
  | 0x2E => execElSar a s
  | 0x2F => execElRol a s
  | 0x30 => execElClz a s
  | 0x31 => execElCtz a s
  | 0x32 => execElPopc a s
  | 0x33 => execElBilv a s
  | 0x34 => execElBdlv a s
  | 0x35 => execElBrev a s
  | 0x36 => execElBfx a s
  | 0x37 => execElBfi a s
  | 0x38 => execElCvt a s
  | 0x39 => execElCvts a s
  | 0x3A => execElPack a s
  | 0x3B => execElUnpack a s
  | 0x3C => execElQmx a s
  | 0x3D => execElDqmx a s
  | 0x3E => execElBcast a s
  | 0x40 => execElDot a s
  | 0x41 => execElDota a s
  | 0x42 => execElDott a s
  | 0x43 => execElDotta a s
  | 0x48 => execElRsum a s
  | 0x49 => execElRmax a s
  | 0x4A => execElRmin a s
  | 0x4B => execElRargmax a s
  | 0x4C => execElRcnt a s
  | 0x50 => execElSteer a s
  | 0x51 => execElMerge a s
  | 0x52 => execElGate a s
  | 0x53 => execElDup a s
  | 0x54 => execElSplit a s
  | 0x55 => execElFrame a s
  | 0x56 => execElUnframe a s
  | 0x57 => execElSeq a s
  | 0x58 => execElSeqx a s
  | 0x59 => execElConst a s
  | 0x5A => execElZip a s
  | 0x5B => execElUnzip a s
  | 0x60 => execElAld a s
  | 0x61 => execElAst a s
  | 0x62 => execElAgth a s
  | 0x63 => execElAsct a s
  | 0x64 => execElAamo a s
  | 0x65 => execElAbnk a s
  | 0x66 => execElAxlat a s
  | 0x67 => execElAchk a s
  | 0x80 => execElMrd a s
  | 0x81 => execElMwr a s
  | 0x82 => execElMrmw a s
  | 0x83 => execElMfifo a s
  | 0x84 => execElMdbuf a s
  | 0x85 => execElMcopy a s
  | 0x86 => execElMfill a s
  | 0x87 => execElMlut a s
  | 0x90 => execElLmap a s
  | 0x91 => execElLnet a s
  | 0x92 => execElLpack a s
  | 0x93 => execElLunpk a s
  | 0x94 => execElLdec a s
  | 0xA0 => execElOfrom a s
  | 0xA1 => execElOto a s
  | 0xA2 => execElOadd a s
  | 0xA3 => execElOmul a s
  | 0xA4 => execElOmad a s
  | 0xA5 => execElOcmp a s
  | 0xA6 => execElOmax a s
  | 0xA7 => execElOmin a s
  | 0xB0 => execElXnode a s
  | 0xB1 => execElXnodeb a s
  | 0xB2 => execElXnodes a s
  | 0xC0 => execElEpass a s
  | 0xC1 => execElEturn a s
  | 0xC2 => execElEroute a s
  | 0xC3 => execElEterm a s
  | 0xC8 => execElHin a s
  | 0xC9 => execElHout a s
  | 0xCA => execElHbi a s
  | 0xCC => execElKgate a s
  | 0xCD => execElKlast a s
  | 0xCE => execElKwave a s
  | 0xCF => execElKbar a s
  | _ => .next s

/-- The element of slot n of a tile fires or takes its turn. -/
def fireSlot (s : State) (p n : Nat) : Result :=
  let t : State := { s with curTile := p, curSlot := n }
  fireByOpcode (t.slot p n).op (t.slot p n).args t

end Sys2Proof.Machine
end

