-- ==== Sys2Proof/Machine/Region.lean ====
section
/-! DEFINITION. Regions: firing, holding, the actor condition; and parking at a cut (R98, R100-R105, R202,
R345). -/

namespace Sys2Proof.Machine
namespace State

/-! ## Members (R100, R103) -/

/-- The slots of a group's tiles: tile and slot number. -/
def groupSlots (s : State) (h : Nat) : List (Nat × Nat) :=
  (s.group h).tiles.flatMap fun t => ((s.tile t.2.2).slots.filter fun c => c.2.st ≠ .empty).map fun c => (t.2.2, c.1)

/-- The members of region r that fire with it (R100, R105). -/
def members (s : State) (h r : Nat) : List (Nat × Nat) :=
  (s.groupSlots h).filter fun q =>
    let x := s.slot q.1 q.2
    x.region = r && !selfTimed x.op

/-- The master of region r: the member of lowest logical (row, col), then slot; a self-timed element takes no part
(R103, R105). -/
def masterOf (s : State) (h r : Nat) : Option (Nat × Nat) :=
  let rank := fun (q : Nat × Nat) => (((s.tile q.1).row * 256 + (s.tile q.1).col) * 64 + q.2)
  match s.members h r with
  | [] => none
  | q :: t => some (t.foldl (fun a b => if rank b < rank a then b else a) q)

/-- The II of a region's iterations (R103). -/
def masterII (s : State) (h r : Nat) : Nat := match s.masterOf h r with
  | some q => (s.slot q.1 q.2).ii
  | none => 1

/-- The members due at the region's position. -/
def dueMembers (s : State) (h r : Nat) : List (Nat × Nat) :=
  let n := (look {} (s.group h).regions r).advanced
  (s.members h r).filter fun q => let x := s.slot q.1 q.2; n % x.ii = x.phase

/-- A member can fire (R101). -/
def memberReady (s : State) (q : Nat × Nat) : Bool :=
  let x := s.slot q.1 q.2
  if 0x60 ≤ x.op && x.op < 0x68 then s.genReady q.1 q.2
  else if 0x80 ≤ x.op && x.op < 0x88 then bankReady x
  else fires x

/-- The ports of a slot where a configuration word is to be applied now (R104). -/
def wordPorts (x : Slot) : List Nat := (List.range 4).filter fun o => (wordPlace x o).isSome

/-! ## The actor condition (R102) -/

/-- Region r may start an iteration. -/
def actorOpen (s : State) (h r : Nat) : Bool :=
  (s.group h).actors.all fun a =>
    (a.consumer ≠ r || a.nin ≤ a.tc.toNat) && (a.producer ≠ r || a.nout ≤ a.fs.toNat)

/-- An iteration of region r is claimed. -/
def claim (s : State) (h r : Nat) : State :=
  let g := s.group h
  if g.actors.isEmpty then s
  else s.setGroup h { g with actors := g.actors.map fun a =>
    { a with tc := if a.consumer = r then a.tc - BitVec.ofNat 16 a.nin else a.tc,
             fs := if a.producer = r then a.fs - BitVec.ofNat 16 a.nout else a.fs } }

/-! ## Firing and holding (R98, R101) -/

/-- The group is GATED while some region holds at a missing beat (R339). -/
def gateGroup (s : State) (h : Nat) : State :=
  let g := s.group h
  if g.st = .firing || g.st = .gated then
    s.setGroup h { g with st := if g.regions.any (fun r => r.2.armed && r.2.gated) then .gated else .firing }
  else s

/-- A region's record changed. -/
def setRegion (s : State) (h r : Nat) (f : Region → Region) : State :=
  s.setGroup h { s.group h with regions := upd {} (s.group h).regions r f }

/-- The members of a region are ARMED or GATED (R98). -/
def markMembers (s : State) (h r : Nat) (gated : Bool) : State :=
  (s.members h r).foldl (fun a q =>
    let x := a.slot q.1 q.2
    if gated && x.st = .armed then a.setSlot q.1 q.2 { x with st := .gated }
    else if !gated && x.st = .gated then a.setSlot q.1 q.2 { x with st := .armed } else a) s

/-- A firing of one member; every meaning answers a next state. -/
def fireMember (s : State) (q : Nat × Nat) : State :=
  match fireSlot s q.1 q.2 with
  | .next t => t
  | _ => s

/-- A member applies one word that is due, unless it has applied one in this fc (R104). -/
def takeWord (s : State) (q : Nat × Nat) : State :=
  let x := s.slot q.1 q.2
  match wordPorts x with
  | o :: _ => if x.wordFc = some s.fc || x.held then s else s.applyPort q.1 q.2 o
  | [] => s

/-- A member applies a word in this fc, or has applied one: its region holds (R104). -/
def wordNow (s : State) (q : Nat × Nat) : Bool :=
  (s.slot q.1 q.2).wordFc = some s.fc || !(wordPorts (s.slot q.1 q.2)).isEmpty

/-- The region holds (R101, R104): its members due apply a word each; they are GATED. -/
def holdRegion (s : State) (h r : Nat) (due : List (Nat × Nat)) (beat : Bool) : State :=
  let s0 := due.foldl takeWord s
  let s1 := if due.any s.wordNow then s0.postOnce (.evRegionFire h r) else s0
  ((s1.setRegion h r fun x => { x with gated := beat }).markMembers h r true).gateGroup h

/-- A member of the phase lacks a beat: it is live and has room, and no word stands at a head (R101). -/
def lacksBeat (s : State) (q : Nat × Nat) : Bool :=
  let x := s.slot q.1 q.2
  !s.memberReady q && x.live && noWord x && (stopped? x || hasRoom x (latOf x.op))

/-- One fc of region r of a group (R100): it holds, or every member of its phase fires. -/
def regionStep (s : State) (h r : Nat) : State :=
  let due := s.dueMembers h r
  let s1 := due.foldl (fun a q => if 40 ≤ q.2 && q.2 < 48 then a.settleStop q.1 q.2 else a) s
  let x := look {} (s1.group h).regions r
  let start := x.advanced % s1.masterII h r = 0
  if due.all (s1.memberReady) && !due.any s1.wordNow && (s1.members h r).all (fun q => !(s1.slot q.1 q.2).held) &&
      (!start || s1.actorOpen h r) then
    let s2 := if start then s1.claim h r else s1
    let s3 := (due.foldl fireMember (s2.markMembers h r false)).setRegion h r fun y =>
      { y with advanced := y.advanced + 1, gated := false }
    ((s3.gateGroup h).postOnce (.evRegionFire h r))
  else s1.holdRegion h r due (due.any s1.lacksBeat)

/-! ## Parking (R98, R152, R179, R202, R345) -/

/-- An address generator other than axlat. -/
def isGen (x : Slot) : Bool := 0x60 ≤ x.op && x.op ≤ 0x67 && x.op != 0x66

/-- What a generator has issued is done; a spilled request and what waits behind it are saved (R152,
R374). -/
def genEmpty (x : Slot) : Bool :=
  x.run.reqs.all fun q => q.spilled || q.reply.isSome || (q.kind = .complete && x.run.reqs.any (·.spilled)) ||
    (q.kind.isAmo && x.run.reqs.any fun o => o.spilled && o.id < q.id && o.copy = q.copy)

/-- Nothing more leaves a helm unit: its threads with code are at rest and its outbound queues empty (R214, R345). -/
def unitAtRest (s : State) (p u : Nat) : Bool :=
  s.unitDrained (threadKey p u 0) && (List.range 4).all fun i =>
    let x := s.thread (threadKey p u i)
    !x.hasCode || x.st = .yielding || x.st = .halted || x.st = .trapped || x.st = .idle

/-- An element may park (R98, R152, R179, R202): generators at their cut, others after them with their
pipeline empty, a helm port once its unit's threads are at rest and its outbound queues have drained (R214), the matrix
node last. -/
def mayPark (s : State) (p n : Nat) : Bool :=
  let x := s.slot p n
  let h := s.handleOf p
  let rest := (s.groupSlots h).filter fun q => q ≠ (p, n)
  let gensDone := rest.all fun q => let y := s.slot q.1 q.2; !isGen y || y.st = .parked
  if x.held then false
  else if isGen x then (x.run.stop.isSome || atCut x.op x.run (s.cutDim p n)) && genEmpty x && x.pipe.isEmpty
  else if n = 56 then
    (rest.all fun q => (s.slot q.1 q.2).st = .parked || q.2 = 56) && (s.tile p).mat.work.isNone &&
    (!(s.tile p).mat.accepted || State.short { s with curTile := p, curSlot := 56 }) &&
    (s.tile p).mat.left.isNone && !(s.now ++ s.agenda).contains (.matrix p) && !(s.now ++ s.agenda).contains (.element p 56) &&
    x.pipe.isEmpty
  else
    gensDone && x.pipe.isEmpty && ((n ≠ 57 && n ≠ 58) || s.unitAtRest p (n - 57)) && x.run.lookups.isEmpty && x.run.command.isNone &&
    !(0xA0 ≤ x.op && x.op < 0xA8 && x.run.isOpen)

/-- The threads of a group's tiles that have code. -/
def codeThreads (s : State) (h : Nat) : List Nat :=
  (s.group h).tiles.flatMap fun t => ((List.range 8).map fun i => t.2.2 * 8 + i).filter fun i => (s.thread i).hasCode

/-- A stopped group's parts stand (R345): every element PARKED, every thread with code at rest. -/
def stopDone (s : State) (h : Nat) : Bool :=
  (s.groupSlots h).all (fun q => (s.slot q.1 q.2).st = .parked) &&
  (s.codeThreads h).all fun t =>
    (s.thread t).st = .yielding || (s.thread t).st = .halted || (s.thread t).st = .trapped

end State

/-- REGION_FIRE (R100, R101): one fc of region r of group g. -/
def execEvRegionFire (g r : Nat) (s : State) : Result :=
  .next (if (look {} (s.group g).regions r).armed && !s.groupHeld g then s.regionStep g r else s)

/-- ELEMENT_PARK (R98, R152, R202): a cut reaches the element, which parks once it may. -/
def execEvElementPark (p n : Nat) (s : State) : Result :=
  .next (
    let h := s.handleOf p
    let x := s.slot p n
    if (s.group h).st ≠ .cutting || !(x.st = .armed || x.st = .gated) then s
    else if s.mayPark p n then
      let s1 := if n = 56 then s.abandon p else s
      let y := s1.slot p n
      let s2 := s1.setSlot p n { y with st := .parked, run := { y.run with pages := [] } }
      if s2.stopDone h then s2.postOnce (.evStopComplete h) else s2
    else s.postOnce (.evElementPark p n))

end Sys2Proof.Machine
end

