-- ==== Sys2Proof/Machine/Route.lean ====
section
/-! DEFINITION. Routes between tiles: configured-mesh paths through lent channels, and the tile network with its
reserved virtual channels (R18, R21, R162, R164, R302, R396, R411). -/

namespace Sys2Proof.Machine

/-- The logical tiles of a block: two for a PAIR block (R44). -/
def Block.tiles (b : Block) : List (Nat × Nat) :=
  (b.col, b.row) :: (if b.pair then [(b.col + 1, b.row)] else [])

/-- A group's tile for a logical tile. -/
def chartTile (l : List (Nat × Nat × Nat)) (c r : Nat) : Option Nat :=
  (l.find? fun t => t.1 = c && t.2.1 = r).map (·.2.2)

/-- The block of a logical tile. -/
def blockOf (m : Image) (c r : Nat) : Option Block := m.blocks.find? fun b => b.tiles.contains (c, r)

/-- A class parameter that a block's PARAM words leave in a slot; 0 without one (R99). -/
def Block.param (b : Block) (n sel : Nat) : Nat :=
  b.params.foldl (fun v p => if p.1 = n && bits p.2 56 8 = sel then bits p.2 0 56 else v) 0

/-- A block's eroute element lends inbound channel c of edge e (R163). -/
def Block.lends (b : Block) (e c : Nat) : Bool :=
  (b.words.getD (60 + e) 0xFF03FFFF).toNat / 2 ^ 24 = 0xC2 && bit (b.param (60 + e) 0x10) c

/-! ## The routers of the tile network (R16, R21) -/

/-- The router of stack k's base die; those of a layer bear their position's PTID. -/
def baseRouter (k : Nat) : Nat := 2048 + k

/-- The router beside another one: 0 N, 1 E, 2 S, 3 W of a layer, 4 from C1 down to the base die (R16, R341). -/
def routerHop (n d : Nat) : Option Nat :=
  let x := n % 8
  let y := n / 8 % 8
  match d with
  | 0 => if y < 5 then some (n + 8) else none
  | 1 => if x < 7 then some (n + 1) else none
  | 2 => if 0 < y then some (n - 8) else none
  | 3 => if 0 < x then some (n - 1) else none
  | _ => if x = 7 && y = 0 then some (baseRouter (n / 512)) else none

/-- A router port: router and direction; a base die's are 0 to 7 up to its layers and 8 + j over UCIe to stack j. -/
def routerPort (n d : Nat) : Nat := n * 16 + d

/-- The ports between the base dies of stacks k and j: the x edge first, then the y edge (R414). -/
def diePorts (k j : Nat) : List Nat :=
  let corner := j % 2 + k / 2 * 2
  (if k = corner then [] else [routerPort (baseRouter k) (8 + corner)]) ++
  (if corner = j then [] else [routerPort (baseRouter corner) (8 + j)])

/-- A layer's seam router C1 (R16). -/
def seamRouter (l : Nat) : Nat := l * 64 + 7

/-- The members of a list of nodes with their paths that are new, each node once. -/
def freshNodes {α : Type} (seen : List Nat) : List (Nat × α) → List (Nat × α)
  | [] => []
  | q :: t => if seen.contains q.1 then freshNodes seen t else q :: freshNodes (q.1 :: seen) t

/-- A shortest path from the nodes of a front to b by the hops that `step` allows; what each hop takes is noted. -/
def findPath {α : Type} (step : Nat → List (Nat × α)) (b : Nat) : Nat → List Nat → List (Nat × List α) → Option (List α)
  | 0, _, _ => none
  | n + 1, seen, front =>
    match front.find? fun q => q.1 = b with
    | some q => some q.2
    | none =>
      let next := freshNodes seen (front.flatMap fun q => (step q.1).map fun h => (h.1, q.2 ++ [h.2]))
      findPath step b n (next.map (·.1) ++ seen) next

namespace State

/-! ## Mesh paths (R164) -/

/-- The hops from tile p along which a path of group h may be laid (R164): inside the group, over permitted edges, on a
free outbound channel that the next tile's eroute lends. -/
def meshHops (s : State) (h : Nat) (l : List (Nat × Nat × Nat)) (p : Nat) : List (Nat × Nat × Nat × Nat) :=
  (List.range 4).filterMap fun e =>
    match meshNeighbour p e with
    | none => none
    | some q =>
      match (l.find? fun t => t.2.2 = q).bind fun t => blockOf (s.group h).image t.1 t.2.1 with
      | none => none
      | some b =>
        if (s.tile p).permit.getLsbD (permitBit e) then
          ((List.range 8).find? fun c => b.lends (oppositeEdge e) c && !(s.tile p).laid.contains (8 * e + c)).map
            fun c => (q, p, e, c)
        else none

/-- A configured-mesh path of group h from tile p to q (R164). -/
def meshPath (s : State) (h : Nat) (l : List (Nat × Nat × Nat)) (p q : Nat) : Option (List (Nat × Nat × Nat)) :=
  findPath (s.meshHops h l) q 25 [p] [(p, [])]

/-- The channels of a path are the Pilot's (R162). -/
def claimPath (s : State) (path : List (Nat × Nat × Nat)) : State :=
  path.foldl (fun (a : State) t =>
    a.setTile t.1 { a.tile t.1 with laid := (8 * t.2.1 + t.2.2) :: (a.tile t.1).laid }) s

/-! ## Tile-network paths (R396) -/

/-- A router port has a virtual channel for partition t, or one free (R396). -/
def portOpen (s : State) (t k : Nat) : Bool :=
  let l := look [] s.vcs k
  l.any (·.part = t) || l.length < 12

/-- A switch that the Pilot may route through: not a tile of the defect map without PASS (R18). -/
def passes (s : State) (n : Nat) : Bool := !s.dis.contains n || s.pass.contains n

/-- A packet of context x leaves router n in a direction of the mesh: no tile of x whose permit bit is clear (R302,
R411). -/
def leaves (s : State) (x n d : Nat) : Bool :=
  (s.tile n).owner ≠ some x || (s.tile n).permit.getLsbD (permitBit d)

/-- The hops of a layer's routers that a route of context x in partition t may take. -/
def netHops (s : State) (x t n : Nat) : List (Nat × Nat) :=
  (List.range 4).filterMap fun d => match routerHop n d with
    | some m => if s.portOpen t (routerPort n d) && s.leaves x n d && s.passes m then some (m, routerPort n d) else none
    | none => none

/-- The router ports of a route of context x from tile p to q over the tile network (R396): within a layer, or by the
seam routers and base dies. -/
def netPath (s : State) (x t p q : Nat) : Option (List Nat) :=
  let within := fun (a b : Nat) => findPath (s.netHops x t) b 49 [a] [(a, [])]
  if layerOfTile p = layerOfTile q then within p q
  else
    let down := routerPort (seamRouter (layerOfTile p)) 4
    let up := routerPort (baseRouter (stackOfTile q)) (layerOfTile q % 8)
    let mid := down :: diePorts (stackOfTile p) (stackOfTile q) ++ [up]
    if !mid.all (s.portOpen t) then none
    else match within p (seamRouter (layerOfTile p)), within (seamRouter (layerOfTile q)) q with
      | some a, some b => some (a ++ mid ++ b)
      | _, _ => none

/-- One more route of partition t holds its virtual channel of a port, with BUF buffer slots where it is new (R396). -/
def holdPort (s : State) (t k : Nat) : State :=
  let l := look [] s.vcs k
  { s with vcs := put s.vcs k (if l.any (·.part = t) then
      l.map fun (v : Vc) => if v.part = t then { v with routes := v.routes + 1 } else v
    else l ++ [{ part := t, buf := (s.part t).buf, routes := 1 }]) }

/-- One route of partition t leaves a port; the last one releases the reservation (R396). -/
def freePort (s : State) (t k : Nat) : State :=
  let l := (look [] s.vcs k).filterMap fun (v : Vc) =>
    if v.part ≠ t then some v else if v.routes ≤ 1 then none else some { v with routes := v.routes - 1 }
  { s with vcs := if l.isEmpty then del s.vcs k else put s.vcs k l }

/-! ## Laying and releasing -/

/-- Entry i of tile p's route table laid (R71, R164): in the tile itself, over the mesh, or over the tile network; none
without a path. Of the allowed paths it is a shortest one (log 99). -/
def layRoute (s : State) (h : Nat) (l : List (Nat × Nat × Nat)) (p i : Nat) (r : Route) : Option State :=
  let set := fun (a : State) (v : Route) => a.setTile p { a.tile p with routes := put (a.tile p).routes i v }
  let x := (s.group h).ctx
  let t := (s.context x).part
  if r.tile = p then some (set s r)
  else match s.meshPath h l p r.tile with
    | some path => some (set (s.claimPath path) { r with path })
    | none => (s.netPath x t p r.tile).map fun ks => set (ks.foldl (fun a k => a.holdPort t k) s) { r with net := ks, part := t }

/-- A block's route table resolved by the Chart (R71, R164, R342). -/
def resolveRoutes (l : List (Nat × Nat × Nat)) (b : Block) : List (Nat × Route) :=
  (List.range b.routes.length).filterMap fun i =>
    let w := (b.routes.getD i 0).toNat
    if bit w 31 then (chartTile l (w / 2 ^ 20 % 256) (w / 2 ^ 12 % 256)).map fun p =>
      (i, { tile := p, slot := w / 2 ^ 6 % 64, port := w / 2 ^ 3 % 8 }) else none

/-- A tile's routes released (R396). -/
def releaseRoutes (s : State) (p : Nat) : State :=
  let s1 := (s.tile p).routes.foldl (fun (a : State) r => r.2.net.foldl (fun b k => b.freePort r.2.part k) a) s
  s1.setTile p { s1.tile p with routes := [], laid := [] }

/-- Every route of a placement laid, tile by tile in order; none when some entry has no path (R164, R396). -/
def layRoutes (s : State) (h : Nat) (l : List (Nat × Nat × Nat)) : Option State :=
  let todo := l.flatMap fun t => match blockOf (s.group h).image t.1 t.2.1 with
    | some b => (resolveRoutes l b).map fun r => (t.2.2, r)
    | none => []
  todo.foldl (fun (a : Option State) r => a.bind fun b => b.layRoute h l r.1 r.2.1 r.2.2) (some s)

/-- The routes of a placement find their paths, the group's present ones being released (R396). -/
def routable (s : State) (h : Nat) (l : List (Nat × Nat × Nat)) : Bool :=
  (((s.group h).tiles.foldl (fun (a : State) t => a.releaseRoutes t.2.2) s).layRoutes h l).isSome

end State
end Sys2Proof.Machine
end

