-- ==== Sys2Proof/Machine/System.lean ====
section
/-! DEFINITION. System instructions of the helm thread: fences, yields, traps, k registers,
invalidations, context commands, LDISC (R226, R235-R240, R278, R310, R311, R375, R376). -/

namespace Sys2Proof.Machine
namespace State

/-- A pending scrub applied to the acting thread's registers: revoked capabilities lose their tags
(R214, R261). -/
def scrubThread (s : State) (t : Nat) : State :=
  let x := s.thread t
  let cx := s.ctxOf t
  let f := fun (c : Cap) => if c.tag && s.revoked cx c then { c with tag := false } else c
  s.setThread t { x with c := x.c.map f, pcc := f x.pcc, epcc := f x.epcc, scrub := false }

/-- SYIELD (R214, R238). -/
def syield (s : State) : State :=
  let s1 := if s.th.scrub then s.scrubThread s.cur else s
  if s1.th.stopReq then s1.yield else s1.advance

/-- SLEEP for n fc (R239). -/
def sleepFor (s : State) (n : Nat) : State :=
  if s.th.stopReq then s.yield
  else if n = 0 then s.advance
  else
    let s1 := s.block .sleep true
    s1.setTh { s1.th with wakeAt := s.fc + Nat.min n (2 ^ 32 - 1) }

/-- TRAP 0 (R212, R214, R237): the thread ends, or yields at the TRAP. -/
def endThread (s : State) : State :=
  if s.th.stopReq then s.yieldThread s.cur s.th else s.haltThread s.cur

/-- The translators a broadcast for a context reaches: the axlat operators and helm units of its tiles, and
the walkers of the four base dies (R375). -/
def translators (s : State) (x : Nat) : List Translator :=
  ((s.ownedTiles x).flatMap fun p =>
    ((List.range 8).filter fun i => (s.slot p (40 + i)).st ≠ .empty && (s.slot p (40 + i)).op = 0x66).map (fun i => .axlat p (40 + i)) ++
    [.helm p 0, .helm p 1]) ++ (List.range 4).map .walker

/-- TLBINV (R375): the broadcast leaves; a context in EMPTY acknowledges at once. -/
def broadcast (s : State) (v : Word) (st2 : Bool) : State :=
  let x := if s.onCore then bits v 0 7 else s.ctx
  if (s.context x).st = 0 then s.advance
  else
    let ts := s.translators x
    let i : Inval := { id := s.ids, thread := s.cur, ctx := x, st2, all := bits v 11 1 == 1,
                       page := bits v 12 45, waiting := ts }
    let s1 : State := { s with invals := s.invals ++ [i], ids := s.ids + 1 }
    (ts.foldl (fun (a : State) r => a.post (.evTlbinvBroadcastArrive s.ids r)) s1).advance

/-- Every TLBINV of a thread is acknowledged (R376; an element's request is translated when it is
performed, so none uses a dropped translation). -/
def synced (s : State) (t : Nat) : Bool := !(s.invals.any fun i => i.thread == t)

/-- One line of an LDISC at its L2 slice (R278): one that the slice holds for the context is dropped, or marked; whether it
is still held there is a free value (log 8). -/
def ldiscLine (s : State) (p : Phys) (m : LdiscMode) : State :=
  let line := p.key / 64
  if !s.l2Holds p then s
  else if !Config.lineHeld line s.fresh then (s.evictLine line).used
  else
    (match m, find s.mem.dirty line with
      | .discard, _ => { s.dropLine line with l2 := del s.l2 line }
      | .lastuse, some h => s.setMemory { s.mem with dirty := put s.mem.dirty line { h with mark := true } }
      | .lastuse, none => s.setMemory { s.mem with dirty := put s.mem.dirty line { s.hbmLine line p.ctx with mark := true } }).used

/-- The lines of an LDISC from address a on, n of them; an error is the state in which the thread has
trapped or waits (R278). -/
def ldiscLines (s : State) (m : LdiscMode) (a : Word) : Nat → Except State State
  | 0 => .ok s
  | n + 1 =>
    if s.onCore then
      match firmwarePlace a with
      | .memory p =>
        if !s.pathOpen (stackOf s.cur) p.home then .error (s.holdHelm p) else ldiscLines (s.ldiscLine p m) m (a + 64) n
      | .register _ => ldiscLines s m (a + 64) n
      | .nowhere => .error (s.trap 4 1 a)
    else if s.touchesSieve s.ctx (bits a 0 57) 64 then ldiscLines s m (a + 64) n
    else match s.helmTranslate a Need.store with
      | .error t => .error t
      | .ok (p, s1) => ldiscLines (s1.ldiscLine p m) m (a + 64) n

/-- LDISC (R278); through a revoked capability it is discarded and recorded as a store is (R260). -/
def ldisc (s : State) (m : LdiscMode) (c : Cap) (len : Word) : State :=
  if len = 0 || 2 ^ 24 < len.toNat || len.toNat % 64 ≠ 0 then s.engarg len
  else match s.accessFault c c.lo len.toNat permStore 64 true with
    | some f => s.trapCap f c.lo
    | none =>
      if !s.onCore && s.filtered s.ctx c then
        ((s.filterReads s.ctx (stackOf s.cur) (portSource (s.helmPort s.cur) s.curGroup) c).raise
          (revokedRecord s.ctx (s.helmPort s.cur) s.curGroup 2 c.lo c false)).advance
      else match s.ldiscLines m c.lo (len.toNat / 64) with
      | .error t => t
      | .ok s1 => (s1.raiseGen s1.cur).advance

/-- Stop requests to every placed group of a context, by H (R300, R345). -/
def stopContext (s : State) (x : Nat) : State :=
  (s.placedGroups x).foldl (fun a g => a.post (.evGroupStopRequest g .hyper)) s

/-- The queues of a context change state (R316). -/
def queuesTo (s : State) (x fromSt toSt : Nat) : State :=
  { s with queues := s.queues.map fun q =>
      if q.2.bound && q.2.ctx = x && q.2.st = fromSt then (q.1, { q.2 with st := toSt }) else q }

/-- CXQUIESCE of context x (R300, R310): the code, and the state. -/
def quiesce (s : State) (x : Nat) : Nat × State :=
  let c := s.context x
  if c.st = 2 || c.st = 3 then
    (0, ((((s.spoilCopies x).setContext x { c with st := 4, drainLate := false }).queuesTo x 1 2).stopContext x).post
      (.evQuiesceComplete x))
  else (2, s)

/-- H leaves a group's hold sets; what it held may go on (R300, R339). An EVICTED group runs at its next placement. -/
def releaseHyper (s : State) (h : Nat) : State :=
  let g := s.group h
  let s1 := s.setGroup h { g with ch := { g.ch with hyper := false }, fh := { g.fh with hyper := false } }
  if g.st = .frozen then s1.post (.evFreezeRelease h) else s1.post (.evGroupResume h)

/-- A group ADMITTED while its context stood still is leased now (R327). -/
def leaseAgain (s : State) (h : Nat) : State :=
  let g := s.group h
  if g.st = .unplaced && g.kernel = .admitted then s.postOnce (.evPilotLease h) else s

/-- CXRESUME of context x (R300, R310). -/
def resumeContext (s : State) (x : Nat) : Nat × State :=
  let c := s.context x
  if c.st = 5 then
    let s1 := ((s.setContext x { c with st := 3 }).queuesTo x 2 1).post .evAdmission
    (0, (s.groupsOf x).foldl (fun (a : State) h => (a.releaseHyper h).leaseAgain h) s1)
  else (2, s)

end State

/-- FENCE (R226): every earlier access is performed when it issues (log 5); from GROUP scope upward it
is an acquire (R268, R269). -/
def execFence (c : Scope) (s : State) : Result :=
  .next ((if c.code < 3 then s else s.raiseGen s.cur).advance)

/-- SYIELD (R238). -/
def execSyield (s : State) : Result := .next s.syield

/-- TRAP (R237): code 0 ends the thread, another traps SOFT with the next instruction's address. -/
def execTrap (c : BitVec 8) (s : State) : Result :=
  .next (if c = 0 then s.endThread else s.takeTrapOf s.cur 0x10 c.toNat 0 (s.pc + 4))

/-- TRET (R237). -/
def execTret (s : State) : Result :=
  .next (if s.low then s.privilege .tret
    else if !s.th.inTrap then s.illegal .tret
    else s.trapReturn)

/-- SLEEP (R239). -/
def execSleep (a : Reg) (s : State) : Result := .next (s.sleepFor (s.g a).toNat)

/-- MFK (R240). -/
def execMfk (d : Reg) (k : KReg) (s : State) : Result :=
  .next (if s.th.priv.toNat < State.readLevel k then s.privilege (.mfk d k) else s.retire d (s.readK k))

/-- MTK (R240). -/
def execMtk (a : Reg) (k : KReg) (s : State) : Result :=
  .next (if s.th.priv.toNat < State.writeLevel k then s.privilege (.mtk a k)
    else (s.writeK k (s.g a)).advance)

/-- TLBINV of stage 1 (R375). -/
def execTlbinvStage1 (a : Reg) (s : State) : Result :=
  .next (if s.low then s.privilege (.tlbinvStage1 a) else s.broadcast (s.g a) false)

/-- TLBINV of stage 2 (R375): H only. -/
def execTlbinvStage2 (a : Reg) (s : State) : Result :=
  .next (if s.belowH then s.privilege (.tlbinvStage2 a) else s.broadcast (s.g a) true)

/-- TLBSYNC (R376). -/
def execTlbsync (s : State) : Result :=
  .next (if s.low then s.privilege .tlbsync
    else if s.synced s.cur then s.advance else s.block .tlbsync true)

/-- CXSTAT (R311). -/
def execCxstat (d a : Reg) (s : State) : Result :=
  .next (if s.belowH then s.privilege (.cxstat d a)
    else s.retire d (if bits (s.g a) 7 57 = 0 then s.contextStatus (bits (s.g a) 0 7) else 15))

/-- CXQUIESCE (R310). -/
def execCxquiesce (d a : Reg) (s : State) : Result :=
  .next (if s.belowH then s.privilege (.cxquiesce d a)
    else if bits (s.g a) 7 57 = 0 then
      let r := s.quiesce (bits (s.g a) 0 7)
      r.2.retire d (wd r.1)
    else s.retire d 1)

/-- CXRESUME (R310). -/
def execCxresume (d a : Reg) (s : State) : Result :=
  .next (if s.belowH then s.privilege (.cxresume d a)
    else if bits (s.g a) 7 57 = 0 then
      let r := s.resumeContext (bits (s.g a) 0 7)
      r.2.retire d (wd r.1)
    else s.retire d 1)

/-- LDISC (R278). -/
def execLdisc (m : LdiscMode) (a : CReg) (n : Reg) (s : State) : Result :=
  .next (s.ldisc m (s.c a) (s.g n))

/-- The entries of a list that an invalidation leaves. -/
def kept (i : Inval) (l : List XEntry) : List XEntry := l.filter fun e => !e.dropped i

/-- The drop of a TLBINV at one translator: at an axlat also the current pages of the generators bound to it (R151,
R375, R377). -/
def State.dropAt (s : State) (i : Inval) : Translator → State
  | .axlat p n => (List.range 8).foldl (fun (a : State) k =>
      let x := a.slot p (40 + k)
      let bound := (if x.run.isOpen then look 0x300 x.run.held 0x1E else x.param 0x1E 0x300) % 8 + 40 = n
      if 40 + k = n then a.setSlot p n { x with run := { x.run with cache := kept i x.run.cache } }
      else if bound then a.setSlot p (40 + k) { x with run := { x.run with pages := x.run.pages.filter fun e => !e.2.dropped i } }
      else a) s
  | .helm p u => s.setUnit p u { s.unit p u with cache := kept i (s.unit p u).cache }
  | .walker k => { s with walkers := upd [] s.walkers k fun l => l.filter fun e => !e.dropped i }

/-- TLBINV_BROADCAST_ARRIVE (R375, R376): the translator drops and acknowledges. -/
def execEvTlbinvBroadcastArrive (k : Nat) (r : Translator) (s : State) : Result :=
  .next (match s.invals.find? (·.id == k) with
    | none => s
    | some i =>
      let s1 := s.dropAt i r
      let left := i.waiting.filter (· ≠ r)
      { s1 with invals := if left.isEmpty then s1.invals.filter (·.id ≠ k)
          else s1.invals.map fun (j : Inval) => if j.id = k then { j with waiting := left } else j })

/-- FAULTQ_CONFIG (R383): a write of a context's k.FAULTQ. -/
def execEvFaultqConfig (x : Nat) (v : Word) (s : State) : Result :=
  .next (s.writeFaultq x (v &&& 0x3FFFFFFFFFFFFFFF))

end Sys2Proof.Machine
end

