-- ==== Sys2Proof/Machine/Sieve.lean ====
section
/-! DEFINITION. The Sieve: its registers, the sweep of memory, the scrub cut (R256-R262). -/

namespace Sys2Proof.Machine

/-! ## Registers (R257) -/

/-- A heap of the Sieve block: base, length and map, as its registers hold them. -/
def Sieve.heap (v : Sieve) (n : Nat) : Nat × Nat × Nat :=
  ((look 0 v.hbase n).toNat, (look 0 v.hlen n).toNat, (look 0 v.hmap n).toNat)

/-- The heaps that are present: LEN is not 0. -/
def Sieve.present (v : Sieve) : List (Nat × Nat × Nat) := ((List.range 4).map v.heap).filter fun h => h.2.1 ≠ 0

/-- The 64-bit register at an offset of the block; reserved offsets read 0 (R4, R257). -/
def Sieve.read (v : Sieve) (o : Nat) : Word :=
  if o < 0x80 then
    if o % 32 = 0 then look 0 v.hbase (o / 32)
    else if o % 32 = 8 then look 0 v.hlen (o / 32)
    else if o % 32 = 16 then look 0 v.hmap (o / 32)
    else 0
  else if o = 0x80 then wd (v.nch * 256)
  else if o = 0x88 then
    wd (v.epoch.toNat * 2 ^ 32 + b2n v.ovr * 16 + b2n v.badcfg * 8 + v.st)
  else 0

/-- A GO is valid (R258). -/
def Sieve.goValid (v : Sieve) : Bool :=
  let hs := v.present
  !hs.isEmpty &&
  (List.range hs.length).all (fun i => (List.range hs.length).all fun j =>
    let a := hs.getD i (0, 0, 0)
    let b := hs.getD j (0, 0, 0)
    (i = j || !overlap a.1 a.2.1 b.1 b.2.1) && !overlap a.2.2 (a.2.1 / 128) b.1 b.2.1) &&
  hs.all (fun h => h.1 + h.2.1 ≤ 2 ^ 57) &&
  (v.nch == 0 || (192 ≤ v.nch && v.nch ≤ 255))

namespace State

/-- A context's Sieve block set. -/
def setSieve (s : State) (x : Nat) (v : Sieve) : State := s.setContext x { s.context x with sieve := v }

/-- SCRUB set in every thread of a context, those saved with an evicted group among them (R258). -/
def markScrub (s : State) (x : Nat) : State :=
  let mark := fun (t : Nat × Thread) => (t.1, { t.2 with scrub := true })
  { s with
    threads := s.threads.map fun t => if !isCore t.1 && (s.tile (ptidOf t.1)).owner = some x then mark t else t,
    groups := s.groups.map fun g =>
      if g.2.ctx = x then
        (g.1, { g.2 with saved := g.2.saved.map fun (v : SavedTile) => { v with threads := v.threads.map mark } })
      else g }

/-- GO (R258). -/
def sieveGo (s : State) (x : Nat) : State :=
  let v := (s.context x).sieve
  if v.st = 1 || v.st = 2 then s.setSieve x { v with ovr := true }
  else if !v.goValid then s.setSieve x { v with badcfg := true }
  else
    let v1 := { v with st := 1, heaps := v.present, sweepNch := v.nch, finished := [], nextLine := [],
                       scrubbed := false, skipped := [] }
    (List.range 4).foldl (fun a k => a.post (.evSieveFinish x k)) ((s.setSieve x v1).markScrub x)

/-- A write of SV_CTL (R257): NCH, and GO. -/
def writeSieveCtl (s : State) (x : Nat) (w : Word) : State :=
  let s1 := s.setSieve x { (s.context x).sieve with nch := bits w 8 8 }
  if bits w 0 1 = 1 then s1.sieveGo x else s1

/-- A 64-bit write at an offset of the block (R257). -/
def writeSieve (s : State) (x o : Nat) (w : Word) : State :=
  let v := (s.context x).sieve
  if o < 0x80 then
    if o % 32 = 0 then s.setSieve x { v with hbase := put v.hbase (o / 32) (wd (bits w 12 45 * 2 ^ 12)) }
    else if o % 32 = 8 then s.setSieve x { v with hlen := put v.hlen (o / 32) (wd (bits w 12 46 * 2 ^ 12)) }
    else if o % 32 = 16 then s.setSieve x { v with hmap := put v.hmap (o / 32) (wd (bits w 6 51 * 2 ^ 6)) }
    else s
  else if o = 0x80 then s.writeSieveCtl x w
  else if o = 0x88 then
    s.setSieve x { v with ovr := v.ovr && bits w 4 1 = 0, badcfg := v.badcfg && bits w 3 1 = 0 }
  else s

/-! ## The memory sweep (R259) -/

/-- A page that a leaf maps, as the Sieve finds it in the tables: where it begins, the log2 of its size, what it maps to,
its home if that is fixed, and whether it grants capability stores (R259, R365). -/
structure SieveLeaf where
  lo : Nat := 0
  log : Nat := 12
  dest : Nat := 0
  fix : Option Nat := none
  cs : Bool := false
deriving DecidableEq, Repr

/-- The leaves of a stage-2 table of a level and those below it; `lo` is the first GPA it serves (R365, R366). -/
def leaves2 (s : State) (x : Nat) : Nat → Nat → Nat → List SieveLeaf
  | level, table, lo => (List.range 512).flatMap fun i =>
    let e := wd (s.valueAt (s.physOf x none (table + 8 * i) 0 false) 8)
    let a := lo + i * 2 ^ (12 + 9 * level)
    if !ebit e 0 || misconfigured true level e then []
    else if ebit e 1 then
      match level with
      | 0 => []
      | n + 1 => leaves2 s x n (frameOf e) a
    else [{ lo := a, log := leafLog level e, dest := frameOf e, fix := if ebit e 63 then some (bits e 61 2) else none,
            cs := ebit e 8 }]

/-- The stage-2 pages of a context; with EN = 0 every GPA is its PA (R368). -/
def pages2 (s : State) (x : Nat) : List SieveLeaf :=
  let root := look 0 s.s2root x
  if ebit root 0 then s.leaves2 x 3 (frameOf root) 0 else [{ log := 47, cs := true }]

/-- The leaves of a stage-1 table of a level and those below it; `lo` is the first VA it serves (R365, R366, R369). -/
def leaves1 (s : State) (x k : Nat) : Nat → Nat → Nat → List SieveLeaf
  | level, table, lo => (List.range 512).flatMap fun i =>
    match s.tableAt { ctx := x, stack := k } 0 (table + 8 * i) false with
    | .error _ => []
    | .ok (p, _) =>
      let e := wd (s.valueAt p 8)
      let a := lo + i * 2 ^ (12 + 9 * level)
      if !ebit e 0 || misconfigured false level e then []
      else if ebit e 1 then
        match level with
        | 0 => []
        | n + 1 => leaves1 s x k n (frameOf e) a
      else [{ lo := a, log := leafLog level e, dest := frameOf e, cs := ebit e 8 }]

/-- The stage-1 pages of a context; with EN = 0 every VA is its GPA (R368). -/
def pages1 (s : State) (x k : Nat) : List SieveLeaf :=
  let root := look 0 s.s1root x
  if ebit root 0 then s.leaves1 x k 4 (frameOf root) 0 else [{ log := 48, cs := true }]

/-- How many of the lines below a PA have stack k for their home, with FIX = 0: so the line of its storage where the next of
them stands (R364). -/
def linesBelow (k pa : Nat) : Nat :=
  let group := pa / 2 ^ 14 * 2 ^ 14
  let mine := group + (k ^^^ homeOf group) * 4096
  pa / 2 ^ 14 * 64 + Nat.min ((pa - mine) / 64) 64

/-- The lines of stack k's storage that a range of PAs occupies (R364). -/
def storedLines (k : Nat) (fix : Option Nat) (lo hi : Nat) : Nat × Nat :=
  match fix with
  | some h => if h = k then (lo / 64, Nat.min hi Config.stackBytes / 64) else (0, 0)
  | none => (linesBelow k lo, linesBelow k (Nat.min hi Config.deviceBytes))

/-- The lines of stack k's storage in pages of context x whose leaves grant capability stores, page by page (R259,
R367). -/
def sievePages (s : State) (x k : Nat) : List (Nat × Nat) :=
  let p2 := (s.pages2 x).filter (·.cs)
  ((s.pages1 x k).filter (·.cs)).flatMap fun a => p2.filterMap fun b =>
    let lo := Nat.max a.dest b.lo
    let hi := Nat.min (a.dest + 2 ^ a.log) (b.lo + 2 ^ b.log)
    if lo < hi && (b.dest + (lo - b.lo)) / 2 ^ 47 % 2 = 0 then
      some (storedLines k b.fix (b.dest + (lo - b.lo)) (b.dest + (hi - b.lo)))
    else none

/-- How many lines of some pages stand from line a of a stack's storage up to line b (R259). -/
def linesBetween (pages : List (Nat × Nat)) (a b : Nat) : Nat :=
  (pages.map fun r => Nat.min r.2 b - Nat.max r.1 a).sum

/-- A tagged line that the context's Sieve on stack k examines: it stands in one of the pages, and the context's keys sealed
it (R259; log 20). -/
def sieveCovers (s : State) (x k : Nat) (pages : List (Nat × Nat)) (line : Nat) : Bool :=
  lineStack line = k && pages.any (fun r => r.1 ≤ line % 2 ^ 34 && line % 2 ^ 34 < r.2) &&
  (match find s.mem.seals line with
    | some l => l.owner == (s.context x).epoch
    | none => false)

/-- The capability a granule of memory holds. -/
def granuleCap (s : State) (g : Nat) : Cap := capOfBytes (getBytes s.mem.cells (g * 16) 16) true

/-- The tagged granules of the context's beacon window on a stack's authoritative copy, with what they hold (R259). -/
def windowGranules (s : State) (x k : Nat) : List (Nat × Cap) :=
  let c := s.context x
  let b := (s.stack k).base
  (b.tags.filter fun g => c.bwoff ≤ g * 16 && g * 16 < c.bwoff + c.bwlen).map fun g =>
    (g, capOfBytes (b.read (g * 16) 16) true)

/-- The map bytes that the examination of some capabilities reads, but for those of pages whose faults were answered
ABORT (R256, R259). -/
def sieveReads (s : State) (x : Nat) (cs : List Cap) : List Nat :=
  (cs.flatMap (s.mapPlaces x)).filter fun va => !(s.context x).sieve.skipped.contains (va / 4096)

/-- A Sieve's read of a map byte: a request of the context at its stack, and the walk for it, charged there (R259, R398); an
error is the place and the reason of a walk that fails. -/
def sieveRead (s : State) (x k va : Nat) : Except (Nat × WalkFail × State) State :=
  if s.touchesSieve x va 1 then .ok s
  else match s.chargedWalk { ctx := x, stack := k } va Need.load with
    | .error (f, s1) => .error (va, f, s1)
    | .ok (e, s1) => .ok ((s1.loadLine (s1.physBy e va) 1 (wd va) (baseSource 9 k 0)).2.2.2.charge x k)

/-- A Sieve's reads of map bytes in turn. -/
def sieveMaps (s : State) (x k : Nat) : List Nat → Except (Nat × WalkFail × State) State
  | [] => .ok s
  | va :: t => match s.sieveRead x k va with
    | .error f => .error f
    | .ok s1 => sieveMaps s1 x k t

/-- The tags a dirty line's HBM contents keep when revoked ones are cleared. -/
def sweepBeneath (s : State) (x : Nat) (h : L2Line) : L2Line :=
  { h with tags := BitVec.ofNat 4 (((List.range 4).map fun i =>
      if h.tags.getLsbD i && !s.revoked x (capOfBytes ((h.bytes.drop (16 * i)).take 16) true) then 2 ^ i else 0).sum) }

/-- The tags of an L1 copy of a line with revoked ones cleared. -/
def sweepCopy (s : State) (x : Nat) (l : L1Line) : L1Line :=
  { l with tags := BitVec.ofNat 4 (((List.range 4).map fun i =>
      if l.tags.getLsbD i && !s.revoked x (capOfBytes ((l.bytes.drop (16 * i)).take 16) true) then 2 ^ i else 0).sum) }

/-- The context's line of that number examined, its revoked tags cleared: at its L2 slice, beneath it where it is dirty,
and in the copies of the L1s (R259, R262). -/
def sweepLine (s : State) (x line : Nat) : State :=
  { s.setMemory { s.mem with
      tags := s.mem.tags.filter fun g => g / 4 ≠ line || !s.revoked x (s.granuleCap g),
      dirty := s.mem.dirty.map fun l => if l.1 = line && l.2.ctx = x then (l.1, s.sweepBeneath x l.2) else l } with
    l1 := s.l1.map fun l => if l.1 / 2048 = line && l.2.ctx = x then (l.1, s.sweepCopy x l.2) else l }

/-- The lines of a context on a stack whose metadata bears a tag, in memory, beneath a dirty line or in an L1, from the
Sieve's next one on, among those it covers (R259; log 20). -/
def sweptLines (s : State) (x k : Nat) (pages : List (Nat × Nat)) : List Nat :=
  let all := s.mem.tags.map (· / 4) ++
    (s.mem.dirty.filter fun l => l.2.ctx = x && l.2.tags ≠ 0).map (·.1) ++
    (s.l1.filter fun l => l.2.ctx = x && l.2.tags ≠ 0).map (·.1 / 2048)
  sortBy (fun a b => a ≤ b)
    (all.filter fun l => look 0 (s.context x).sieve.nextLine k ≤ l % 2 ^ 34 && s.sieveCovers x k pages l)

/-- What a line's examination decodes: its tagged granules, beneath it and in the copies too. -/
def lineCaps (s : State) (x line : Nat) : List Cap :=
  let of := fun (bs : List Byte) (tags : BitVec 4) =>
    ((List.range 4).filter tags.getLsbD).map fun i => capOfBytes ((bs.drop (16 * i)).take 16) true
  ((s.mem.tags.filter fun g => g / 4 = line).map s.granuleCap) ++
  (s.mem.dirty.filter fun l => l.1 = line && l.2.ctx = x).flatMap (fun l => of l.2.bytes l.2.tags) ++
  (s.l1.filter fun l => l.1 / 2048 = line && l.2.ctx = x).flatMap fun l => of l.2.bytes l.2.tags

/-- The clears of the revoked granules of the context's beacon window on a stack: in the authoritative copy at once, in the
layers' copies in their slots (R259, R282). -/
def sweepWindow (s : State) (x k : Nat) : State :=
  let bad := (s.windowGranules x k).filter fun g => s.revoked x g.2
  if bad.isEmpty then s
  else
    let y := s.stack k
    (s.setStack k { y with base := bad.foldl (fun b g => b.clearTag g.1) y.base, clears := y.clears ++ bad }).postOnce
      (.evBeaconFrame k)

/-! ## The scrub cut (R261) -/

/-- A tagged capability beat of a run of beats that is revoked. Its CAPHI follows it, or is `after` it where the producer still
holds it; one whose CAPHI neither shows is taken as revoked (R261; log 21). -/
def scrubBeats {α : Type} (rev : Cap → Bool) (beat : α → Beat) (with_ : α → Beat → α)
    (same : α → α → Bool) (after : α → Option Beat) : List α → List α
  | [] => []
  | a :: t =>
    let b := beat a
    let hi := match t.find? fun o => same a o && (beat o).kind = .caphi with
      | some o => some (beat o)
      | none => after a
    let gone := b.tag && b.kind = .caplo && (match hi with
      | some o => rev { lo := b.data, hi := o.data, tag := true }
      | none => true)
    (if gone then with_ a { b with tag := false } else a) :: scrubBeats rev beat with_ same after t

/-- Plain beats scrubbed. -/
def scrubPlain (rev : Cap → Bool) (l : List Beat) : List Beat :=
  scrubBeats rev (fun (b : Beat) => b) (fun _ b => b) (fun _ _ => true) (fun _ => none) l
/-- The beats of a port or channel scrubbed, where `after` is the next CAPHI that comes to it. -/
def scrubArrived (rev : Cap → Bool) (after : Option Beat) (l : List Arrived) : List Arrived :=
  scrubBeats rev (fun (a : Arrived) => a.beat) (fun a b => { a with beat := b }) (fun _ _ => true) (fun _ => after) l

/-- A capability whose tag is cleared if it is revoked. -/
def scrubCap (rev : Cap → Bool) (c : Cap) : Cap := if c.tag && rev c then { c with tag := false } else c

/-- A generator's request scrubbed: the capability that authorises it, the one it stores, and its reply. -/
def scrubReq (rev : Cap → Bool) (q : Req) : Req :=
  { q with cap := scrubCap rev q.cap, tag := q.tag && !rev { lo := q.data, hi := q.data2, tag := true },
           reply := q.reply.map (scrubPlain rev) }

/-- The first CAPHI that the elements of a tile still hold for a consumer field. -/
def capHiFor (t : Tile) (dest : Nat) : Option Beat :=
  ((t.slots.flatMap fun q => q.2.out ++ q.2.pipe.map fun i => (i.dest, i.beat)).find? fun o =>
    o.1.toNat = dest && o.2.kind = .caphi).map (·.2)

/-- Slot n of a tile scrubbed: held capability, port beats, held beats, requests, results (R261). -/
def scrubSlot (rev : Cap → Bool) (t : Tile) (n : Nat) (x : Slot) : Slot :=
  let r := x.run
  { x with
    portA := scrubArrived rev (capHiFor t (n * 8)) x.portA, portB := scrubArrived rev (capHiFor t (n * 8 + 1)) x.portB,
    portC := scrubArrived rev (capHiFor t (n * 8 + 2)) x.portC, portP := scrubArrived rev (capHiFor t (n * 8 + 3)) x.portP,
    pipe := scrubBeats rev (fun (i : Issued) => i.beat) (fun i b => { i with beat := b }) (fun a b => a.dest = b.dest)
      (fun _ => none) x.pipe,
    out := scrubBeats rev (fun (o : BitVec 9 × Beat) => o.2) (fun o b => (o.1, b)) (fun a b => a.1 = b.1)
      (fun o => (x.pipe.find? fun i => i.dest = o.1 && i.beat.kind = .caphi).map (·.beat)) x.out,
    run := { r with cap := scrubCap rev r.cap, beats := scrubPlain rev r.beats, beatsB := scrubPlain rev r.beatsB,
                    beatsC := scrubPlain rev r.beatsC, reqs := r.reqs.map (scrubReq rev),
                    lookups := scrubPlain rev r.lookups,
                    command := r.command.map fun b => ((scrubPlain rev [b]).headD b) } }

/-- A bank of a tile of context x scrubbed: the tagged granules of its rows, but for rows that another context still owns
(R261, R306). -/
def scrubBank (rev : Cap → Bool) (x : Nat) (b : Bank) : Bank :=
  { b with tags := b.tags.filter fun g =>
      (match find b.owners (g / 4) with
        | some y => y != x
        | none => false) || !rev (capOfBytes (getBytes b.cells (g * 16) 16) true) }

/-- The rows of a bank that a context left in place, scrubbed (R261, R306). -/
def scrubRows (rev : Cap → Bool) (x : Nat) (b : Bank) : Bank :=
  { b with tags := b.tags.filter fun g => find b.owners (g / 4) ≠ some x || !rev (capOfBytes (getBytes b.cells (g * 16) 16) true) }

/-- A helm unit's stream queues and the capabilities of its broadcasts scrubbed. -/
def scrubUnit (rev : Cap → Bool) (u : Unit) : Unit :=
  { u with outq := u.outq.map fun q => (q.1, scrubPlain rev q.2), inq := u.inq.map fun q => (q.1, scrubPlain rev q.2),
           bcst := u.bcst.map fun b => { b with cap := scrubCap rev b.cap } }

/-- The state of a tile of context x scrubbed (R261). -/
def scrubTile (rev : Cap → Bool) (x : Nat) (t : Tile) : Tile :=
  { t with
    slots := t.slots.map fun q => (q.1, scrubSlot rev t q.1 q.2),
    banks := t.banks.map fun q => (q.1, scrubBank rev x q.2),
    unit0 := scrubUnit rev t.unit0, unit1 := scrubUnit rev t.unit1,
    inch := t.inch.map fun q => (q.1, scrubArrived rev none q.2),
    edgeHeld := t.edgeHeld.map fun q => (q.1, ((scrubArrived rev none [q.2]).headD q.2)) }

/-- A thread's registers scrubbed (R261). -/
def scrubRegs (rev : Cap → Bool) (x : Thread) : Thread :=
  { x with c := x.c.map (scrubCap rev), pcc := scrubCap rev x.pcc, epcc := scrubCap rev x.epcc, scrub := false }

/-- A saved tile scrubbed. -/
def scrubSaved (rev : Cap → Bool) (x : Nat) (t : SavedTile) : SavedTile :=
  { t with tile := scrubTile rev x t.tile, threads := t.threads.map fun q => (q.1, scrubRegs rev q.2) }

/-- A broadcast row that waits, scrubbed (R261). -/
def scrubPayload (rev : Cap → Bool) (y : Payload) : Payload :=
  { y with tags := BitVec.ofNat 4 (((List.range 4).map fun i =>
      if y.tags.getLsbD i && !rev (capOfBytes ((y.bytes.drop (16 * i)).take 16) true) then 2 ^ i else 0).sum) }

/-- The state of one group scrubbed: standing tiles, their threads, saved tiles, and those of its snapshot (R261, R262). -/
def scrubGroup (s : State) (x h : Nat) : State :=
  let rev := s.revoked x
  let ps := (s.group h).tiles.map (·.2.2)
  let s1 : State := { s with
    tiles := s.tiles.map fun t => if ps.contains t.1 then (t.1, scrubTile rev x t.2) else t,
    threads := s.threads.map fun t =>
      if !isCore t.1 && ps.contains (ptidOf t.1) then (t.1, scrubRegs rev t.2) else t }
  let g := s1.group h
  s1.setGroup h { g with
    saved := g.saved.map (scrubSaved rev x),
    payloads := g.payloads.map (scrubPayload rev),
    snap := g.snap.map fun v => { v with tiles := v.tiles.map (scrubSaved rev x),
                                         payloads := v.payloads.map (scrubPayload rev) } }

/-- What a context's state holds outside its groups scrubbed: its tiles, the rows it left in place, its threads, and its
broadcasts that wait (R261, R262). -/
def scrubContext (s : State) (x : Nat) : State :=
  let rev := s.revoked x
  let mine := fun (p : Nat) => (s.tile p).owner = some x
  { s with
    tiles := s.tiles.map fun t =>
      if mine t.1 then (t.1, scrubTile rev x t.2)
      else (t.1, { t.2 with banks := t.2.banks.map fun b => (b.1, scrubRows rev x b.2) }),
    threads := s.threads.map fun t => if !isCore t.1 && mine (ptidOf t.1) then (t.1, scrubRegs rev t.2) else t,
    groups := s.groups.map fun g =>
      if g.2.ctx = x then (g.1, { g.2 with payloads := g.2.payloads.map (scrubPayload rev) }) else g,
    layers := s.layers.map fun l => (l.1, { l.2 with
      queue := l.2.queue.map fun y => if y.ctx = x then scrubPayload rev y else y }) }

/-- A group that the scrub cut must stop and has not stopped yet. -/
def scrubWaits (g : Group) : Bool :=
  g.st = .armed || g.st = .firing || g.st = .gated || g.st = .cutting || g.st = .moving

/-- PILOT leaves a group's hold sets; the group goes on if none is left (R339). -/
def releasePilot (s : State) (h : Nat) : State :=
  let g := s.group h
  if g.ch.pilot || g.fh.pilot then
    (s.setGroup h { g with ch := { g.ch with pilot := false }, fh := { g.fh with pilot := false } }).post
      (if g.st = .frozen then .evFreezeRelease h else .evGroupResume h)
  else s

/-- The groups that the scrub cut must still stop are asked to (R258, R261). -/
def askStops (s : State) (x : Nat) : State :=
  ((s.groupsOf x).filter fun h =>
    let g := s.group h
    (scrubWaits g || g.st = .cut) && !g.ch.pilot && g.st ≠ .moving).foldl
    (fun (a : State) h => a.postOnce (.evGroupStopRequest h .pilot)) s

/-- The scrub cut stands: every group is scrubbed and those it stopped go on (R261). -/
def scrubWhenCut (s : State) (x : Nat) : State :=
  let v := (s.context x).sieve
  let hs := s.groupsOf x
  if v.st ≠ 2 || v.scrubbed || hs.any (fun h => scrubWaits (s.group h)) then s
  else
    let s1 := hs.foldl (fun a h => a.scrubGroup x h) (s.scrubContext x)
    let s2 := s1.setSieve x { (s1.context x).sieve with scrubbed := true, cutId := s1.ids }
    ((hs.filter fun h => let g := s2.group h
      (g.st = .cut || g.st = .frozen) && !g.snapDue && !g.commands.any (·.begun)).foldl releasePilot s2).postOnce (.evSweepDone x)

/-- The last Sieve has finished: the scrub cut is requested (R258). -/
def requestScrub (s : State) (x : Nat) : State :=
  let s1 := s.setSieve x { (s.context x).sieve with st := 2 }
  ((s1.askStops x).scrubWhenCut x).postOnce (.evSweepDone x)

/-- A page fault of a Sieve's map read: its record (R259, R381). -/
def sieveStop (x k : Nat) (f : Nat × WalkFail × State) : State :=
  f.2.2.raise (pageRecord { src := 9, place := basePlace k, ctx := some x, raiser := .sieve x k (f.1 / 4096) } (wd f.1) f.2.1)

/-- Metadata reads of a Sieve charged together at its limiter: C falls by their number (R259, R398). -/
def chargeReads (s : State) (x k n : Nat) : State :=
  let p := (s.context x).part
  if 128 ≤ x || (s.part p).rate = 0 then s else s.setCredit p k (s.creditNow p k - 1024 * n)

/-- A Sieve has examined its lines below `next`: their metadata reads are charged, and it goes on there. -/
def sievePass (s : State) (x k next : Nat) (pages : List (Nat × Nat)) : State :=
  let v := (s.context x).sieve
  let s1 := s.chargeReads x k (linesBetween pages (look 0 v.nextLine k) next)
  s1.setSieve x { (s1.context x).sieve with nextLine := put v.nextLine k next }

/-- A stack's Sieve goes to its next tagged line, past the lines without a tag, and examines it; after the last line the
beacon window, and it has finished. Each read is a request, charged at the stack's limiter and held by it (R258, R259,
R398). -/
def sieveStack (s : State) (x k : Nat) : State :=
  let v := (s.context x).sieve
  if v.st ≠ 1 || v.finished.contains k then s
  else if s.limited x k then s.holdEvent x k (.evSieveFinish x k)
  else
    let pages := s.sievePages x k
    match s.sweptLines x k pages with
    | line :: _ => match s.sieveMaps x k (s.sieveReads x (s.lineCaps x line)) with
      | .error f => sieveStop x k f
      | .ok s1 => ((s1.sweepLine x line).sievePass x k (line % 2 ^ 34 + 1) pages).post (.evSieveFinish x k)
    | [] => match s.sieveMaps x k (s.sieveReads x ((s.windowGranules x k).map (·.2))) with
      | .error f => sieveStop x k f
      | .ok s0 =>
        let s1 := (s0.sievePass x k (2 ^ 34) pages).sweepWindow x k
        let fin := insertNat k v.finished
        let s2 := s1.setSieve x { (s1.context x).sieve with finished := fin }
        if fin.length = 4 then s2.requestScrub x else s2

/-- The sweep is done once the scrub cut has stood and gone on, its engine requests and its beacon clears are over (R258,
R262): the check goes off, EPOCH rises, the message is sent. -/
def sweepDone (s : State) (x : Nat) : State :=
  let v := (s.context x).sieve
  if v.st ≠ 2 then s
  else if !v.scrubbed then ((s.askStops x).scrubWhenCut x).postOnce (.evSweepDone x)
  else if (s.engines.any fun e => e.ctx = x && e.id < v.cutId) ||
      (List.range 4).any (fun k => (s.stack k).clears.any fun g =>
        (s.context x).bwoff ≤ g.1 * 16 && g.1 * 16 < (s.context x).bwoff + (s.context x).bwlen) ||
      (s.groupsOf x).any (fun h => (s.group h).ch.pilot && (s.group h).st = .cut && !(s.group h).snapDue) then
    s.post (.evSweepDone x)
  else
    let epoch := v.epoch + 1
    let s1 := s.setSieve x { v with st := 3, epoch, heaps := [] }
    if v.sweepNch = 0 then s1 else s1.sendHeld (.package x v.sweepNch) (wd epoch.toNat)

/-- A sweep abandoned when its context enters ERROR or RETIRED (R258). -/
def abandonSweep (s : State) (x : Nat) : State :=
  let v := (s.context x).sieve
  if v.st = 0 then s else s.setSieve x { v with st := 0, heaps := [], finished := [], scrubbed := false }

end State

/-- SIEVE_GO (R257, R258): SV_CTL of context x is written. -/
def execEvSieveGo (x : Nat) (v : Word) (s : State) : Result := .next (s.writeSieveCtl x v)

/-- SIEVE_FINISH (R258, R259): stack k's Sieve has examined its lines; after the last of the four the scrub
cut is requested. -/
def execEvSieveFinish (x k : Nat) (s : State) : Result := .next (s.sieveStack x k)

/-- SWEEP_DONE (R258, R262). -/
def execEvSweepDone (x : Nat) (s : State) : Result := .next (s.sweepDone x)

end Sys2Proof.Machine
end

