-- ==== Sys2Proof/Machine/Placement.lean ====
section
/-! DEFINITION. Places of a group: the search for one, Charts, saving a tile's state and putting it on
another, spilling rows (R306, R340-R342, R345, R349, R350, R427). -/

namespace Sys2Proof.Machine

/-! ## Tiles that a placement may use (R340) -/

/-- The PTID of a compute tile (R16, R17, R19). -/
def isComputeTile (p : Nat) : Bool := p < 2048 && 1 ≤ p % 8 && p % 8 ≤ 6 && 1 ≤ p / 8 % 8 && p / 8 % 8 ≤ 4

/-- The PTIDs of a layer's port tiles, ascending (R16, R430). -/
def portTilesOf (l : Nat) : List Nat :=
  ((List.range 48).map fun i => l * 64 + i / 8 * 8 + i % 8).filter fun p =>
    !isComputeTile p && !((p % 8 = 0 || p % 8 = 7) && (p / 8 % 8 = 0 || p / 8 % 8 = 5))

/-- The slots a block's words configure with an operation, with their regions by the block's SCHED words
(R57, R99). -/
def Block.regions (b : Block) : List Nat :=
  (List.range b.words.length).filterMap fun i =>
    if b.words.getD i 0xFF03FFFF = 0xFF03FFFF then none
    else some ((b.params.foldl (fun r p => if p.1 = i && bits p.2 56 8 = 0 then bits p.2 12 8 else r) 0))

/-- Whether a column boundary at c, or a row boundary, cuts a region's box (R340). -/
def Image.crossed (m : Image) (byRow : Bool) (c : Nat) : Bool :=
  let pairs := m.blocks.flatMap fun b => b.regions.flatMap fun r => b.tiles.map fun t => (r, if byRow then t.2 else t.1)
  pairs.any fun a => a.2 < c && pairs.any fun b => b.1 = a.1 && c ≤ b.2

/-- A part of a rectangle: first column and row, width and height. -/
structure Part where
  c : Nat
  r : Nat
  w : Nat
  h : Nat
deriving DecidableEq, Repr

/-- The logical tiles of a part. -/
def Part.cells (a : Part) : List (Nat × Nat) :=
  (List.range a.h).flatMap fun j => (List.range a.w).map fun i => (a.c + i, a.r + j)

/-- The tile of a logical tile when the part's first one stands at o (R340). -/
def Part.at (a : Part) (o : Nat) (t : Nat × Nat) : Nat := o + (t.1 - a.c) + 8 * (t.2 - a.r)

/-- The part keeps within one layer's compute tiles at o (R340). -/
def Part.fitsAt (a : Part) (o : Nat) : Bool :=
  isComputeTile o && o % 8 + a.w ≤ 7 && o / 8 % 8 + a.h ≤ 5

namespace State

/-- A tile is leased to a move or placement of a group other than h (R349). -/
def leasedAway (s : State) (h p : Nat) : Bool :=
  s.groups.any fun g => g.1 ≠ h && g.2.commands.any fun c => c.place.any (·.2.2 = p)

/-- A tile that group h of context x may use (R340): enabled, owned, free of another placed group and not leased to one,
on a ready layer that is AWAKE (R349, R429, R433). -/
def tileFree (s : State) (h x p : Nat) : Bool :=
  isComputeTile p && !s.dis.contains p && (s.tile p).owner = some x && !s.leasedAway h p &&
  ((s.tile p).group.isNone || (s.tile p).group = some h) &&
  (s.layer (layerOfTile p)).ready && (s.layer (layerOfTile p)).bstate = 0

/-- A part placed contiguously at o, on a layer of its own, if it may be. -/
def placeAt (s : State) (h x : Nat) (taken : List Nat) (a : Part) (o : Nat) : Option (List (Nat × Nat × Nat)) :=
  let l := a.cells.map fun t => (t.1, t.2, a.at o t)
  if a.fitsAt o && !(taken.any fun p => layerOfTile p = layerOfTile o) && l.all fun t => s.tileFree h x t.2.2 then some l
  else none

/-- The first contiguous place of a part, by ascending PTID (R340). -/
def placeFirst (s : State) (h x : Nat) (taken : List Nat) (a : Part) : Option (List (Nat × Nat × Nat)) :=
  (List.range 2048).findSome? fun o => s.placeAt h x taken a o

/-- The two parts on either side of a boundary. -/
def splitPart (a : Part) (byRow : Bool) (c : Nat) : Part × Part :=
  if byRow then ({ a with h := c - a.r }, { a with r := c, h := a.r + a.h - c })
  else ({ a with w := c - a.c }, { a with c := c, w := a.c + a.w - c })

/-- Two lists taken in turn, the first one's member before the second's. -/
def inTurn : List (Bool × Nat) → List (Bool × Nat) → List (Bool × Nat)
  | x :: t, y :: u => x :: y :: inTurn t u
  | l, [] => l
  | [], l => l

/-- The boundaries that may divide a part: of those that no region crosses the lowest column, then the lowest row, and so
on (R340). -/
def boundaries (m : Image) (a : Part) : List (Bool × Nat) :=
  let free := fun (byRow : Bool) (from_ n : Nat) =>
    (((List.range (n - 1)).map fun i => from_ + i + 1).filter fun c => !m.crossed byRow c).map fun c => (byRow, c)
  inTurn (free false a.c a.w) (free true a.r a.h)

/-- The Pilot's search with at most n divisions one within another (R340). -/
def searchDeep (s : State) (h x : Nat) (m : Image) : Nat → List Nat → Part → Option (List (Nat × Nat × Nat))
  | 0, taken, a => s.placeFirst h x taken a
  | n + 1, taken, a =>
    match s.placeFirst h x taken a with
    | some l => some l
    | none => (boundaries m a).findSome? fun b =>
      let ab := splitPart a b.1 b.2
      match searchDeep s h x m n taken ab.1 with
      | none => none
      | some l => (searchDeep s h x m n (taken ++ l.map (·.2.2)) ab.2).map fun r => l ++ r

/-- The Pilot's search (R340): contiguous, else divided no further than a fit requires. -/
def search (s : State) (h x : Nat) (m : Image) (a : Part) : Option (List (Nat × Nat × Nat)) :=
  (List.range (a.w + a.h)).findSome? fun n => s.searchDeep h x m n [] a

/-- A placement of a group: at ORIGIN, or under ANY where the Pilot finds one, with a path for every route (R340, R352,
R396). -/
def findPlace (s : State) (h : Nat) (word : Word) : Option (List (Nat × Nat × Nat)) :=
  let g := s.group h
  let m := g.image
  let a : Part := { c := 0, r := 0, w := m.cols, h := m.rows }
  (if bits word 14 1 = 1 then s.search h g.ctx m a else s.placeAt h g.ctx [] a (bits word 0 11)).filter
    fun l => s.routable h l

/-- How the Chart writes of a chosen placement end (R31, R342, R349, R353): 4 where a tile's owner tag refuses one, 5
where a tile no longer satisfies R340, else 0. -/
def planCode (s : State) (h : Nat) (l : List (Nat × Nat × Nat)) : Nat :=
  let x := (s.group h).ctx
  if l.any fun t => (s.tile t.2.2).owner ≠ some x then 4
  else if (l.all fun t => s.tileFree h x t.2.2) && s.routable h l then 0 else 5

/-- The tile that stands for logical (0, 0). -/
def originOf (l : List (Nat × Nat × Nat)) : Nat :=
  ((l.find? fun t => t.1 = 0 && t.2.1 = 0).map (·.2.2)).getD 0

/-- A placement is straddled: some tile does not stand where a contiguous one would (R340). -/
def straddled (l : List (Nat × Nat × Nat)) : Bool :=
  l.any fun t => t.2.2 ≠ originOf l + t.1 + 8 * t.2.1

/-! ## Charts (R342) -/

/-- The port tiles of the stream ports on every layer of a placement: each a ready one of the layer, or, while
none is, any, at which requests wait; the choice is a free value (R342, R429; log 40). -/
def choosePorts (s : State) (l : List (Nat × Nat × Nat)) : State × Table Nat :=
  ((l.map fun t => layerOfTile t.2.2).eraseDups).foldl (fun (a : State × Table Nat) y =>
    (List.range 16).foldl (fun (b : State × Table Nat) q =>
      let up := (b.1.layer y).ports
      let ready := if up.isEmpty then portTilesOf y else up
      (b.1.used, put b.2 (y * 16 + q) (ready.getD (b.1.free.toNat % ready.length) 0))) a) (s, [])

/-- The Chart of a placed group written: tiles, ports, routes (R342). -/
def writeChart (s : State) (h : Nat) (l : List (Nat × Nat × Nat)) : State :=
  let r := s.choosePorts l
  let g := r.1.group h
  let s1 := r.1.setGroup h { g with tiles := l, origin := originOf l, straddle := straddled l, ports := r.2 }
  let s2 := l.foldl (fun (a : State) t =>
    a.setTile t.2.2 { a.tile t.2.2 with group := some h, col := t.1, row := t.2.1, routes := [], laid := [] }) s1
  (s2.layRoutes h l).getD s2

/-! ## Rows left by others (R306, R350) -/

/-- A tile's rows of another evicted group of the context are spilled before a group of it uses the tile (R340, R350). -/
def clearRows (s : State) (h p : Nat) : State :=
  let x := (s.group h).ctx
  match find (s.tile p).rowsOf x with
  | none => s
  | some o =>
    let rows := (List.range 8).flatMap fun i => ((s.bank p i).owners.filter fun r => r.2 = x).map fun r => (i, r.1)
    let s1 := if (s.group o).st = .evicted then rows.foldl (fun (a : State) r => a.spillRow p r.1 r.2 x) s else s
    s1.setTile p { s1.tile p with rowsOf := del (s1.tile p).rowsOf x }

end State

/-- The rows of a bank that hold anything. -/
def usedRows (b : Bank) : List Nat :=
  ((b.cells.map fun (c : Nat × Byte) => c.1 / 64) ++ (b.tags.map fun g => g / 4) ++ (b.poison.map fun k => k / 16)).eraseDups

/-- The rows of a bank that a predicate holds of. -/
def Bank.keepRows (b : Bank) (f : Nat → Bool) : Bank :=
  { cells := b.cells.filter fun c => f (c.1 / 64), tags := b.tags.filter fun g => f (g / 4),
    poison := b.poison.filter fun k => f (k / 16), owners := b.owners.filter fun r => f r.1 }

/-- A row of a tile of context x that another context left there (R306). -/
def Bank.foreign (b : Bank) (x row : Nat) : Bool := match find b.owners row with
  | some y => y != x
  | none => false

/-- The banks of a tile of context x with its own rows, unmarked (R306). -/
def ownBanks (x : Nat) (l : Table Bank) : Table Bank :=
  l.map fun b => (b.1, { b.2.keepRows fun r => !b.2.foreign x r with owners := [] })

/-- The banks of a tile with the rows that other contexts than x left there (R306). -/
def foreignBanks (x : Nat) (l : Table Bank) : Table Bank := l.map fun b => (b.1, b.2.keepRows (b.2.foreign x))

/-- The rows that bear the mark of context x. -/
def markedBanks (x : Nat) (l : Table Bank) : Table Bank :=
  l.map fun b => (b.1, { b.2.keepRows fun r => find b.2.owners r = some x with owners := [] })

/-- The rows that do not. -/
def unmarkedBanks (x : Nat) (l : Table Bank) : Table Bank :=
  l.map fun b => (b.1, b.2.keepRows fun r => find b.2.owners r ≠ some x)

namespace State

/-- The rows of a tile marked with their owner's context (R306). -/
def markRows (s : State) (p x : Nat) : State :=
  (List.range 8).foldl (fun (a : State) i =>
    let b := a.bank p i
    a.setBank p i { b with owners := (usedRows b).foldl (fun t r => if (find t r).isSome then t else put t r x) b.owners }) s

/-- A row of a bank put on a tile as it stands (R349, R350). -/
def putRow (s : State) (p i row : Nat) (b : Bank) : State :=
  let s1 := s.ownRow p i row
  let o := s1.bank p i
  let c := o.keepRows (· ≠ row)
  s1.setBank p i { c with
    cells := setBytes c.cells (row * 64) (getBytes b.cells (row * 64) 64),
    tags := (b.tags.filter (· / 4 = row)).foldl (fun l g => insertNat g l) c.tags,
    poison := (b.poison.filter (· / 16 = row)).foldl (fun l g => insertNat g l) c.poison }

/-- The rows of a group's banks put on a tile, where what other owners left is spilled (R306, R349, R350). -/
def putRows (s : State) (p : Nat) (l : Table Bank) : State :=
  l.foldl (fun (a : State) b => (usedRows b.2).foldl (fun (c : State) r => c.putRow p b.1 r b.2) a) s

/-! ## A tile's state saved and put back (R345, R349, R350) -/

/-- What a tile keeps when its group leaves: owner tag, permit bits, rows, counters. -/
def bareTile (t : Tile) (banks : Table Bank) : Tile :=
  { owner := t.owner, permit := t.permit, banks, meshErr := t.meshErr, govStall := t.govStall,
    rowsOf := t.rowsOf }

/-- A logical tile's state taken from tile p. -/
def saveTile (s : State) (c r p : Nat) : SavedTile :=
  { col := c, row := r, tile := { s.tile p with banks := ownBanks (((s.tile p).owner).getD 0) (s.tile p).banks },
    threads := (List.range 8).filterMap fun i => (find s.threads (p * 8 + i)).map fun x => (i, x),
    chans := s.chans.filterMap fun e => match e.1 with
      | .tile q n => if q = p then some (n, e.2) else none
      | _ => none,
    homes := s.homes.filterMap fun e => match e.1 with
      | .tile q b => if q = p then some (b, e.2) else none
      | _ => none }

/-- A tile left by its group: its slots are EMPTY, its threads IDLE, its channels and barriers gone (R98,
R212). -/
def dropTile (s : State) (p : Nat) (banks : Table Bank) : State :=
  let s0 := s.releaseRoutes p
  let s1 := s0.setTile p (bareTile (s0.tile p) banks)
  { s1 with
    threads := s1.threads.filter fun t => isCore t.1 || ptidOf t.1 ≠ p,
    chans := s1.chans.filter fun e => match e.1 with
      | .tile q _ => q ≠ p
      | _ => true,
    homes := s1.homes.filter fun e => match e.1 with
      | .tile q _ => q ≠ p
      | _ => true }

/-- A thread's wait on a channel of its tile, when it stands on tile p. -/
def waitAt (p : Nat) : Wait → Wait
  | .chanFree (.tile _ n) => .chanFree (.tile p n)
  | .chanMsg (.tile _ n) => .chanMsg (.tile p n)
  | w => w

/-- A channel whose held responses are for threads of tile p. -/
def chanAtTile (p : Nat) (c : Chan) : Chan :=
  { c with held := c.held.map fun (m : HeldMsg) => { m with thread := m.thread.map fun t => p * 8 + t % 8 } }

/-- A saved logical tile put on tile p of group h: the rows of other owners stay until they are touched, its own ones take
their places (R306, R349, R350). -/
def putTile (s : State) (h p : Nat) (v : SavedTile) : State :=
  let t := s.tile p
  let x := (s.group h).ctx
  let s1 := s.setTile p { v.tile with
    owner := t.owner, permit := t.permit, meshErr := t.meshErr, govStall := t.govStall,
    group := some h, col := v.col, row := v.row, banks := foreignBanks x t.banks, rowsOf := t.rowsOf, away := [] }
  let s2 := s1.putRows p v.tile.banks
  let s3 := s2.setTile p { s2.tile p with away := v.tile.away }
  let s4 := v.threads.foldl (fun (a : State) e => a.setThread (p * 8 + e.1) { e.2 with wait := waitAt p e.2.wait }) s3
  let s5 := v.chans.foldl (fun (a : State) e => a.setChan (.tile p e.1) (chanAtTile p e.2)) s4
  v.homes.foldl (fun (a : State) e => a.setHome (.tile p e.1) e.2) s5

/-- A thread's key when tiles are renamed. -/
def renameThread (f : Nat → Nat) (t : Nat) : Nat := if isCore t then t else f (t / 8) * 8 + t % 8

/-- A record's raiser when tiles are renamed. -/
def renameRaiser (f : Nat → Nat) : Raiser → Raiser
  | .gen p n => .gen (f p) n
  | .thread t => .thread (renameThread f t)
  | r => r

/-- A record of group h when its tiles are renamed. -/
def renameRecord (h : Nat) (f : Nat → Nat) (r : Record) : Record :=
  if r.group = wd h then { r with raiser := renameRaiser f r.raiser } else r

/-- A message on its way to a barrier's home when tiles are renamed. -/
def renameMsg (f : Nat → Nat) : HomeMsg → HomeMsg
  | .arrival p c => .arrival (f p) c
  | .init p e => .init (f p) e

/-- A channel when tiles are renamed. -/
def renameChan (f : Nat → Nat) : ChanId → ChanId
  | .tile p n => .tile (f p) n
  | c => c

/-- A translator when tiles are renamed. -/
def renameTranslator (f : Nat → Nat) : Translator → Translator
  | .axlat p n => .axlat (f p) n
  | .helm p u => .helm (f p) u
  | .walker k => .walker k

/-- A coming turn when tiles are renamed; the turns of elements come anew (`repost`). -/
def renameTurn (f : Nat → Nat) : Turn → Turn
  | .event (.evLastBeatTokenArrive p k n) => .event (.evLastBeatTokenArrive (f p) k n)
  | .event (.evBarrierArrivalSend p b) => .event (.evBarrierArrivalSend (f p) b)
  | .event (.evBarrierCompletionApply p b) => .event (.evBarrierCompletionApply (f p) b)
  | .event (.evBarrierInitReply p b) => .event (.evBarrierInitReply (f p) b)
  | .event (.evBcstRowRead p u) => .event (.evBcstRowRead (f p) u)
  | .event (.evHeldMessageEnter c) => .event (.evHeldMessageEnter (renameChan f c))
  | .event (.evTlbinvBroadcastArrive k r) => .event (.evTlbinvBroadcastArrive k (renameTranslator f r))
  | t => t

/-- The fault records of a group name the new places of what raised them (R349, R387). -/
def renameRecords (s : State) (h : Nat) (f : Nat → Nat) : State :=
  { s with
    raised := s.raised.map (renameRecord h f),
    walks := s.walks.map fun (w : PendingWalk) => { w with rec_ := renameRecord h f w.rec_ },
    contexts := s.contexts.map fun c =>
      (c.1, { c.2 with fq := { c.2.fq with slots := c.2.fq.slots.map fun r => (r.1, renameRecord h f r.2) } }),
    ring := { s.ring with slots := s.ring.slots.map fun r => (r.1, renameRecord h f r.2) },
    groups := s.groups.map fun g =>
      (g.1, { g.2 with actions := g.2.actions.map fun a => (renameRecord h f a.1, a.2) }) }

/-- The engine requests of a group name the new places of their threads. -/
def renameEngines (s : State) (h : Nat) (f : Nat → Nat) : State :=
  { s with engines := s.engines.map fun (e : EngReq) =>
      if e.gh = h && !isCore e.thread then { e with thread := renameThread f e.thread, place := f e.place } else e }

/-- Payloads name the new places of their threads. -/
def renamePayload (f : Nat → Nat) (y : Payload) : Payload := { y with thread := renameThread f y.thread }

/-- Everything that names a moved tile of group h or one of its threads names its new place (R349). -/
def renameTiles (s0 : State) (h : Nat) (f : Nat → Nat) : State :=
  let s := (s0.renameRecords h f).renameEngines h f
  { s with
    now := s.now.map (renameTurn f),
    agenda := s.agenda.map (renameTurn f),
    invals := s.invals.map fun (i : Inval) =>
      { i with thread := renameThread f i.thread, waiting := i.waiting.map (renameTranslator f) },
    groups := s.groups.map fun g => (g.1, { g.2 with
      commands := g.2.commands.map fun (c : GCommand) => { c with thread := renameThread f c.thread },
      payloads := if g.1 = h then g.2.payloads.map (renamePayload f) else g.2.payloads }),
    layers := s.layers.map fun l => (l.1, { l.2 with queue := l.2.queue.map (renamePayload f) }),
    stackTab := s.stackTab.map fun k =>
      (k.1, { k.2 with carried := k.2.carried.map fun y => (y.1, renamePayload f y.2) }),
    homes := s.homes.map fun e => (e.1, { e.2 with inbox := e.2.inbox.map fun m => (m.1, renameMsg f m.2) }) }

/-- The units' posted broadcasts name the threads of their tile. -/
def ownBcst (s : State) (p : Nat) : State :=
  let fix := fun (u : Unit) => { u with bcst := u.bcst.map fun (r : Bcst) => { r with thread := p * 8 + r.thread % 8 } }
  let t := s.tile p
  s.setTile p { t with unit0 := fix t.unit0, unit1 := fix t.unit1 }

/-- What waits in a group's tiles is given its turn again. -/
def repost (s : State) (h : Nat) : State :=
  (s.group h).tiles.foldl (fun (a : State) t =>
    let p := t.2.2
    let y := a.tile p
    let a1 := y.leaving.foldl (fun (b : State) m => b.postOnce (.evBarrierArrivalSend p m.1)) a
    let a2 := y.phases.foldl (fun (b : State) m => b.postOnce (.evBarrierCompletionApply p m.1)) a1
    let a3 := y.replies.foldl (fun (b : State) m => b.postOnce (.evBarrierInitReply p m.1)) a2
    let a4 := if y.unit0.bcst.isEmpty then a3 else a3.postOnce (.evBcstRowRead p 0)
    let a5 := if y.unit1.bcst.isEmpty then a4 else a4.postOnce (.evBcstRowRead p 1)
    let a6 := if y.mat.left.isSome && !a5.agenda.contains (.matrix p) then
      { a5 with agenda := a5.agenda ++ [.matrix p] } else a5
    let a7 := if y.mat.work.isSome then a6.postOnce (.evMatrixCommit p) else a6
    let a8 := (a7.chans.filter fun c => !c.2.held.isEmpty && match c.1 with
      | .tile q _ => q = p
      | _ => false).foldl (fun (b : State) c => b.postOnce (.evHeldMessageEnter c.1)) a7
    y.slots.foldl (fun (b : State) c =>
      let r := c.2.run
      let b1 := r.reqs.foldl (fun (d : State) q =>
        if q.kind = .mark || q.kind = .complete || q.spilled || q.reply.isSome then d
        else d.postOnce (reqEvent p c.1 q)) b
      let b2 := if r.command.isSome then b1.postOnce (.evBankTransferComplete p c.1) else b1
      let b3 := if r.lookups.isEmpty then b2 else b2.postOnce (.evXlatWalkComplete p c.1)
      if 40 ≤ c.1 && c.1 < 48 then b3.flushGen p c.1 else b3) a8) s

/-- PACKAGE completions that one stack's Beacon has still to carry and the other's has carried, for tiles that go from the
one to the other, applied as they go (R362). -/
def lostPhases (s : State) (h j p : Nat) : State :=
  let x := (s.group h).ctx
  let k := stackOfTile p
  if j = k then s
  else ((s.stack j).completions.filter fun c => c.1 = x && 256 ≤ c.2.1 && !(s.stack k).completions.contains c).foldl
    (fun (a : State) c =>
      let r := a.barrier p (c.2.1 - 256)
      if r.valid && r.scope = 6 then a.applyPhase p (c.2.1 - 256) c.2.2 else a) s

/-- The state of a group's tiles put on a new placement: saved, dropped, renamed, put, charted (R349). -/
def moveTiles (s : State) (h : Nat) (l : List (Nat × Nat × Nat)) : State :=
  let g := s.group h
  let saved := g.tiles.map fun t => (t.2.2, s.saveTile t.1 t.2.1 t.2.2)
  let f := fun (p : Nat) => match g.tiles.find? fun t => t.2.2 = p with
    | some t => (chartTile l t.1 t.2.1).getD p
    | none => p
  let s1 := g.tiles.foldl (fun (a : State) t => a.dropTile t.2.2 (foreignBanks g.ctx (a.tile t.2.2).banks)) s
  let s2 := s1.renameTiles h f
  let s3 := l.foldl (fun (a : State) t => a.clearRows h t.2.2) s2
  let s4 := saved.foldl (fun (a : State) v =>
    ((a.putTile h (f v.1) v.2).ownBcst (f v.1)).lostPhases h (stackOfTile v.1) (f v.1)) s3
  ((s4.writeChart h l).raisePorts h).repost h

end State
end Sys2Proof.Machine
end

