-- ==== Sys2Proof/Machine/GroupRun.lean ====
section
/-! DEFINITION. A group after it has tiles: commands, stops, resumption, freezes, moves, evictions,
snapshots (R339, R343-R351, R353). -/

namespace Sys2Proof.Machine

/-! ## Hold sets (R339) -/

/-- A holder added. -/
def Holders.add (x : Holders) : Holder → Holders
  | .guest => { x with guest := true }
  | .hyper => { x with hyper := true }
  | .pilot => { x with pilot := true }
/-- A holder removed. -/
def Holders.remove (x : Holders) : Holder → Holders
  | .guest => { x with guest := false }
  | .hyper => { x with hyper := false }
  | .pilot => { x with pilot := false }
/-- Whether it holds. -/
def Holders.has (x : Holders) : Holder → Bool
  | .guest => x.guest
  | .hyper => x.hyper
  | .pilot => x.pilot
/-- No holder. -/
def Holders.empty (x : Holders) : Bool := !x.guest && !x.hyper && !x.pilot
/-- The holders of both. -/
def Holders.union (x y : Holders) : Holders :=
  { guest := x.guest || y.guest, hyper := x.hyper || y.hyper, pilot := x.pilot || y.pilot }

/-- A wait that is no yield check (R213). -/
def deafWait : Wait → Bool
  | .refill _ | .gstat | .access | .again | .drain | .host | .limiter .. | .edge .. | .none => true
  | _ => false

namespace State

/-! ## Commands (R351, R353) -/

/-- The oldest command of a group with a sub-code, and with a holder if one is asked. -/
def commandOf (s : State) (h sub : Nat) (who : Option Holder) : Option GCommand :=
  (s.group h).commands.find? fun c => c.sub = sub && (who.isNone || who = some c.holder)

/-- A command of the group is under way (R351). -/
def commandBegun (s : State) (h : Nat) : Bool := (s.group h).commands.any (·.begun)

/-- A recorded command changed: it is known by its number. -/
def setCommand (s : State) (h : Nat) (c : GCommand) : State :=
  let g := s.group h
  s.setGroup h { g with commands := g.commands.map fun d => if d.recorded && d.no = c.no then c else d }

/-- The place of a command's issuer in the order of R11. -/
def holderClass : Holder → Nat
  | .hyper => 3
  | .pilot => 4
  | .guest => 5

/-- The command of a kind that the Pilot records next: of those it has not recorded, the one whose issuer comes first, and
the oldest of that issuer's (R11, R351). -/
def nextCommand (s : State) (h sub : Nat) (who : Option Holder) : Option GCommand :=
  ((s.group h).commands.filter fun c => c.sub = sub && (who.isNone || who = some c.holder) && !c.recorded).foldl
    (fun (a : Option GCommand) c => match a with
      | some b => if holderClass c.holder < holderClass b.holder then some c else some b
      | none => some c) none

/-- The first command equal to one that is not recorded yet becomes recorded under number n. -/
def noteFirst (c : GCommand) (n : Nat) : List GCommand → List GCommand
  | [] => []
  | d :: t => if d = c then { d with recorded := true, no := n } :: t else d :: noteFirst c n t

/-- The Pilot records the next command of its kind (R353): LCMD and LRES tell of it, but not of the Pilot's own. -/
def recordCommand (s : State) (h sub : Nat) (who : Option Holder) : State :=
  let g := s.group h
  match s.nextCommand h sub who with
  | none => s
  | some c =>
    let g1 := { g with commands := noteFirst c s.ids g.commands }
    { s.setGroup h (if c.holder = .pilot then g1 else { g1 with lcmd := sub, lres := 0xFF, lcmdNo := s.ids }) with
      ids := s.ids + 1 }

/-- The recorded command that comes before all others of the group (R351). -/
def headCommand (s : State) (h : Nat) : Option GCommand :=
  ((s.group h).commands.filter (·.recorded)).foldl (fun (a : Option GCommand) c => match a with
    | some b => if c.no < b.no then some c else some b
    | none => some c) none

/-- A recorded command ends with a result (R353); LRES tells it while it is the last one recorded. -/
def finishCommand (s : State) (h : Nat) (c : GCommand) (code : Nat) : State :=
  let g := s.group h
  s.setGroup h { g with commands := g.commands.filter (fun d => !(d.recorded && d.no = c.no)),
                        lres := if c.holder ≠ .pilot && g.lcmdNo = c.no then code else g.lres }

/-- A command is under way. -/
def beginCommand (s : State) (h : Nat) (c : GCommand) : State := s.setCommand h { c with begun := true }

/-- A command is under way on the tiles it has leased (R349). -/
def planCommand (s : State) (h : Nat) (c : GCommand) (l : List (Nat × Nat × Nat)) : State :=
  s.setCommand h { c with begun := true, place := l }

/-- A G-level command is taken while its context is not ACTIVE (R351). -/
def commandLate (s : State) (h : Nat) (c : GCommand) : Bool :=
  c.holder = .guest && (s.context (s.group h).ctx).st ≠ 3

/-- The Pilot takes a command of a kind (R351): it is recorded, and waits behind those recorded before it; else it ends
WRONGSTATE when late, or acts. -/
def takeCommand (s : State) (h sub : Nat) (who : Option Holder) (again : Instr) (act : State → GCommand → State) : State :=
  let s1 := s.recordCommand h sub who
  if (s.group h).st = .retired then s
  else match s1.headCommand h with
  | none => s1
  | some c =>
    if c.sub ≠ sub || (who.isSome && who ≠ some c.holder) then s1.post again
    else if s1.commandLate h c && !c.begun then s1.finishCommand h c 2
    else act s1 c

/-! ## Stopping (R345) -/

/-- A stop request reaches a thread (R212, R214, R239): a WAITING yield check yields; a sleep ends at the next
instruction. -/
def stopThread (s : State) (t : Nat) : State :=
  let x := s.thread t
  if x.st = .idle || x.st = .halted then s
  else
    let y := { x with stopReq := true }
    if x.st = .waiting && !deafWait x.wait then
      s.yieldThread t (if x.wait = .sleep then { y with pcc := { y.pcc with lo := y.pcc.lo + 4 } } else y)
    else s.setThread t y

/-- A stop request reaches every part of the group (R345). -/
def stopParts (s : State) (h : Nat) : State :=
  let s1 := (s.codeThreads h).foldl stopThread s
  let s2 := (s1.groupSlots h).foldl (fun (a : State) q => a.postOnce (.evElementPark q.1 q.2)) s1
  (s2.postOnce (.evStopComplete h)).postOnce (.evStopBoundExpire h)

/-- A stop request by a holder (R339, R345), with its partition's service mode as it reaches the group (R393); before the
group is ARMED it is kept (R327). -/
def stopGroup (s : State) (h : Nat) (who : Holder) : State :=
  let g := s.group h
  match g.st with
  | .armed | .firing | .gated =>
    (s.setGroup h { g with st := .cutting, ch := g.ch.add who, stopAt := s.fc,
                           stopService := (s.part (s.context g.ctx).part).mode }).stopParts h
  | .cutting | .cut => s.setGroup h { g with ch := g.ch.add who }
  | .leased | .configuring =>
    if who = .hyper then s.setGroup h { g with stopWhenArmed := g.stopWhenArmed.add who } else s
  | _ => s

/-- The states in which GCUT is accepted (R353). -/
def mayCut (g : Group) : Bool :=
  g.st = .armed || g.st = .firing || g.st = .gated || g.st = .cutting || g.st = .cut

/-- GROUP_STOP_REQUEST (R345): a recorded GCUT of the holder, or a stop of a context, a snapshot or a scrub
cut. -/
def stopRequest (s : State) (h : Nat) (who : Holder) : State :=
  match s.commandOf h 3 (some who) with
  | some _ => s.takeCommand h 3 (some who) (.evGroupStopRequest h who) fun a d =>
      if mayCut (a.group h) then (a.stopGroup h who).finishCommand h d 0 else a.finishCommand h d 2
  | none =>
    if s.commandBegun h then s.post (.evGroupStopRequest h who) else s.stopGroup h who

/-- The engine requests of a group's threads that are still at work, an ECOLL once its phase is complete (R275,
R345). -/
def groupRequests (s : State) (h : Nat) : Bool :=
  s.engines.any fun e => !isCore e.thread && e.gh = h &&
    (e.kind ≠ 2 || e.performed || s.homes.any fun b => b.2.collsDone.any (·.contains e.id))

/-- Whether a context holds a run on a stack (R287). -/
def holdsRun (s : State) (x k : Nat) : Bool :=
  (s.stack k).runs.any fun r => runHolder r.2 = some x

/-- The payloads of a group's threads that wait on a layer's queue. -/
def groupPayloads (s : State) (h l : Nat) : List Payload :=
  (s.layer l).queue.filter fun y => !isCore y.thread && s.handleOf (ptidOf y.thread) = h

/-- The layers a group stands on. -/
def groupLayers (s : State) (h : Nat) : List Nat := ((s.group h).tiles.map fun t => layerOfTile t.2.2).eraseDups

/-- The queued payloads of a group on a layer are kept with the group, in queue order (R296). -/
def takeQueued (s : State) (h l : Nat) : State :=
  let ys := s.groupPayloads h l
  let y := s.layer l
  let s1 := s.setLayer l { y with queue := y.queue.filter fun q => !ys.contains q }
  s1.setGroup h { s1.group h with payloads := (s1.group h).payloads ++ ys }

/-- The posted broadcasts of a group's tiles on a layer, with their tiles, in the order of acceptance (R293). -/
def unreadRows (s : State) (h l : Nat) : List (Nat × Bcst) :=
  let ps := ((s.group h).tiles.map (·.2.2)).filter fun p => layerOfTile p = l
  sortBy (fun a b => a.2.seq ≤ b.2.seq)
    (ps.flatMap fun p => ((s.tile p).unit0.bcst ++ (s.tile p).unit1.bcst).map fun r => (p, r))

/-- The rows a posted broadcast has still to read, as payloads (R292). -/
def rowsOf (s : State) (p : Nat) (r : Bcst) : List Payload :=
  (List.range r.left).map fun i => s.readRow p { r with off := r.off + 64 * i, row := r.row + i }

/-- The unread rows of a group on a layer are read and kept with the group (R296). -/
def takeUnread (s : State) (h l : Nat) : State :=
  let rs := s.unreadRows h l
  let s1 := rs.foldl (fun (a : State) e => a.touchBytes e.1 e.2.bank e.2.off (64 * e.2.left)) s
  let ys := rs.flatMap fun e => s1.rowsOf e.1 e.2
  let s2 := rs.foldl (fun (a : State) e =>
    let t := a.tile e.1
    a.setTile e.1 { t with unit0 := { t.unit0 with bcst := [] }, unit1 := { t.unit1 with bcst := [] } }) s1
  s2.setGroup h { s2.group h with payloads := (s2.group h).payloads ++ ys }

/-- Payloads of a group whose context holds no run on their stack are saved with it (R296). -/
def savePayloads (s : State) (h : Nat) : State :=
  (s.groupLayers h).foldl (fun (a : State) l =>
    if a.holdsRun (s.group h).ctx (l / 8) then a else (a.takeQueued h l).takeUnread h l) s

/-- The payloads a FROZEN group has queued leave with it when it is moved or evicted (R296). -/
def liftPayloads (s : State) (h : Nat) : State := (s.groupLayers h).foldl (fun a l => a.takeQueued h l) s

/-- A slot of this fc carries a payload of the group (R280, R288). -/
def carriedNow (s : State) (h : Nat) : Bool :=
  s.stackTab.any fun k => k.2.carried.any fun y => !isCore y.2.thread && s.handleOf (ptidOf y.2.thread) = h

/-- Broadcasts of the group still to be transmitted (R296). -/
def beaconPending (s : State) (h : Nat) : Bool :=
  s.carriedNow h ||
  (s.groupLayers h).any (fun l => s.holdsRun (s.group h).ctx (l / 8) && !(s.groupPayloads h l).isEmpty) ||
  (s.group h).tiles.any fun t =>
    s.holdsRun (s.group h).ctx (stackOfTile t.2.2) &&
      (!(s.tile t.2.2).unit0.bcst.isEmpty || !(s.tile t.2.2).unit1.bcst.isEmpty)

/-- A message of a group's tiles to the home of a barrier is under way, or PH on its way back (R362). -/
def barrierPending (s : State) (h : Nat) : Bool :=
  let ps := (s.group h).tiles.map (·.2.2)
  (ps.any fun p => !(s.tile p).leaving.isEmpty || !(s.tile p).replies.isEmpty) ||
  s.homes.any fun e => e.2.inbox.any fun m => ps.contains m.2.tile

/-- What follows a completed stop: the command under way, the snapshot, the scrub cut, or resumption when
nobody holds it any more (R339). -/
def afterCut (s : State) (h : Nat) : State :=
  let g := s.group h
  let s1 := match g.commands.find? (·.begun) with
    | some c => s.post (commandEvent h c.sub c.holder)
    | none => s
  let s2 := if g.snapDue then s1.post (.evSnapshot h) else s1
  let s3 := s2.scrubWhenCut g.ctx
  if (s3.group h).ch.empty then s3.post (.evGroupResume h) else s3

/-- The translation caches of a group's elements and helm units are emptied as it reaches CUT or EVICTED (R152, R377). -/
def emptyCaches (s : State) (h : Nat) : State :=
  let s1 := (s.groupSlots h).foldl (fun (a : State) q =>
    let x := a.slot q.1 q.2
    a.setSlot q.1 q.2 { x with run := { x.run with pages := [], cache := [] } }) s
  (s.group h).tiles.foldl (fun (a : State) t =>
    let y := a.tile t.2.2
    a.setTile t.2.2 { y with unit0 := { y.unit0 with cache := [] }, unit1 := { y.unit1 with cache := [] } }) s1

/-- STOP_COMPLETE (R345): every element PARKED, every thread at rest, every access performed. -/
def stopComplete (s : State) (h : Nat) : State :=
  if (s.group h).st ≠ .cutting then s
  else if !s.stopDone h || s.groupRequests h || s.barrierPending h || s.beaconPending h then s.postOnce (.evStopComplete h)
  else
    let s1 := (s.savePayloads h).emptyCaches h
    (s1.setGroup h { s1.group h with st := .cut }).afterCut h

/-! ## Freezing (R346, R348) -/

/-- Every latch and thread of a group held, or let go (R348). -/
def holdParts (s : State) (h : Nat) (on : Bool) : State :=
  let s1 := (s.groupSlots h).foldl (fun (a : State) q => a.setSlot q.1 q.2 { a.slot q.1 q.2 with held := on }) s
  (s1.codeThreads h).foldl (fun (a : State) t => a.setThread t { a.thread t with frozen := on }) s1

end State

/-- A time still to come when a freeze began at fc f comes as much later as the freeze has lasted, d fc (R348). -/
def later (f d n : Nat) : Nat := if f < n then n + d else n

/-- A slot after a freeze: its pipeline stages and counters stand where they stood (R98, R348). -/
def laterSlot (f d : Nat) (x : Slot) : Slot :=
  { x with pipe := x.pipe.map fun (i : Issued) => { i with due := later f d i.due },
           run := { x.run with due := later f d x.run.due } }

/-- A thread after a freeze: its sleep and its instruction have as much left as they had (R212, R348). -/
def laterThread (f d : Nat) (x : Thread) : Thread := { x with wakeAt := later f d x.wakeAt, busy := later f d x.busy }

namespace State

/-- What a freeze held goes on where it stood (R98, R212, R348). -/
def releaseParts (s : State) (h : Nat) : State :=
  let f := (s.group h).frozenAt.getD s.fc
  let d := s.fc - f
  let s1 := s.holdParts h false
  let s2 := (s1.groupSlots h).foldl (fun (a : State) q => a.setSlot q.1 q.2 (laterSlot f d (a.slot q.1 q.2))) s1
  let s3 := (s2.codeThreads h).foldl (fun (a : State) t => a.setThread t (laterThread f d (a.thread t))) s2
  let s4 := (s3.group h).tiles.foldl (fun (a : State) t =>
    let y := a.tile t.2.2
    a.setTile t.2.2 { y with mat := { y.mat with busyUntil := later f d y.mat.busyUntil } }) s3
  let g := s4.group h
  s4.setGroup h { g with frozenAt := none, lastMove := g.lastMove + d }

/-- A freeze by a set of holders (R348). -/
def freezeGroup (s : State) (h : Nat) (who : Holders) : State :=
  let g := s.group h
  if g.st = .frozen then s.setGroup h { g with fh := g.fh.union who }
  else (s.setGroup h { g with st := .frozen, prior := g.st, fh := g.fh.union who, frozenAt := some s.fc }).holdParts h true

/-- The states in which GFREEZE is accepted (R353). -/
def mayFreeze (g : Group) : Bool := mayCut g || g.st = .frozen

/-- SLACK_WATER_FREEZE (R348): a recorded GFREEZE of the holder, or a freeze of the Pilot. -/
def freezeRequest (s : State) (h : Nat) (who : Holder) : State :=
  match s.commandOf h 4 (some who) with
  | some _ => s.takeCommand h 4 (some who) (.evSlackWaterFreeze h who) fun a d =>
      if mayFreeze (a.group h) then (a.freezeGroup h (Holders.add {} who)).finishCommand h d 0
      else a.finishCommand h d 2
  | none =>
    if s.commandBegun h then s.post (.evSlackWaterFreeze h who)
    else if mayFreeze (s.group h) then s.freezeGroup h (Holders.add {} who) else s

/-- The stop bound of a group (R346). -/
def stopBound (s : State) (h : Nat) : Nat :=
  let g := s.group h
  if g.stopService then g.image.drain else 2 * s.ylim + 131072

/-- A beat or request of slot n waits on a link that carries no traffic (R346, R414). -/
def slotOnLink (s : State) (p n : Nat) : Bool :=
  let x := s.slot p n
  let blocked := fun (q : Option Nat) => q.any fun t => !s.seamCarries p t
  let passing := 60 ≤ n && x.op < 0xC2 && (List.range 8).any fun c => !(s.inchUnit p (n - 60) c).isEmpty
  (x.out.any fun o => blocked (s.destTile p o.1)) ||
  (passing && blocked (s.logicalNeighbour p
    (if x.op = 0xC0 then oppositeEdge (n - 60) else x.param 0x11 0))) ||
  x.run.reqs.any fun q => !q.spilled && q.reply.isNone && match s.xlatReq p n q with
    | .ok (ph, _) => !ph.host && !s.pathOpen (stackOfTile (s.portTile (s.handleOf p) p q.port)) ph.home
    | .error _ => false

/-- Something of a group waits on a link that carries no traffic (R346, R414). -/
def waitsOnLink (s : State) (h : Nat) : Bool :=
  ((s.groupSlots h).any fun q => s.slotOnLink q.1 q.2) ||
  ((s.codeThreads h).any fun t => (s.thread t).st = .waiting && match (s.thread t).wait with
    | .edge k j => !s.pathOpen k j
    | _ => false) ||
  s.engines.any fun e => !isCore e.thread && e.gh = h &&
    e.edge.any fun j => !s.pathOpen (stackOf e.thread) j

/-- STOP_BOUND_EXPIRE (R346): the group still CUTTING is frozen, OVERRUN is set and recorded; a command under way goes on
from there, and a snapshot is skipped (log 103). An fc in which something of it waits on a closed link is not counted. -/
def stopExpire (s : State) (h : Nat) : State :=
  let g := s.group h
  if g.st ≠ .cutting then s
  else if s.waitsOnLink h then (s.setGroup h { g with stopAt := g.stopAt + 1 }).postOnce (.evStopBoundExpire h)
  else if s.fc < g.stopAt + s.stopBound h then s.postOnce (.evStopBoundExpire h)
  else
    let s1 := s.freezeGroup h g.ch
    let s2 := s1.setGroup h { s1.group h with overrun := true }
    let c := s2.context g.ctx
    let late := if g.stopService then s.fc + g.image.drain else c.leaseAt
    let s3 := s2.setContext g.ctx { c with drainLate := c.drainLate || c.st = 4, leaseAt := late }
    let s4 := match g.commands.find? (·.begun) with
      | some d => s3.post (commandEvent h d.sub d.holder)
      | none => if g.snapDue then
          (s3.setGroup h { s3.group h with snapDue := false, snapskip := true }).releasePilot h else s3
    (s4.raise { cause := 0x13, src := 10, place := basePlace (pilotStack g), ctx := some g.ctx,
                aux := wd (s.stopBound h), group := wd h, toH := true }).scrubWhenCut g.ctx

/-! ## Resumption (R347, R387) -/

/-- The responses kept while the group stood are applied (R387). -/
def applyActions (s : State) (h : Nat) : State :=
  let l := (s.group h).actions
  l.foldl (fun (a : State) r => a.applyAction r.1 r.2) (s.setGroup h { s.group h with actions := [] })

/-- The saved broadcasts re-enter the queues of their threads' layers (R296). -/
def restorePayloads (s : State) (h : Nat) : State :=
  let ys := (s.group h).payloads
  ys.foldl (fun (a : State) y =>
    let l := layerOfTile (ptidOf y.thread)
    (a.setLayer l { a.layer l with queue := (a.layer l).queue ++ [y] }).postOnce (.evBeaconFrame (l / 8)))
    (s.setGroup h { s.group h with payloads := [] })

/-- The parts of a frozen group that leaves its tiles stand as those of a cut: what was under way begins again (R339, R347,
R350; log 103). -/
def standParts (s : State) (h : Nat) : State :=
  let s1 := (s.groupSlots h).foldl (fun (a : State) q =>
    let x := a.slot q.1 q.2
    if x.st = .armed || x.st = .gated then a.setSlot q.1 q.2 { x with st := .parked } else a) s
  (s1.codeThreads h).foldl (fun (a : State) t =>
    let x := a.thread t
    if x.st = .ready || x.st = .running || x.st = .waiting then
      a.setThread t { x with st := .yielding, wait := .none, instr := none,
                             pcc := if x.st = .waiting && x.wait = .sleep then { x.pcc with lo := x.pcc.lo + 4 } else x.pcc }
    else a) s1

/-- A YIELDING thread is READY, and no stop request is pending any more (R212). -/
def wakeThread (s : State) (t : Nat) : State :=
  let x := s.thread t
  let up := x.st = .yielding || (x.st = .waiting && x.wait = .drain)
  s.setThread t { x with stopReq := false, st := if up then .ready else x.st,
                         wait := if x.wait = .drain then .none else x.wait }

/-- The regions of a group at q = 0, ARMED (R98, R347). -/
def armRegions (g : Group) : Group :=
  { g with regions := g.regions.map fun r => (r.1, { r.2 with armed := true, advanced := 0, gated := false }) }

/-- The parts of a group that stand are ARMED and READY (R347). -/
def startParts (s : State) (h : Nat) : State :=
  let s1 := (s.groupSlots h).foldl (fun (a : State) q =>
    let x := a.slot q.1 q.2
    if x.st = .parked then a.setSlot q.1 q.2 { x with st := .armed } else a) s
  (s1.codeThreads h).foldl wakeThread (s1.setGroup h (armRegions (s1.group h)))

/-- A CUT group that nobody holds runs again (R339, R347). -/
def resumeGroup (s : State) (h : Nat) : State :=
  let s1 := (s.raisePorts h).setGroup h { s.group h with st := .firing }
  let s2 := ((s1.startParts h).applyActions h).restorePayloads h
  let s3 := ((s2.repost h).nudge h).engReturn h
  if (s3.group h).seeded then s3 else s3.post (.evSeedInject h)

/-- A group whose hold sets may have become empty goes on (R339). -/
def settleHolds (s : State) (h : Nat) : State :=
  let g := s.group h
  if g.st = .frozen then (if g.fh.empty then s.post (.evFreezeRelease h) else s)
  else if g.st = .cut && g.ch.empty && !s.commandBegun h then s.resumeGroup h
  else s

/-- The states in which GRESUME is accepted (R353). -/
def mayResume (g : Group) : Bool := g.st = .cut || g.st = .frozen || g.st = .cutting || g.st = .evicted

/-- A holder leaves both sets. -/
def leaveHolds (s : State) (h : Nat) (who : Holder) : State :=
  let g := s.group h
  s.setGroup h { g with ch := g.ch.remove who, fh := g.fh.remove who }

/-- GRESUME's effect (R353, R354): the issuer leaves both sets; OVERRUN clears when FH becomes empty. -/
def resumeHolds (s : State) (h : Nat) (who : Holder) : State :=
  let g := s.group h
  let s1 := s.leaveHolds h who
  let g1 := s1.group h
  s1.setGroup h { g1 with overrun := g.overrun && !(g1.fh.empty && !g.fh.empty) }

/-- GROUP_RESUME (R339, R347, R353). -/
def resumeRequest (s : State) (h : Nat) : State :=
  match s.commandOf h 6 none with
  | some _ => s.takeCommand h 6 none (.evGroupResume h) fun a d =>
      let g := a.group h
      if mayResume g && (g.ch.has d.holder || g.fh.has d.holder) then
        ((a.resumeHolds h d.holder).finishCommand h d 0).settleHolds h
      else a.finishCommand h d 2
  | none => s.settleHolds h

/-- The completions kept while a group was frozen are applied (R362). -/
def applyKept (s : State) (h : Nat) : State :=
  (s.group h).tiles.foldl (fun (a : State) t =>
    let ms := (a.tile t.2.2).phases
    ms.foldl (fun (b : State) m => b.applyPhase t.2.2 m.1 m.2.1) (a.setTile t.2.2 { a.tile t.2.2 with phases := [] })) s

/-- What a group's tiles have sent to the homes of barriers is taken there before the tiles are left, and PH returned
(R350, R356; log 98). -/
def settleHomes (s : State) (h : Nat) : State :=
  let ps := (s.group h).tiles.map (·.2.2)
  let mine := (s.homes.filter fun e => e.2.inbox.any fun m => ps.contains m.2.tile).map (·.1)
  let s1 := mine.foldl (fun (a : State) i =>
    ((a.home i).inbox.filter fun m => ps.contains m.2.tile).foldl (fun (b : State) m =>
      let c := b.setHome i { b.home i with inbox := (b.home i).inbox.erase m }
      match m.2 with
      | .arrival _ coll => if (c.home i).isOpen then c.countArrival i coll else c
      | .init p e => (c.openHome i p e).sendReply i p) a) s
  ps.foldl (fun (a : State) p =>
    (a.tile p).replies.foldl (fun (b : State) m => b.takePhase p m.1 m.2.1)
      (a.setTile p { a.tile p with replies := [] })) s1

/-- FREEZE_RELEASE (R339): held latches go on; the group takes its prior state, or its stop proceeds. A
sweep under way scrubs it first (R261). -/
def freezeRelease (s : State) (h : Nat) : State :=
  let g := s.group h
  if g.st ≠ .frozen || !g.fh.empty then s
  else
    let s0 := if (s.context g.ctx).sieve.st = 2 then s.scrubGroup g.ctx h else s
    let s1 := (s0.releaseParts h).applyKept h
    if g.ch.empty then
      let s2 := (s1.setGroup h { s1.group h with st := g.prior }).applyActions h
      let s3 := (((if g.prior = .cut then s2 else s2.restorePayloads h).repost h).nudge h).engReturn h
      let s4 := if g.prior = .cutting then s3.stopParts h else s3
      if g.prior = .cut then s4.post (.evGroupResume h)
      else if g.seeded then s4 else s4.post (.evSeedInject h)
    else
      let s2 := (s1.setGroup h { s1.group h with st := .cutting, stopAt := s.fc }).applyActions h
      ((((s2.restorePayloads h).repost h).nudge h).engReturn h).stopParts h

/-! ## Moving (R349) -/

/-- A lease is withheld from the group's context (R346). -/
def leaseLate (s : State) (h : Nat) : Bool := s.fc < (s.context (s.group h).ctx).leaseAt

/-- The groups of a context that wait for tiles are tried again (R340). -/
def retryLeases (s : State) (x : Nat) : State :=
  (s.groups.filter fun g => g.2.ctx = x && g.2.st = .unplaced && g.2.kernel = .admitted).foldl
    (fun (a : State) g => a.postOnce (.evPilotLease g.1)) s

/-- A scrub cut of the context stands or is being made (R258, R261). -/
def scrubbing (s : State) (x : Nat) : Bool :=
  let v := (s.context x).sieve
  v.st = 2 && !v.scrubbed

/-- A move ends (R349): the group stands as before, PILOT lets go of a group that the move cut, the command has its
result. -/
def endMove (s : State) (h : Nat) (c : GCommand) (code : Nat) : State :=
  let g := s.group h
  let s1 := (s.setGroup h { g with st := g.before }).finishCommand h c code
  (((if c.cutBy && !s.scrubbing g.ctx then s1.leaveHolds h .pilot else s1).settleHolds h).scrubWhenCut g.ctx).retryLeases g.ctx

/-- The move's commit or rollback (R349); the command may name a thread that moved with its group. -/
def commitMove (s : State) (h : Nat) (c : GCommand) : State :=
  match s.planCode h c.place with
  | 0 => ((s.liftPayloads h).moveTiles h c.place).endMove h c 0
  | v => s.endMove h c v

/-- A CUT or FROZEN group is MOVING once a place is leased (R339, R349); a move that has cut its group and finds none any
more rolls back. -/
def startMove (s : State) (h : Nat) (c : GCommand) : State :=
  let g := s.group h
  match s.findPlace h c.word with
  | some l =>
    let s1 := s.planCommand h c l
    (s1.setGroup h { s1.group h with st := .moving, before := g.st }).post (.evGroupMove h)
  | none =>
    if c.begun then (s.setGroup h { g with before := g.st }).endMove h c 5 else s.finishCommand h c 3

/-- A move that is under way goes on, or one that begins (R349). -/
def moveStep (s : State) (h : Nat) (c : GCommand) : State :=
  let g := s.group h
  if g.st = .moving then s.commitMove h c
  else if g.st = .cut || g.st = .frozen then (if s.leaseLate h then s.post (.evGroupMove h) else s.startMove h c)
  else if c.begun then s
  else if g.st = .firing || g.st = .gated then
    match s.findPlace h c.word with
    | none => s.finishCommand h c 3
    | some _ => (s.setCommand h { c with begun := true, cutBy := true }).stopGroup h .pilot
  else s.finishCommand h c 2

/-- GROUP_MOVE (R349, R351). -/
def moveRequest (s : State) (h : Nat) : State :=
  match s.commandOf h 2 none with
  | some _ => s.takeCommand h 2 none (.evGroupMove h) fun a d => a.moveStep h d
  | none => s

/-- COMPACTION (R349): the Pilot moves a group to the first place that fits, if it lies before the present
one. -/
def compact (s : State) (h : Nat) : State :=
  let g := s.group h
  let word : Word := 0x4000
  if (g.st = .firing || g.st = .gated || g.st = .cut) && !s.commandBegun h then
    match s.findPlace h word with
    | some l =>
      if originOf l < g.origin then
        (s.setGroup h { g with commands := g.commands ++ [{ sub := 2, holder := .pilot, word }] }).post (.evGroupMove h)
      else s
    | none => s
  else s

/-! ## Evicting and placing again (R350) -/

/-- What a store of the Pilot's came to: done, waiting for an interface or a path, or failed in its walk. -/
inductive PilotStore where
  | done (s : State)
  | waits
  | failed (s : State)

/-- Bytes stored through a context's translation line by line, each counted at its limiter on stack k, under key 0 where
`zero` says so (R306, R344, R350, R398). -/
def storeContext (s : State) (x k : Nat) (zero : Bool) : List (Nat × Nat) → List Byte → PilotStore
  | [], _ => .done s
  | (a, n) :: t, bs =>
    match s.chargedWalk { ctx := x, stack := k } a Need.store with
    | .error (_, s1) => .failed s1
    | .ok (e, s1) =>
      let p := s1.physBy e a
      if (p.host && !s.hostOpen x) || (!p.host && !s.pathOpen k p.home) then .waits
      else
        let q := if zero then { p with keyId := 0 } else p
        storeContext ((s1.charge x k).store q (bs.take n) false false (wd a) (baseSource 10 k 0)) x k zero t (bs.drop n)

/-- The image of a slot in the spill area: bytes of the Pilot's own layout (R306, R350; log 38). -/
def slotImage (s : State) : List Byte := (List.range 4096).map (Config.imageByte s.fresh)

/-- The slots of a tile that are not EMPTY, written to its context's spill area (R306, R350; log 38). -/
def spillSlots (s : State) (x p : Nat) : List Nat → PilotStore
  | [] => .done s
  | n :: t =>
    match s.used.storeContext x (stackOfTile p) true
        (linePieces ((s.context x).spbase + p * 0x100000 + 0x80000 + n * 0x1000) 4096) s.slotImage with
    | .done s1 => spillSlots s1 x p t
    | .failed s1 => spillSlots s1 x p t
    | .waits => .waits

/-- The slots of a group's tiles written to its context's spill area (R350). -/
def spillGroup (s : State) (x : Nat) : List Nat → PilotStore
  | [] => .done s
  | p :: t => match s.spillSlots x p (((s.tile p).slots.filter fun c => c.2.st ≠ .empty).map (·.1)) with
    | .done s1 => spillGroup s1 x t
    | r => r

/-- A saved tile without the spilled requests that an eviction discards (R374). -/
def withoutSpills (v : SavedTile) : SavedTile :=
  { v with tile := { v.tile with slots := v.tile.slots.map fun c =>
      (c.1, { c.2 with run := { c.2.run with reqs := c.2.run.reqs.filter fun q => !q.spilled } }) } }

/-- The requests and payloads of a group's threads are dropped with it. -/
def dropParties (s : State) (h : Nat) : State :=
  let ps := (s.group h).tiles.map (·.2.2)
  let mine := fun (t : Nat) => !isCore t && ps.contains (ptidOf t)
  { s with
    engines := s.engines.filter fun e => isCore e.thread || e.gh ≠ h,
    layers := s.layers.map fun l => (l.1, { l.2 with queue := l.2.queue.filter fun y => !mine y.thread }) }

/-- What leaves a tile with an evicted group: all but its spilled requests and its bank rows (R350, R374). -/
def savedPart (v : SavedTile) : SavedTile :=
  let w := withoutSpills v
  { w with tile := { w.tile with banks := [] } }

/-- A group about to leave its tiles: what stands frozen stands as cut, its messages to barriers are taken, its caches are
empty (R350, R356, R362, R377). -/
def standStill (s : State) (h : Nat) : State :=
  let s0 := if s.groupHeld h then (s.releaseParts h).standParts h else s
  ((s0.settleHomes h).applyKept h).emptyCaches h

/-- A tile left by an evicted group: its rows stay under their owner's mark (R306, R350). -/
def leaveTile (s : State) (h p : Nat) : State :=
  let x := (s.group h).ctx
  let s1 := s.markRows p x
  let s2 := s1.dropTile p (s1.tile p).banks
  s2.setTile p { s2.tile p with rowsOf := put (s2.tile p).rowsOf x h }

/-- Eviction (R350) once its slots are written out: state saved, tiles released. -/
def evictGroup (s : State) (h : Nat) : State :=
  let g := s.group h
  let saved := g.tiles.map fun t => savedPart (s.saveTile t.1 t.2.1 t.2.2)
  let s1 := g.tiles.foldl (fun (a : State) t => a.leaveTile h t.2.2) (s.liftPayloads h)
  let g2 := s1.group h
  (s1.setGroup h { g2 with st := .evicted, saved, savedPlace := g.tiles, spilledRows := [], tiles := [],
                           origin := 0, straddle := false, ports := [] }).retryLeases g.ctx

/-- The state an eviction continues from or begins with (R350, R353); its stores may have to wait (R405, R414). -/
def evictStep (s : State) (h : Nat) (c : GCommand) : State :=
  let g := s.group h
  if g.st = .cut || g.st = .frozen then
    match (s.standStill h).spillGroup g.ctx (g.tiles.map (·.2.2)) with
    | .done s1 | .failed s1 => ((s1.evictGroup h).finishCommand h c 0).scrubWhenCut g.ctx
    | .waits => (s.beginCommand h c).post (.evGroupEvict h)
  else if c.begun then s
  else if g.st = .firing || g.st = .gated then (s.beginCommand h c).stopGroup h c.holder
  else s.finishCommand h c 2

/-- GROUP_EVICT (R350, R351). -/
def evictRequest (s : State) (h : Nat) : State :=
  match s.commandOf h 5 none with
  | some _ => s.takeCommand h 5 none (.evGroupEvict h) fun a d => a.evictStep h d
  | none => s

/-- A saved tile as it is put back: with the rows that still stand where it stood, the others away under the PTID that
spilled them (R306, R350). -/
def withRows (s : State) (h : Nat) (v : SavedTile) : SavedTile :=
  let g := s.group h
  match g.savedPlace.find? fun t => t.1 = v.col && t.2.1 = v.row with
  | none => v
  | some t =>
    let p := t.2.2
    let banks := if find (s.tile p).rowsOf g.ctx = some h then markedBanks g.ctx (s.tile p).banks else v.tile.banks
    { v with tile := { v.tile with
        banks, away := v.tile.away ++ (g.spilledRows.filter (·.1 = p)).map fun r => (r.2.1, r.2.2, p) } }

/-- The rows a group left in place are taken from a tile it stood on. -/
def takeRows (s : State) (h p : Nat) : State :=
  let x := (s.group h).ctx
  let y := s.tile p
  if find y.rowsOf x = some h then s.setTile p { y with rowsOf := del y.rowsOf x, banks := unmarkedBanks x y.banks }
  else s

/-- An evicted group put on a placement (R350): saved tiles, their rows, Charts. -/
def replaceGroup (s : State) (h : Nat) (l : List (Nat × Nat × Nat)) : State :=
  let g := s.group h
  let saved := g.saved.map fun v => (stoodOn g v, s.withRows h v)
  let s1 := g.savedPlace.foldl (fun (a : State) t => a.takeRows h t.2.2) s
  let s2 := l.foldl (fun (a : State) t => a.clearRows h t.2.2) s1
  let f := fun (p : Nat) => match g.savedPlace.find? fun t => t.2.2 = p with
    | some t => (chartTile l t.1 t.2.1).getD p
    | none => p
  let g2 := s2.group h
  let s3 := s2.setGroup h { g2 with
    saved := [], savedPlace := [], spilledRows := [], fh := {}, payloads := g2.payloads.map (renamePayload f) }
  let s4 := (s3.renameRecords h f).renameEngines h f
  let s5 := saved.foldl (fun (a : State) v => match chartTile l v.2.col v.2.row with
    | some p => ((a.putTile h p v.2).ownBcst p).lostPhases h (stackOfTile (if g.savedPlace.isEmpty then p else v.1)) p
    | none => a) s4
  (s5.writeChart h l).raisePorts h

/-- A re-placed group is CUT, and runs if nobody holds it (R339, R350); RUN lets the issuer go. -/
def endReplace (s : State) (h : Nat) (c : Option GCommand) : State :=
  let s1 := s.setGroup h { s.group h with st := .cut }
  let s2 := match c with
    | some d =>
      let a := s1.finishCommand h d 0
      if bits d.word 15 1 = 1 then a.setGroup h { a.group h with ch := (a.group h).ch.remove d.holder } else a
    | none => s1
  ((s2.engReturn h).settleHolds h).scrubWhenCut (s2.group h).ctx

/-! ## Snapshots (R343, R344) -/

/-- A snapshot record of a group would overlap the latest complete one of some group (R344). -/
def snapBlocked (s : State) (x off len : Nat) : Bool :=
  s.groups.any fun g => g.2.ctx = x && (match g.2.snap with
    | some y => overlap off len y.off y.len
    | none => false)

/-- The IV of the next record: Lodestone never repeats one (R344; log 38). -/
def nextIv (s : State) : BitVec 96 := Config.snapIv + BitVec.ofNat 96 s.ids

/-- Bytes 0 to 79 of a snapshot record's header (R344). -/
def snapHead (s : State) (h len epoch : Nat) (iv : BitVec 96) : List Byte :=
  let g := s.group h
  toBytes 8 0x00000001534E4150 ++ toBytes 8 h ++ toBytes 4 0 ++
  toBytes 4 (g.image.cols + g.image.rows * 256) ++ toBytes 4 (g.cpc.toNat + epoch * 2 ^ 16) ++
  toBytes 4 g.gerr.toNat ++ toBytes 8 len ++
  toBytes 8 (match g.snap with
    | some y => y.off
    | none => 2 ^ 64 - 1) ++
  List.replicate 16 0 ++ toBytes 12 iv.toNat ++ toBytes 4 0

/-- The 1 MiB image of a tile: its bank rows, its slots in the Pilot's own layout (R306, R344; log 38). -/
def tileImage (s : State) (p : Nat) : List Byte :=
  ((List.range 8).flatMap fun i => getBytes (s.bank p i).cells 0 65536) ++
  (List.range 0x80000).map fun n => Config.imageByte s.fresh (p * 0x100000 + n)

/-- The tiles of a group in ascending (row, col) (R344). -/
def inRows (l : List (Nat × Nat × Nat)) : List Nat :=
  (sortBy (fun (a b : Nat × Nat × Nat) => a.2.1 < b.2.1 || (a.2.1 == b.2.1 && a.1 ≤ b.1)) l).map (·.2.2)

/-- The body of a record before it is sealed: TILES, and GSTATE in the Pilot's own layout (R344; log 38). -/
def snapPlain (s : State) (h len : Nat) : List Byte :=
  let l := (inRows (s.group h).tiles).flatMap s.tileImage
  l ++ (List.range (len - 256 - l.length)).map fun n => Config.imageByte (s.fresh + 1) n

/-- A record's body and its header, with the tag over what it covers (R344). -/
def snapRecord (s : State) (h len epoch : Nat) : List Byte × List Byte :=
  let key := (s.context (s.group h).ctx).epoch
  let iv := s.nextIv
  let plain := s.snapPlain h len
  let body := (List.range (len - 256)).map (Config.snapCipher key iv plain)
  let head := s.snapHead h len epoch iv
  (body, head ++ toBytes 16 (Config.snapTag key iv (head ++ body)).toNat ++ List.replicate 160 0)

/-- The length of a record: header, a 1 MiB image for each logical tile, and GSTATE of an unstated number of
64 KiB blocks (R344; a free value). -/
def snapLength (s : State) (h : Nat) : Nat :=
  256 + 2 ^ 20 * ((s.group h).image.cols * (s.group h).image.rows) + 65536 * (1 + s.free.toNat % 4096)

/-- A snapshot's record is complete (R344). -/
def snapDone (s0 s : State) (h off len ep : Nat) : State :=
  let g := s0.group h
  let y : Snapshot := { off, len, cpc := g.cpc, gerr := g.gerr, regions := g.regions, actors := g.actors,
                        tiles := g.tiles.map (fun t => s0.saveTile t.1 t.2.1 t.2.2), payloads := g.payloads,
                        chans := s0.chans.filterMap fun e => match e.1 with
                          | .group k n => if k = h then some (n, e.2) else none
                          | _ => none,
                        homes := s0.homes.filterMap fun e => match e.1 with
                          | .group k b => if k = h then some (b, e.2) else none
                          | _ => none }
  let s1 := { s with ids := s.ids + 1 }.used.used
  let s2 := s1.setGroup h { s1.group h with snapep := BitVec.ofNat 8 ep, snapskip := false, snap := some y }
  s2.setContext g.ctx { s2.context g.ctx with ssnext := roundUp (off + len) 16 }

/-- A snapshot is written, or skipped (R344); its stores may have to wait (R405, R414). -/
def writeSnapshot (s : State) (h : Nat) : PilotStore :=
  let g := s.group h
  let c := s.context g.ctx
  let len := s.snapLength h
  let s0 := s.used
  let off := if c.ssnext + len ≤ c.sslen then c.ssnext else 0
  let skip := fun (a : State) => a.setGroup h { a.group h with snapskip := true }
  if c.sslen < len || s.snapBlocked g.ctx off len then .done (skip s0)
  else
    let ep := (g.snapep + 1).toNat
    let k := pilotStack g
    let r := s0.snapRecord h len ep
    match s0.storeContext g.ctx k false (linePieces (c.ssbase + off + 256) (len - 256)) r.1 with
    | .waits => .waits
    | .failed s1 => .done (skip s1)
    | .done s1 => match s1.storeContext g.ctx k false (linePieces (c.ssbase + off) 256) r.2 with
      | .waits => .waits
      | .failed s2 => .done (skip s2)
      | .done s2 => .done (snapDone s0 s2 h off len ep)

/-- SNAPSHOT (R343): a due snapshot first stops the group, then writes its record and lets it go. -/
def snapshot (s : State) (h : Nat) : State :=
  let g := s.group h
  if g.snapDue && g.st = .cut then
    match s.writeSnapshot h with
    | .done s1 | .failed s1 => (s1.setGroup h { s1.group h with snapDue := false }).releasePilot h
    | .waits => s.post (.evSnapshot h)
  else if g.snapDue then s
  else if s.commandBegun h || g.st = .frozen || g.st = .moving then s.post (.evSnapshot h)
  else if g.st = .cut then (s.setGroup h { g with snapDue := true, ch := g.ch.add .pilot }).post (.evSnapshot h)
  else if g.st = .armed || g.st = .firing || g.st = .gated || g.st = .cutting then
    (s.setGroup h { g with snapDue := true }).stopGroup h .pilot
  else s

end State

/-- GROUP_STOP_REQUEST (R345). -/
def execEvGroupStopRequest (g : Nat) (h : Holder) (s : State) : Result := .next (s.stopRequest g h)
/-- STOP_COMPLETE (R345). -/
def execEvStopComplete (g : Nat) (s : State) : Result := .next (s.stopComplete g)
/-- STOP_BOUND_EXPIRE (R346). -/
def execEvStopBoundExpire (g : Nat) (s : State) : Result := .next (s.stopExpire g)
/-- GROUP_RESUME (R339, R347). -/
def execEvGroupResume (g : Nat) (s : State) : Result := .next (s.resumeRequest g)
/-- SLACK_WATER_FREEZE (R348). -/
def execEvSlackWaterFreeze (g : Nat) (h : Holder) (s : State) : Result := .next (s.freezeRequest g h)
/-- FREEZE_RELEASE (R339). -/
def execEvFreezeRelease (g : Nat) (s : State) : Result := .next (s.freezeRelease g)
/-- GROUP_MOVE (R349). -/
def execEvGroupMove (g : Nat) (s : State) : Result := .next (s.moveRequest g)
/-- COMPACTION (R349). -/
def execEvCompaction (g : Nat) (s : State) : Result := .next (s.compact g)
/-- GROUP_EVICT (R350). -/
def execEvGroupEvict (g : Nat) (s : State) : Result := .next (s.evictRequest g)
/-- SNAPSHOT (R343, R344). -/
def execEvSnapshot (g : Nat) (s : State) : Result := .next (s.snapshot g)

end Sys2Proof.Machine
end

