-- ==== Sys2Proof/Machine/Fetch.lean ====
section
/-! DEFINITION. Fetching a helm instruction's word, its latency, and the choice of the next thread
(R215, R216, R220, R424). -/

namespace Sys2Proof.Machine
namespace State

/-- The word at the acting thread's pc: FetchCheck, translation, revocation and poison (R220, R223, R260;
a poisoned word traps POISON as a load does, log 13). An error is the state in which the thread has
trapped or waits. -/
def fetchWord (s : State) : Except State (Nat × State) :=
  match s.accessFault s.th.pcc s.pc 4 permExecute 4 false with
  | some f => .error (s.trapCap f s.pc)
  | none => match s.helmLoad s.th.pcc s.pc 4 Need.fetch with
    | .error t => .error t
    | .ok (v, s1) => if v.poi then .error (s1.trap 5 0 s.pc) else .ok (fromBytes v.bytes, s1)

/-- A thread may issue: it is READY and its previous instruction has completed (R215). -/
def canIssue (s : State) (t : Nat) : Bool :=
  let x := s.thread t
  x.st = .ready && !x.frozen && x.busy ≤ s.fc

/-- The four threads of a unit or control core in rotation, from the one after the last it issued (R215). -/
def unitOrder (s : State) (u : Nat) : List Nat :=
  (List.range 4).map fun i => u * 4 + (look 3 s.issued u + 1 + i) % 4

/-- The thread that a unit or control core issues in this fc (R215). -/
def chosen (s : State) (u : Nat) : Option Nat := (s.unitOrder u).find? s.canIssue

end State

/-- The fc an instruction takes (R216); one whose completion waits takes 1 fc once it is satisfied (log 9). -/
def latencyOf : Instr → Nat
  | .mul .. | .mulhi .. | .mulhiu .. => 3
  | .div .. | .divu .. | .rem .. | .remu .. => 20
  | .mtk .. => 2
  | _ => 1

/-- The fc until thread t, which acts in state s, has completed an instruction; a trap at issue takes 1 (R216). -/
def issueTime (i : Instr) (s : State) : Nat :=
  match i with
  | .mtk _ k => if s.th.priv.toNat < State.writeLevel k then 1 else latencyOf i
  | i => latencyOf i

/-- Time passes (R209). -/
def State.tick (s : State) (n : Nat) : State := { s with fc := s.fc + n }

/-- ILLEGAL_OP (R43): the trap of a word that fails checks 1 to 4, at its address, with the word as
EVAL. -/
def execEvIllegalOp (w : Word32) (s : State) : Result := .next (s.trap 1 0 (w.setWidth 64))

end Sys2Proof.Machine
end

