-- ==== Sys2Proof/Machine/Image.lean ====
section
/-! DEFINITION. The image and the loader's checks of it (R44-R52, R69-R72, R84, R328-R334). -/

namespace Sys2Proof.Machine

/-- A rejection: reason code, block index (or thread record), slot (R52, R328). -/
structure Reject where
  code : Nat
  block : Nat := 0xFFFF
  slot : Nat := 0xFF
deriving DecidableEq, Repr

/-- A check passes, or rejects the image. -/
def require (ok : Bool) (r : Reject) : Except Reject PUnit.{1} := if ok then .ok ⟨⟩ else .error r

/-- Every member of a list passes a check, in order. -/
def checkAll {α : Type} (f : α → Except Reject PUnit.{1}) : List α → Except Reject PUnit.{1}
  | [] => .ok ⟨⟩
  | a :: t => match f a with
    | .ok _ => checkAll f t
    | .error r => .error r

/-- Members numbered from 0. -/
def numbered {α : Type} (l : List α) : List (Nat × α) := (List.range l.length).zip l

/-! ## Reading fields -/

/-- The number in n bytes at an offset; bytes beyond the end read 0. -/
def leAt (d : List Byte) (o n : Nat) : Nat := fromBytes ((d.drop o).take n)
/-- A 32-bit word at an offset. -/
def word32At (d : List Byte) (o : Nat) : Word32 := BitVec.ofNat 32 (leAt d o 4)
/-- n bytes at an offset. -/
def sliceAt (d : List Byte) (o n : Nat) : List Byte := (d.drop o).take n
/-- Bits [lo + n - 1 : lo] of a 32-bit word. -/
def wbits (w : Word32) (lo n : Nat) : Nat := w.toNat / 2 ^ lo % 2 ^ n

/-! ## Slots, classes, ports and formats (R47-R51, R132, R140, R153, R167, R180, R188) -/

/-- A slot class: its first slot, its slots, its opcodes (R50). -/
structure SlotClass where
  start : Nat
  count : Nat
  low : Nat
  high : Nat
deriving DecidableEq, Repr

/-- The class of a slot (R50). -/
def classOf (n : Nat) : SlotClass :=
  if n < 32 then ⟨0, 32, 0x00, 0x5F⟩
  else if n < 40 then ⟨32, 8, 0x80, 0x8F⟩
  else if n < 48 then ⟨40, 8, 0x60, 0x7F⟩
  else if n < 52 then ⟨48, 4, 0x90, 0x9F⟩
  else if n < 56 then ⟨52, 4, 0xA0, 0xAF⟩
  else if n = 56 then ⟨56, 1, 0xB0, 0xBF⟩
  else if n < 59 then ⟨57, 2, 0xC8, 0xCB⟩
  else if n = 59 then ⟨59, 1, 0xCC, 0xCF⟩
  else ⟨60, 4, 0xC0, 0xC7⟩

/-- An opcode is defined (R51). -/
def definedOp (op : Nat) : Bool :=
  op ≤ 0x26 || (0x28 ≤ op && op ≤ 0x3E) || (0x40 ≤ op && op ≤ 0x43) || (0x48 ≤ op && op ≤ 0x4C) ||
  (0x50 ≤ op && op ≤ 0x5B) || (0x60 ≤ op && op ≤ 0x67) || (0x80 ≤ op && op ≤ 0x87) || (0x90 ≤ op && op ≤ 0x94) ||
  (0xA0 ≤ op && op ≤ 0xA7) || (0xB0 ≤ op && op ≤ 0xB2) || (0xC0 ≤ op && op ≤ 0xC3) || (0xC8 ≤ op && op ≤ 0xCA) ||
  (0xCC ≤ op && op ≤ 0xCF)

/-- The ports an operation has, whatever its parameters: what a consumer field may name (R47, R110, R133,
R140, R153, R162, R165-R167, R180, R189). -/
def portsOf (op : Nat) : List Nat :=
  if op < 0x50 then wordReads op
  else match op with
    | 0x50 | 0x52 => [0, 3] | 0x51 => [0, 1, 3]
    | 0x53 | 0x54 | 0x55 | 0x56 | 0x57 | 0x5B => [0] | 0x5A => [0, 1]
    | 0x60 => [3] | 0x61 | 0x62 | 0x67 => [0, 3] | 0x63 => [0, 1, 3] | 0x64 => [0, 1, 2, 3] | 0x66 => [0]
    | 0x80 => [0, 1] | 0x81 | 0x82 | 0x84 => [0, 1, 2] | 0x83 | 0x85 | 0x86 | 0x87 => [0]
    | 0x90 => [0, 1, 2] | 0x91 => [0, 1] | 0x92 | 0x93 | 0x94 => [0]
    | 0xA0 => [0, 3] | 0xA1 => [0] | 0xA2 | 0xA3 | 0xA6 | 0xA7 => [0, 1, 3] | 0xA4 => [0, 1, 2, 3] | 0xA5 => [0, 1]
    | 0xB0 | 0xB1 => [0, 1, 3] | 0xB2 => [0, 1, 2, 3]
    | 0xC0 | 0xC1 | 0xC2 | 0xC3 | 0xC8 | 0xCA => [0, 1, 2, 3]
    | 0xCC | 0xCF => [0]
    | _ => []

/-- An opcode takes no format: FSEL must be 0 (R49). -/
def takesNoFormat (op : Nat) : Bool :=
  (0x50 ≤ op && op ≤ 0x5B) || (0x80 ≤ op && op ≤ 0x87) || (0xC0 ≤ op && op ≤ 0xCF)

/-- The formats an opcode accepts (R49, R110, R132, R140, R167, R180, R188, R192). -/
def formatAccepted (op : Nat) (m : Fmt) : Bool :=
  let i : Bool := m.kind = .int
  let f : Bool := m.kind = .float
  let e : Bool := m.kind = .e
  let b : Bool := m.kind = .bits
  if m.kind = .empty then false
  else if op = 0x00 then true
  else if op ≤ 0x0F then i
  else if op ≤ 0x1F then f
  else if op ≤ 0x21 then i || f || e || b
  else if op ≤ 0x23 then i || f || e
  else if op = 0x24 then f || e
  else if op = 0x25 then i || f || e || b
  else if op = 0x26 then f
  else if op ≤ 0x37 then i || b
  else if op = 0x38 then i || f || e || b
  else if op = 0x39 then i || f || e
  else if op = 0x3A then i || f
  else if op = 0x3B then i || f || e
  else if op = 0x3C then f
  else if op = 0x3D then m.kind = .mx
  else if op = 0x3E then i || f || e
  else if op = 0x40 || op = 0x41 then i && (m.w = 8 || m.w = 16)
  else if op = 0x42 || op = 0x43 then m.kind = .t3
  else if op = 0x48 then i || f
  else if op ≤ 0x4B then i || f || e
  else if op = 0x4C then i || f || e || b
  else if op = 0x64 then i && (m.w = 32 || m.w = 64)
  else if op ≤ 0x67 then i || f || e || b || m.kind = .t3
  else if op ≤ 0x94 then i || b
  else if op = 0xA0 || op = 0xA1 then f
  else if op ≤ 0xA7 then m.kind = .sd
  else pairClass' m.code
where
  /-- The A formats of the matrix node (R192). -/
  pairClass' (c : Nat) : Bool :=
    (0x10 ≤ c && c ≤ 0x15) || (0x18 ≤ c && c ≤ 0x1C) || c = 0x1E

/-- The greatest replication code of an operation in its slot (R48, R105, R131, R132, R140, R153, R167,
R180, R188). -/
def maxRep (n op : Nat) : Nat :=
  if selfTimed op || op = 0x66 then 0
  else if n < 32 then 6
  else if n < 48 then 3
  else if n < 52 then 2
  else 0

/-! ## Element words (R52) -/

/-- Whether a slot stands under the copies of a replicated element of the block (R48). -/
def coveredSlot (words : List Word32) (n : Nat) : Bool :=
  (numbered words).any fun p =>
    let rep := wbits p.2 18 3
    p.2 ≠ 0xFF03FFFF && rep < 7 && p.1 < n && n < (if rep = 6 then 32 else p.1 + 2 ^ rep)

/-- A slot and port may be a consumer in a block: the lowest slot of an element that has the port (R47). -/
def consumerThere (words : List Word32) (n o : Nat) : Bool :=
  let w := words.getD n 0xFF03FFFF
  n < words.length && w ≠ 0xFF03FFFF && !coveredSlot words n && (portsOf (wbits w 24 8)).contains o

/-- The conditions of R48 on a replicated element: count, alignment, PAIR. -/
def repLegal (n op rep : Nat) (pair : Bool) : Bool :=
  let c := classOf n
  rep ≤ maxRep n op &&
  (if rep = 6 then n = 0 && pair else (n - c.start) % 2 ^ rep = 0 && 2 ^ rep ≤ c.count)

/-- One element word's checks, in code order (R52). -/
def checkWord (i : Nat) (words : List Word32) (pair : Bool) (routes : List Word32) (profile : List Nat)
    (p : Nat × Word32) : Except Reject PUnit.{1} := do
  let n := p.1
  let w := p.2
  let op := wbits w 24 8
  let rep := wbits w 18 3
  let cs := [wbits w 9 9, wbits w 0 9].filter (· ≠ 0x1FF)
  let bad := fun (c : Nat) => ({ code := c, block := i, slot := n } : Reject)
  if w = 0xFF03FFFF then return ⟨⟩
  require (definedOp op || op = 0xFF) (bad 0x06)
  require (op = 0xFF || ((classOf n).low ≤ op && op ≤ (classOf n).high)) (bad 0x07)
  require (op ≠ 0xFF) (bad 0x08)
  require (if takesNoFormat op then wbits w 21 3 = 0
    else formatAccepted op (fmtOf (profile.getD (wbits w 21 3) 0))) (bad 0x09)
  require (rep ≠ 7) (bad 0x0A)
  require (repLegal n op rep pair) (bad 0x0B)
  require ((numbered words).all fun q =>
    !(n < q.1 && q.1 < (if rep = 6 then 32 else n + 2 ^ rep)) || q.2 = 0xFF03FFFF) (bad 0x0C)
  require (cs.all fun c => c % 8 < 4 || c % 8 = 7) (bad 0x0D)
  require (cs.all fun c => c % 8 ≠ 7 || wbits (routes.getD (c / 8) 0) 31 1 = 1) (bad 0x0E)
  require (cs.all fun c => c % 8 = 7 || consumerThere words (c / 8) (c % 8)) (bad 0x0F)
  require (wbits w 9 9 ≠ wbits w 0 9 || wbits w 0 9 = 0x1FF) (bad 0x10)

/-! ## Header, directory, profiles (R69, R70, R84, R329 steps 2-4) -/

/-- A section of the directory. -/
structure Section where
  type : Nat
  off : Nat
  len : Nat
  count : Nat
deriving DecidableEq, Repr

/-- The directory's entries (R69). -/
def directory (d : List Byte) : List Section :=
  (List.range (leAt d 16 4)).map fun i =>
    let o := 64 + 16 * i
    { type := leAt d o 4, off := leAt d (o + 4) 4, len := leAt d (o + 8) 4, count := leAt d (o + 12) 4 }

/-- The sections stand in order from a position on, aligned, apart, within the image, with zeros between and
after (R69). -/
def sectionsApart (d : List Byte) : Nat → List Section → Bool
  | pos, [] => (d.drop pos).all (· = 0)
  | pos, x :: t =>
    x.off % 64 = 0 && pos ≤ x.off && x.off + x.len ≤ d.length && (sliceAt d pos (x.off - pos)).all (· = 0) &&
    sectionsApart d (x.off + x.len) t

/-- A section type is one of R70's. -/
def sectionType (t : Nat) : Bool := (1 ≤ t && t ≤ 8) || t = 10 || t = 15

/-- The SIGNATURE section has its 128 bytes, zeros behind the signature (R70; log 83). -/
def signatureForm (d : List Byte) (x : Section) : Bool := x.len = 128 && (sliceAt d (x.off + 122) 6).all (· = 0)

/-- Step 4 of R329; a SIGNATURE section of another form fails it (log 83). -/
def directoryGood (d : List Byte) : Bool :=
  let l := directory d
  let ts := l.map (·.type)
  64 + 16 * l.length ≤ d.length && sectionsApart d (64 + 16 * l.length) l && ts.all sectionType &&
  ts.eraseDups.length = ts.length && ts.contains 2 && ts.getLast? = some 15 &&
  (match l.getLast? with
    | some x => signatureForm d x
    | none => false)

/-- A section by type; an absent one is empty. -/
def sectionOf (d : List Byte) (t : Nat) : Section :=
  ((directory d).find? (·.type = t)).getD { type := t, off := 0, len := 0, count := 0 }

/-- A section's bytes. -/
def sectionBytes (d : List Byte) (t : Nat) : List Byte := let x := sectionOf d t; sliceAt d x.off x.len

/-- Step 3 of R329. -/
def headerGood (d : List Byte) (owned : Nat) : Bool :=
  let cols := leAt d 12 2
  let rows := leAt d 14 2
  leAt d 4 2 = 0 && leAt d 8 4 = 0 && (sliceAt d 32 32).all (· = 0) && 1 ≤ cols && cols ≤ 255 && 1 ≤ rows &&
  rows ≤ 255 && 2 ≤ leAt d 16 4 && leAt d 16 4 ≤ 16 && cols * rows ≤ owned

/-- A profile entry keeps R84. -/
def entryGood (w : Nat) : Bool :=
  let c := w % 256
  let known := c ≤ 0x0A || (0x10 ≤ c && c ≤ 0x15) || (0x18 ≤ c && c ≤ 0x1C) || c = 0x1E || c = 0x1F
  w / 2 ^ 12 = 0 && !bit w 8 && known && (!bit w 11 || c = 0x14 || c = 0x15 || c = 0x18) &&
  (!(bit w 9 || bit w 10) || (0x10 ≤ c && c ≤ 0x15) || (0x18 ≤ c && c ≤ 0x1B))

/-- The profiles that are not malformed (R70, R84), of as many records as the section holds (log 83). -/
def profilesOf (d : List Byte) : List (Nat × List Nat) :=
  let x := sectionOf d 1
  let b := sectionBytes d 1
  let recs := (List.range (Nat.min x.count (b.length / 36))).filterMap fun k =>
    if 36 * k + 36 ≤ b.length then
      some (leAt b (36 * k) 1, leAt b (36 * k + 1) 3, (List.range 8).map fun j => leAt b (36 * k + 4 + 4 * j) 4)
    else none
  (recs.filter fun r => r.2.1 = 0 && r.2.2.all entryGood && (recs.filter fun q => q.1 = r.1).length = 1).map
    fun r => (r.1, r.2.2)

/-! ## Blocks (R44, R52) -/

/-- Where blocks begin in the BLOCKS section: offsets of as many as are asked for, and of the byte after the
last (R52). -/
def blockOffsets (b : List Byte) : Nat → Nat → List Nat
  | o, 0 => [o]
  | o, n + 1 => o :: blockOffsets b (o + 4 * (wbits (word32At b o) 20 6 + 3)) n

/-- Records kept per block: a count word and then that many entries of a size; the flag tells that the
section ends early or that a reserved bit is set (R70). Log 83: a section that ends early is malformed, and bytes
behind the last record and the directory COUNT are ignored. -/
def perBlock (b : List Byte) (size mask : Nat) : Nat → Nat → List (List (List Byte)) × Bool
  | _, 0 => ([], false)
  | o, n + 1 =>
    let h := leAt b o 4
    let k := h % mask
    let short := b.length < o + 4 + size * k
    let l := if short then [] else (List.range k).map fun j => sliceAt b (o + 4 + size * j) size
    let r := perBlock b size mask (o + 4 + size * k) n
    (l :: r.1, short || h ≠ k || r.2)

/-- The route tables of n blocks, and whether the section is malformed. -/
def routesOf (d : List Byte) (n : Nat) : List (List Word32) × Bool :=
  if (sectionOf d 3).off = 0 then (List.replicate n [], false)
  else
    let r := perBlock (sectionBytes d 3) 4 64 0 n
    (r.1.map fun l => l.map fun e => word32At e 0, r.2)

/-- The PARAM pairs of n blocks, and whether the section is malformed. -/
def paramsOf (d : List Byte) (n : Nat) : List (List (Nat × Word)) × Bool :=
  if (sectionOf d 5).off = 0 then (List.replicate n [], false)
  else
    let r := perBlock (sectionBytes d 5) 12 (2 ^ 32) 0 n
    (r.1.map fun l => l.map fun e => (leAt e 0 4, wd (leAt e 4 8)), r.2)

/-- HCHK of a header word (R44). -/
def headerCheck (h : Word32) : Nat := (wbits h 24 8 ^^^ wbits h 16 8) ^^^ (wbits h 8 8 ^^^ 0xA5)

/-- A block as the loader decodes it (R44). -/
def blockAt (b : List Byte) (o col row : Nat) (routes : List Word32) (params : List (Nat × Word)) : Block :=
  let h := word32At b o
  let n := wbits h 20 6 + 1
  { col, row, prof := wbits h 12 8, pair := wbits h 11 1 = 1, retain := wbits h 10 1 = 1,
    words := (List.range n).map fun k => word32At b (o + 4 + 4 * k), routes, params, header := h,
    trailer := word32At b (o + 4 + 4 * n) }

/-- The bytes a trailer covers (R45). -/
def Block.covered (b : Block) : List Byte := (b.header :: b.words).flatMap fun w => toBytes 4 w.toNat

/-- The checks of one block (R52). -/
def checkBlock (b : List Byte) (cols : Nat) (profiles : List (Nat × List Nat)) (i o : Nat) (k : Block) :
    Except Reject PUnit.{1} := do
  let h := k.header
  let bad := fun (c : Nat) => ({ code := c, block := i } : Reject)
  require (o + 4 ≤ b.length) (bad 0x11)
  require (wbits h 26 6 = 0x2D) (bad 0x01)
  require (wbits h 0 8 = headerCheck h) (bad 0x02)
  require (wbits h 8 2 = 0 && (!k.pair || k.col + 1 < cols)) (bad 0x03)
  require (o + 4 * (wbits h 20 6 + 3) ≤ b.length) (bad 0x11)
  require (crc32 k.covered = k.trailer) (bad 0x04)
  match profiles.find? (·.1 = k.prof) with
  | none => .error (bad 0x05)
  | some p => checkAll (checkWord i k.words k.pair k.routes p.2) (numbered k.words)

/-! ## Image-level checks (R329 steps 7, 9-15) -/

/-- The block that configures a logical tile. -/
def blockFor (bs : List Block) (c r : Nat) : Option Block := bs.find? fun b => b.tiles.contains (c, r)

/-- A route word keeps R71 and names a tile of the rectangle. -/
def routeGood (w : Word32) (cols rows : Nat) : Bool :=
  wbits w 28 3 = 0 && wbits w 0 3 = 0 && wbits w 3 3 < 4 &&
  (wbits w 31 1 = 0 || (wbits w 20 8 < cols && wbits w 12 8 < rows))

/-- Step 9 for one record. -/
def routeChecked (bs : List Block) (cols rows : Nat) (w : Word32) : Bool :=
  routeGood w cols rows && (wbits w 31 1 = 0 ||
    match blockFor bs (wbits w 20 8) (wbits w 12 8) with
    | some b => consumerThere b.words (wbits w 6 6) (wbits w 3 3)
    | none => false)

/-- Step 10 for one pair. -/
def paramChecked (b : Block) (p : Nat × Word) : Bool :=
  p.1 < b.words.length && b.words.getD p.1 0xFF03FFFF ≠ 0xFF03FFFF &&
  (bits p.2 56 8 ≠ 0 || (bits p.2 20 36 = 0 && bits p.2 6 6 ≤ bits p.2 0 6))

/-- An ACTOR record (R330). -/
structure ActorRec where
  chan : Nat
  region : Nat
  nin : Nat
  nout : Nat
  slots : Nat
  zeros : Bool
deriving DecidableEq, Repr

/-- The ACTOR records: as many as the section's length holds, whatever COUNT says; a rest is ignored (log 83). -/
def actorRecs (d : List Byte) : List ActorRec :=
  let b := sectionBytes d 6
  (List.range (b.length / 16)).map fun k =>
    let o := 16 * k
    { chan := leAt b o 2, region := leAt b (o + 2) 1, nin := leAt b (o + 3) 1, nout := leAt b (o + 4) 1,
      slots := leAt b (o + 8) 2, zeros := leAt b (o + 5) 3 = 0 && leAt b (o + 10) 6 = 0 }

/-- The records of one channel keep R330. -/
def channelGood (regions : List Nat) (l : List ActorRec) (a : ActorRec) : Bool :=
  let same := l.filter fun r => r.chan = a.chan
  a.zeros && (same.filter fun r => 0 < r.nout).length = 1 && (same.filter fun r => 0 < r.nin).length = 1 &&
  same.all fun r => r.slots = a.slots && r.nout ≤ r.slots && r.nin ≤ r.slots && regions.contains r.region

/-- The channels: producer, consumer, counts, with FS at SLOTS (R102, R330). -/
def channelsOf (l : List ActorRec) : List Actor :=
  (l.filter fun r => 0 < r.nout).filterMap fun p =>
    (l.find? fun c => c.chan = p.chan && 0 < c.nin).map fun c =>
      { chan := p.chan, producer := p.region, consumer := c.region, nin := c.nin, nout := p.nout, slots := p.slots,
        fs := BitVec.ofNat 16 p.slots }

/-- Regions left when those without an edge to one left are taken away, n times. -/
def peel (edges : List (Nat × Nat)) : Nat → List Nat → List Nat
  | 0, l => l
  | n + 1, l => peel edges n (l.filter fun r => edges.any fun e => e.1 = r && l.contains e.2)

/-- R331: a cycle whose SLOTS sum to zero runs over channels of 0 slots alone. -/
def zeroLoop (as : List Actor) (regions : List Nat) : Bool :=
  let edges := (as.filter fun a => a.slots = 0).map fun a => (a.producer, a.consumer)
  !(peel edges regions.length regions).isEmpty

/-- The logical tiles that hold members of a region. -/
def regionTiles (bs : List Block) (r : Nat) : List (Nat × Nat) :=
  bs.flatMap fun b => if b.regions.contains r then b.tiles else []

/-- Numbers that lie within n of one another. -/
def within (n : Nat) (l : List Nat) : Bool := l.all fun a => l.all fun b => a < b + n

/-- The CUT words (R70). -/
def cutWords (d : List Byte) : List Word32 :=
  let b := sectionBytes d 7
  (List.range (b.length / 4)).map fun k => word32At b (4 * k)

/-- Step 14 for one word. -/
def cutGood (bs : List Block) (w : Word32) : Bool :=
  wbits w 14 2 = 0 && wbits w 3 5 = 0 && wbits w 0 3 ≤ 5 &&
  match blockFor bs (wbits w 24 8) (wbits w 16 8) with
  | some b =>
    let op := wbits (b.words.getD (wbits w 8 6) 0xFF03FFFF) 24 8
    0x60 ≤ op && op ≤ 0x67
  | none => false

/-- The SEED entries: route word and n with its zeros (R70). -/
def seedWords (d : List Byte) : List (Word32 × Nat) :=
  let b := sectionBytes d 8
  (List.range (Nat.min (sectionOf d 8).count (b.length / 8))).map fun k => (word32At b (8 * k), leAt b (8 * k + 4) 4)

/-- Step 15: each entry names a set route within the rectangle and a port number of its own; a section too short, or a
high word with [31:8] set, is rejected, and bytes behind the last entry are ignored (log 83). -/
def seedsGood (d : List Byte) (cols rows : Nat) : Bool :=
  let l := seedWords d
  8 * (sectionOf d 8).count ≤ (sectionOf d 8).len && (l.map (·.2)).eraseDups.length = l.length &&
  l.all fun e => e.2 < 256 && wbits e.1 31 1 = 1 && routeGood e.1 cols rows

/-! ## Helm code (R329 step 16, R332) -/

/-- A thread record's code, if the record lies in the section. -/
def helmAt (b : List Byte) (k : Nat) : HelmCode :=
  let o := 16 * k
  let off := leAt b (o + 4) 4
  let len := leAt b (o + 8) 4
  { col := leAt b o 1, row := leAt b (o + 1) 1, unit := leAt b (o + 2) 1, thread := leAt b (o + 3) 1, off,
    words := if b.length < off + len then [] else (List.range (len / 4)).map fun j => word32At b (off + 4 * j) }

/-- Where a word of helm code goes in the graph of R332: branch or jump by words, indirect, or on. -/
inductive Flow where
  | next
  | branch (off : Int)
  | jump (off : Int)
  | indirect
  | stop
deriving DecidableEq, Repr

/-- The flow of a code word (R33, R332). -/
def flowOf (w : Word32) : Flow :=
  match decodeHelm w.toNat with
  | .error _ => .stop
  | .ok i => match i with
    | .beq _ _ o | .bne _ _ o | .blt _ _ o | .bge _ _ o | .bltu _ _ o | .bgeu _ _ o => .branch o.toInt
    | .j o | .jal o => .jump o.toInt
    | .cjr .. | .cjalr .. | .ccall .. => .indirect
    | _ => .next

/-- A yield check of R332. -/
def yieldCheck (w : Word32) : Bool :=
  match decodeHelm w.toNat with
  | .error _ => false
  | .ok i => match i with
    | .ssend .. | .sseed .. | .sload .. | .srecv .. | .sdrain .. | .sbar | .msend .. | .mrecv .. | .ecopy ..
    | .egather .. | .ecoll .. | .bwait .. | .barvw .. | .bcst .. | .bcfence | .tlbsync | .sleep .. | .syield => true
    | .trap c => c = 0
    | _ => false

/-- The cost of a word: 4 + L (R332). -/
def wordCost (w : Word32) : Nat :=
  4 + match decodeHelm w.toNat with
    | .error _ => 1
    | .ok i => match i with
      | .gstat .. => 512
      | .ldc .. | .ldcc .. | .qpush .. | .ldisc .. | .amoswap .. | .amoadd .. | .amoand .. | .amoor .. | .amoxor ..
      | .amomin .. | .amomax .. | .amominu .. | .amomaxu .. | .amocas .. => 256
      | .fence s => if s = .lane || s = .element || s = .tile then 1 else 256
      | i => latencyOf i

/-- The words that may follow word j of n (R332). -/
def successors (n j : Nat) (w : Word32) : List Nat :=
  let at' := fun (o : Int) => if 0 ≤ (j : Int) + o && (j : Int) + o < n then [((j : Int) + o).toNat] else []
  match flowOf w with
  | .next => at' 1
  | .branch o => (at' 1 ++ at' o).eraseDups
  | .jump o => at' o
  | .indirect | .stop => []

/-- Costs of the runs of at most k + 1 words from every word, a yield check ending a run: the cost of a word
and the greatest among its successors. -/
def runCosts (cost : Array Nat) (succ : Array (List Nat)) : Nat → Array Nat
  | 0 => cost
  | k + 1 =>
    let prev := runCosts cost succ k
    (Array.range cost.size).map fun j =>
      cost.getD j 0 + ((succ.getD j []).map fun i => prev.getD i 0).foldl Nat.max 0

/-- R332: no cycle without a yield check, and no path above YLIM. -/
def yieldsInTime (words : List Word32) (ylim : Nat) : Bool :=
  let n := words.length
  let all := (numbered words).map fun p => successors n p.1 p.2
  let inner := ((words.zip all).map fun p => if yieldCheck p.1 then [] else p.2).toArray
  let base := (words.map wordCost).toArray
  let free := runCosts base inner n
  let lany := free.foldl Nat.max 0
  let cost := (words.map fun w => wordCost w + (if flowOf w = .indirect then lany else 0)).toArray
  let full := runCosts cost inner n
  let starts := 0 :: (words.zip all).flatMap fun p => if yieldCheck p.1 then p.2 else []
  free = runCosts base inner (n + 1) && starts.all fun j => full.getD j 0 ≤ ylim

/-- Step 16 for record k; a record beyond the section is rejected (log 83). -/
def helmGood (b : List Byte) (bs : List Block) (before : List HelmCode) (k : Nat) : Bool :=
  let h := helmAt b k
  let len := leAt b (16 * k + 8) 4
  16 * k + 16 ≤ b.length && (blockFor bs h.col h.row).isSome && h.unit ≤ 1 && h.thread ≤ 3 &&
  leAt b (16 * k + 12) 4 = 0 &&
  !(before.any fun o => o.col = h.col && o.row = h.row && o.unit = h.unit && o.thread = h.thread) &&
  0 < len && len % 4 = 0 && h.off + len ≤ b.length &&
  (numbered h.words).all fun p => match flowOf p.2 with
    | .branch o | .jump o => 0 ≤ (p.1 : Int) + o && (p.1 : Int) + o < h.words.length
    | _ => true

/-! ## Iteration lengths (R333) -/

/-- The II of a slot by its SCHED words (R57, R99). -/
def iiOf (b : Block) (n : Nat) : Nat :=
  b.params.foldl (fun r p => if p.1 = n && bits p.2 56 8 = 0 then bits p.2 0 6 + 1 else r) 1

/-- The counts of a slot's present dimensions (R141). -/
def countsOf (b : Block) (n : Nat) : List Nat :=
  ((List.range 6).map fun e =>
    b.params.foldl (fun r p => if p.1 = n && bits p.2 56 8 = 0x10 + e && bits p.2 24 32 = 0 then bits p.2 0 24 else r) 0)
    |>.takeWhile (· ≠ 0)

/-- An address generator's iteration keeps k.YLIM in each tile of its block, by the cut that names it there (R333). -/
def iterationGood (cuts : List Word32) (ylim : Nat) (b : Block) (n : Nat) : Bool :=
  let ds := countsOf b n
  b.tiles.all fun t =>
    match cuts.find? fun w => (wbits w 24 8, wbits w 16 8) = t && wbits w 8 6 = n with
    | some w => (ds.take (wbits w 0 3 + 1)).foldl (· * ·) (iiOf b n) ≤ ylim
    | none => !ds.isEmpty && ds.foldl (· * ·) (iiOf b n) ≤ ylim

/-- The address generators of a block but axlat. -/
def generatorsOf (b : Block) : List Nat :=
  (List.range 8).filterMap fun k =>
    let op := wbits (b.words.getD (40 + k) 0xFF03FFFF) 24 8
    if 0x60 ≤ op && op ≤ 0x67 && op ≠ 0x66 then some (40 + k) else none

/-! ## The whole check (R329) -/

/-- What the loader knows beside the image's bytes: tiles owned, public keys by identifier, service mode,
k.YLIM, and the context's DRAIN. -/
structure LoadSetting where
  owned : Nat
  keys : List (Nat × List Byte)
  service : Bool
  ylim : Nat
  drain : Nat
deriving DecidableEq, Repr

/-- Step 6: the signature of R72. -/
def signatureGood (d key : List Byte) : Bool :=
  let x := sectionOf d 15
  ed448Verify key (shake256 (d.take x.off)) (sliceAt d (x.off + 8) 114)

/-- Steps 5 and 6. -/
def checkSignature (d : List Byte) (e : LoadSetting) : Except Reject PUnit.{1} :=
  let x := sectionOf d 15
  match e.keys.find? fun k => k.1 = leAt d x.off 8 with
  | none => .error { code := 0x24 }
  | some k => require (signatureGood d k.2) { code := 0x25 }

/-- The CHART entries (R70): column and row. -/
def chartAt (d : List Byte) (i : Nat) : Nat × Nat :=
  let w := word32At (sectionBytes d 4) (4 * i)
  (wbits w 8 8, wbits w 0 8)

/-- The image's blocks in order (R44, R70). -/
def imageBlocks (d : List Byte) : List (Nat × Block) :=
  let b := sectionBytes d 2
  let n := (sectionOf d 2).count
  let os := blockOffsets b 0 n
  let rs := (routesOf d n).1
  let ps := (paramsOf d n).1
  (List.range n).map fun i =>
    (os.getD i 0, blockAt b (os.getD i 0) (chartAt d i).1 (chartAt d i).2 (rs.getD i []) (ps.getD i []))

/-- Step 7. -/
def chartGood (d : List Byte) (bs : List Block) (cols rows : Nat) : Bool :=
  let ts := bs.flatMap Block.tiles
  (List.range bs.length).all (fun i => wbits (word32At (sectionBytes d 4) (4 * i)) 16 16 = 0) &&
  ts.all (fun t => t.1 < cols && t.2 < rows) && ts.eraseDups.length = ts.length

/-- Steps 16 to 19: helm code, its paths, iterations, DRAIN. -/
def checkTiming (d : List Byte) (e : LoadSetting) (bs : List Block) (hs : List HelmCode) : Except Reject PUnit.{1} := do
  let b := sectionBytes d 10
  checkAll (fun (k : Nat) => require (helmGood b bs (hs.take k) k) { code := 0x2E, block := k }) (List.range hs.length)
  if e.service then
    require (1 ≤ leAt d 24 4 && leAt d 24 4 ≤ e.drain) { code := 0x31 }
  else
    checkAll (fun (p : Nat × HelmCode) => require (yieldsInTime p.2.words e.ylim) { code := 0x2F, block := p.1 })
      (numbered hs)
    require (bs.all fun k => (generatorsOf k).all (iterationGood (cutWords d) e.ylim k)) { code := 0x30 }

/-- Steps 9 to 15. -/
def checkBodies (d : List Byte) (bs : List Block) (cols rows : Nat) : Except Reject PUnit.{1} := do
  let n := bs.length
  let rs := (bs.flatMap Block.regions).eraseDups
  let recs := actorRecs d
  require (!(routesOf d n).2 && bs.all fun b => b.routes.all (routeChecked bs cols rows)) { code := 0x27 }
  require (!(paramsOf d n).2 && bs.all fun b => b.params.all (paramChecked b)) { code := 0x28 }
  require (recs.all (channelGood rs recs)) { code := 0x29 }
  require (!zeroLoop (channelsOf recs) rs) { code := 0x2A }
  require (rs.all fun r => within 4 ((regionTiles bs r).map (·.1)) && within 4 ((regionTiles bs r).map (·.2)))
    { code := 0x2B }
  require ((cutWords d).all (cutGood bs)) { code := 0x2C }
  require (seedsGood d cols rows) { code := 0x2D }

/-- The image of checked bytes (R69, R70). -/
def imageOf (d : List Byte) (bs : List Block) (hs : List HelmCode) : Image :=
  { cols := leAt d 12 2, rows := leAt d 14 2, cfgid := leAt d 28 4, drain := leAt d 24 4,
    profiles := profilesOf d, blocks := bs, actors := channelsOf (actorRecs d),
    cuts := (cutWords d).map fun w => (wbits w 24 8, wbits w 16 8, wbits w 8 6, wbits w 0 3),
    seeds := (seedWords d).map fun p => (p.2, p.1), helm := hs }

/-- The loader's checks 2 to 19 of an image of LEN bytes, in order (R329). -/
def verifyImage (d : List Byte) (e : LoadSetting) : Except Reject Image := do
  require (leAt d 0 4 = 0x314A4B49 && leAt d 6 2 = 1) { code := 0x21 }
  require (headerGood d e.owned) { code := 0x22 }
  require (directoryGood d) { code := 0x23 }
  checkSignature d e
  let cols := leAt d 12 2
  let rows := leAt d 14 2
  require ((sectionOf d 4).len = 4 * (sectionOf d 2).count) { code := 0x26 }
  let obs := imageBlocks d
  let bs := obs.map (·.2)
  require (chartGood d bs cols rows) { code := 0x26 }
  checkAll (fun (p : Nat × Nat × Block) => checkBlock (sectionBytes d 2) cols (profilesOf d) p.1 p.2.1 p.2.2)
    (numbered obs)
  require ((blockOffsets (sectionBytes d 2) 0 bs.length).getLast? = some (sectionOf d 2).len)
    { code := 0x11, block := bs.length }
  checkBodies d bs cols rows
  let hs := (List.range (Nat.min (sectionOf d 10).count ((sectionOf d 10).len / 16 + 1))).map fun k => helmAt (sectionBytes d 10) k
  checkTiming d e bs hs
  return imageOf d bs hs

/-- Which rejection is the tile-count condition of step 3 (R320, R328). -/
def tooFewTiles (d : List Byte) (owned : Nat) : Bool :=
  headerGood d (leAt d 12 2 * leAt d 14 2) && !headerGood d owned

end Sys2Proof.Machine
end

