-- ==== Sys2Proof/Machine/Queue.lean ====
section
/-! DEFINITION. Queues of launch records: configuration, status, submission (R312, R315-R320). -/

namespace Sys2Proof.Machine

/-- The number in bytes lo to lo + n - 1 of a launch record (R312). -/
def recField (r : BitVec 512) (lo n : Nat) : Nat := r.toNat / 2 ^ (8 * lo) % 2 ^ (8 * n)
/-- IMGVA (R312). -/
def recImage (r : BitVec 512) : Nat := recField r 0 8
/-- SEEDVA (R312). -/
def recSeedVa (r : BitVec 512) : Nat := recField r 8 8
/-- ARGVA (R312). -/
def recArgVa (r : BitVec 512) : Nat := recField r 16 8
/-- ARGLEN (R312). -/
def recArgLen (r : BitVec 512) : Nat := recField r 24 4
/-- SEEDCNT (R312). -/
def recSeedCount (r : BitVec 512) : Nat := recField r 28 4
/-- WAITi (R312). -/
def recWait (r : BitVec 512) (i : Nat) : Nat := recField r (32 + 4 * i) 4
/-- ARG0 (R312). -/
def recArg0 (r : BitVec 512) : Nat := recField r 48 8
/-- DESIG (R312). -/
def recDesig (r : BitVec 512) : Nat := recField r 56 4
/-- SIGNAL (R312). -/
def recSignal (r : BitVec 512) : Nat := recField r 60 1
/-- FLAGS (R312). -/
def recFlags (r : BitVec 512) : Nat := recField r 61 1

/-- A WAIT word holds (R319). -/
def waitHolds (events : Table (BitVec 16)) (w : Nat) : Bool :=
  if bit w 31 then ((look 0 events (w / 2 ^ 24 % 64)) - BitVec.ofNat 16 w).toNat < 2 ^ 15 else true

/-- Every valid WAIT word of a record holds (R319). -/
def recordReady (events : Table (BitVec 16)) (r : BitVec 512) : Bool :=
  (List.range 4).all fun i => waitHolds events (recWait r i)

namespace State

/-- QCFG (R315). -/
def qcfg (s : State) (q : Nat) : Word :=
  let x := s.queue q
  wd (x.weight * 2 ^ 32 + x.win * 2 ^ 28 + b2n x.vfv * 2 ^ 27 + x.vf * 2 ^ 20 + x.prio * 2 ^ 16 +
    b2n x.bound * 128 + x.ctx)

/-- The status word of a queue (R320). -/
def queueStatus (s : State) (q : Nat) : Word :=
  let x := s.queue q
  let waits := match x.records with
    | r :: _ => !recordReady (s.context x.ctx).events r
    | [] => false
  wd (x.lseq.toNat * 2 ^ 32 + x.rejcnt * 2 ^ 24 + x.lasterr * 2 ^ 16 + x.records.length * 64 +
    b2n x.ovf * 32 + b2n x.badwr * 16 + b2n waits * 8 + x.st)

/-- The answer of QPUSH for a record (R317). -/
def pushCode (s : State) (q : Nat) (r : BitVec 512) : Nat :=
  let x := s.queue q
  if !s.onCore && !(x.bound && x.ctx == s.ctx) then 2
  else if x.st ≠ 1 && x.st ≠ 2 then 3
  else if bit (recDesig r) 15 && s.low then 4
  else if 16 ≤ x.records.length then 1
  else 0

/-- A record at a queue's tail; admission may take it (R314, R317, R321). -/
def appendRecord (s : State) (q : Nat) (r : BitVec 512) : State :=
  (s.setQueue q { s.queue q with records := (s.queue q).records ++ [r] }).post .evAdmission

/-- QPUSH after its record is read (R317). -/
def push (s : State) (d : Reg) (q : Nat) (r : BitVec 512) : State :=
  let code := s.pushCode q r
  (if code = 0 then s.appendRecord q r else s).retire d (wd code)

/-- QPUSH (R317). -/
def pushRecord (s : State) (d : Reg) (c : Cap) (q : Nat) : State :=
  match s.accessFault c c.lo 64 (permLoad + permConfig) 64 false with
  | some f => s.trapCap f c.lo
  | none => match s.helmLoad c c.lo 64 Need.load with
    | .error t => t
    | .ok (v, s1) => if v.poi then s1.trap 5 0 c.lo
      else s1.push d q (BitVec.ofNat 512 (fromBytes v.bytes))

/-- A write that changes BOUND, CTX, VF, VFV or WIN is discarded as a whole (R315). -/
def qcfgRefused (s : State) (q : Nat) (v : Word) : Bool :=
  let x := s.queue q
  let c := bits v 0 7
  let vf := bits v 20 6
  let win := bits v 28 4
  let changes := ebit27 v != x.vfv || vf != x.vf || win != x.win || (bits v 7 1 == 1) != x.bound || c != x.ctx
  let cst := (s.context c).st
  changes && !(bits v 7 1 == 0) &&
    (cst == 0 || cst == 8 || cst == 7 || !x.records.isEmpty ||
      (ebit27 v && (s.iface vf).part != (s.context c).part) ||
      (ebit27 v && s.queues.any fun p => p.1 != q && p.2.vfv && p.2.vf == vf && p.2.win == win))
where
  /-- VFV of an operand. -/
  ebit27 (v : Word) : Bool := bits v 27 1 == 1

/-- The state a queue binds to, by its context's state (R316). -/
def boundState (st : Nat) : Nat := if st = 2 || st = 3 then 1 else 2

/-- A queue bound to a context afresh: by its state, counts at zero (R316). -/
def bindQueue (s : State) (q : Nat) (y : Queue) : State :=
  (s.setQueue q { y with st := boundState (s.context y.ctx).st, lseq := 0, rejcnt := 0 }).post .evAdmission

/-- A queue unbound: its records and the handles of its retired groups go (R315, R316, R425). -/
def unbindQueue (s : State) (q : Nat) (y : Queue) : State :=
  { s.setQueue q { y with st := 0, records := [], unreadable := false, ready := false, got := [], gotN := 0, held := false } with
    groups := s.groups.filter fun g => g.2.queue ≠ q || g.2.st ≠ .retired }

/-- A write of QCFG (R315, R316); a WEIGHT of 0 leaves that field. -/
def writeQcfg (s : State) (q : Nat) (v : Word) : State :=
  let x := s.queue q
  let w := bits v 32 8
  let bound := bits v 7 1 == 1
  if s.qcfgRefused q v then s
  else
    let y := { x with weight := if w = 0 then x.weight else w, win := bits v 28 4, vfv := bits v 27 1 == 1,
                      vf := bits v 20 6, prio := bits v 16 3, bound, ctx := bits v 0 7 }
    if !bound then s.unbindQueue q y
    else if x.st = 0 then s.bindQueue q y
    else (s.setQueue q y).postOnce .evAdmission

end State

/-- QPUSH (R317). -/
def execQpush (d : Reg) (a : CReg) (q : BitVec 8) (s : State) : Result :=
  .next (s.pushRecord d (s.c a) q.toNat)

/-- QSTAT (R318): a queue of another context reads zero for U and G. -/
def execQstat (d : Reg) (q : BitVec 8) (s : State) : Result :=
  .next (s.retire d
    (if s.th.priv = 2 || ((s.queue q.toNat).bound && (s.queue q.toNat).ctx == s.ctx) then s.queueStatus q.toNat
     else 0))

/-- QCFG_WRITE (R315). -/
def execEvQcfgWrite (q : Nat) (v : Word) (s : State) : Result := .next (s.writeQcfg q v)

end Sys2Proof.Machine
end

