-- ==== Sys2Proof/Machine/Admission.lean ====
section
/-! DEFINITION. The Pilot's and the loader's reads, window submissions, admission, and the loader's
verification (R312-R321, R324, R326-R329, R399, R402, R425). -/

namespace Sys2Proof.Machine

/-! ## Reads of the base die -/

/-- Why a read of the Pilot or the loader does not give its bytes (R321). -/
inductive ReadStop where
  | fault (va : Nat) (f : WalkFail)
  | poisoned
  | held
deriving DecidableEq, Repr

namespace State

/-- A piece of one line read by the Pilot or the loader through context x's address space; a beacon window
reads the base die's copy, and the Sieve block reads zero (R22, R257, R285, R321, R367, R398). -/
def readPiece (s : State) (x a n : Nat) (r : Record) : Except (ReadStop × State) (List Byte × State) :=
  if s.touchesWindow x a n then
    let b := (s.stack 0).base
    let o := s.windowByte x a
    if b.poison.contains (o / 64) then .error (.poisoned, s) else .ok (b.read o n, s)
  else if s.touchesSieve x a n then .ok (List.replicate n 0, s)
  else match s.chargedWalk { ctx := x } a Need.load with
    | .error (f, s1) => .error (.fault a f, s1)
    | .ok (e, s1) =>
      let p := s1.physBy e a
      if !s1.mayIssue 0 p then .error (.held, s1)
      else
        let l := (s1.charge x 0).loadLine p n (wd a) r
        if l.2.2.1 then .error (.poisoned, l.2.2.2) else .ok (l.1, l.2.2.2)

/-- Pieces read in ascending order: what was read, and where it stopped if it did. -/
def readList (s : State) (x : Nat) (r : Record) (got : List Byte) (n : Nat) :
    List (Nat × Nat) → List Byte × Nat × Option ReadStop × State
  | [] => (got, n, none, s)
  | q :: t =>
    match s.readPiece x q.1 q.2 r with
    | .error e => (got, n, some e.1, e.2)
    | .ok (bs, s1) => readList s1 x r (got ++ bs) (n + 1) t

/-- A read that is held comes again: from its limiter, or in the next fc (R398, R405, R414). -/
def holdRead (s : State) (x : Nat) (i : Instr) : State := if s.limited x 0 then s.holdEvent x 0 i else s.postOnce i

/-- The page record of an admission or loader read (R381, R382). -/
def readRecord (x : Nat) (who : Raiser) (h va : Nat) (f : WalkFail) : Record :=
  pageRecord { src := 5, place := basePlace 0, ctx := some x, group := wd h, raiser := who } (wd va) f

/-- A record of this raiser is raised or stands in a queue (R384). -/
def recordOpen (s : State) (who : Raiser) : Bool :=
  s.raised.any (·.raiser = who) || s.ring.slots.any (fun r => r.2.raiser = who) ||
  s.contexts.any fun c => c.2.fq.slots.any fun r => r.2.raiser = who

/-! ## Submission (R314) -/

/-- The queue with a window at slot w of function v (R314, R315). -/
def windowQueue (s : State) (v w : Nat) : Option Nat :=
  (s.queues.find? fun q => q.2.vfv && q.2.vf = v && q.2.win = w).map (·.1)

/-- A write to the window of queue q (R314): one submission, or discarded with BADWR or OVF. -/
def submit (s : State) (q : Nat) (full : Bool) (r : BitVec 512) : State :=
  let x := s.queue q
  if !full then s.setQueue q { x with badwr := true }
  else if (x.st ≠ 1 && x.st ≠ 2) || 16 ≤ x.records.length then s.setQueue q { x with ovf := true }
  else s.appendRecord q r

/-- A function's requests reach its BAR 0 (R405): CONFIG_UNLOCKED without the T bit, or RUN with
it. -/
def barOpen (s : State) (v : Nat) (t : Bool) : Bool := ((s.iface v).st == 0 && !t) || ((s.iface v).st == 2 && t)

/-! ## Completion and rejection (R316, R324, R328) -/

/-- What completion does (R324): the SIGNAL event, and the function's vector WIN with NOTIFY. -/
def completeLaunch (s : State) (q x : Nat) (r : BitVec 512) : State :=
  let c := s.context x
  let s1 := if bit (recSignal r) 7 then
      (s.setContext x { c with events := upd 0 c.events (recSignal r % 64) (· + 1) }).postOnce .evAdmission else s
  let y := s.queue q
  if bit (recFlags r) 1 && y.vfv then s1.sendMsix y.vf y.win else s1

/-- A record leaves its queue rejected: LASTERR, REJCNT and the LAUNCH record. -/
def rejectRecord (s : State) (q x img err code block slot : Nat) : State :=
  let y := s.queue q
  (s.setQueue q { y with lasterr := err, rejcnt := Nat.min (y.rejcnt + 1) 255 }).raise
    { cause := 7, detail := err, src := 5, place := basePlace 0, ctx := some x, addr := wd img,
      aux := wd (code + block * 2 ^ 8 + slot * 2 ^ 24), group := wd (q * 2 ^ 32) }

/-- A kernel is REJECTED and its group RETIRED (R326, R425); its designation ends. -/
def rejectKernel (s : State) (h err code block slot : Nat) : State :=
  let g := s.group h
  let s1 := s.setGroup h { g with kernel := .rejected, st := .retired }
  let s2 := if bit (recDesig g.launch) 15 then
      s1.setContext g.ctx { s1.context g.ctx with designated := false } else s1
  s2.rejectRecord g.queue g.ctx (recImage g.launch) err code block slot

/-! ## Admission (R321) -/

/-- The malformed records of R312: a field out of range or a nonzero reserved field. -/
def recordMalformed (r : BitVec 512) : Bool :=
  recField r 62 2 ≠ 0 || recFlags r / 4 ≠ 0 || bit (recSignal r) 6 || recDesig r / 8 % 2 ^ 12 ≠ 0 ||
  (List.range 4).any (fun i => bit (recWait r i) 30 || recWait r i / 2 ^ 16 % 256 ≠ 0) ||
  4096 < recSeedCount r || 65536 < recArgLen r || recArgLen r % 16 ≠ 0 || recArgVa r % 16 ≠ 0 ||
  recSeedVa r % 16 ≠ 0 || recImage r % 64 ≠ 0

/-- KIND by its number, as far as a seed may have it (R53, R313). -/
def seedKind (k : Nat) : Option Kind := match k with
  | 0 => some .data | 1 => some .head | 2 => some .tail | 3 => some .solo | 4 => some .loopend | _ => none

/-- A seed entry's port and beat, if it is valid (R54, R313). -/
def seedOf (e : List Byte) : Option (Nat × Beat) :=
  let sb := (e.getD 9 0).toNat
  let v := wd (fromBytes (e.take 8))
  let cfg := bit sb 6
  match seedKind (sb / 8 % 8) with
  | none => none
  | some kind =>
    if bit sb 7 || bit sb 2 || bit sb 0 || (e.drop 10).any (· ≠ 0) || (cfg && kind ≠ .data && kind ≠ .tail) ||
        (kind = .loopend && !cfg && (bits v 3 61 ≠ 0 || 5 < bits v 0 3)) then none
    else some ((e.getD 8 0).toNat, { data := v, kind, cfg, poi := bit sb 1 })

/-- The seed entries of a stream; none if one is invalid (R313). -/
def seedsOf : Nat → List Byte → Option (List (Nat × Beat))
  | 0, _ => some []
  | n + 1, d => match seedOf (d.take 16) with
    | none => none
    | some e => (seedsOf n (d.drop 16)).map (e :: ·)

/-- What admission has found out about a record. -/
inductive Admit where
  | reject (err : Nat)
  | marker
  | launch (seeds : List (Nat × Beat))
  | wait
deriving DecidableEq, Repr

/-- A read of admission that stops: an unreadable byte rejects the record, another is waited for while the Pilot goes on
with other queues (R320, R321). -/
def readStopped (s : State) (q x err : Nat) : ReadStop → Admit × State
  | .poisoned => (.reject err, s)
  | .held => (.wait, (s.setQueue q { s.queue q with held := true }).holdRead x .evAdmission)
  | .fault va f =>
    if (s.queue q).unreadable then (.reject err, s)
    else (.wait, ((s.setQueue q { s.queue q with ready := false }).raise
      (readRecord x (.admission q) 0 va f)).postOnce .evAdmission)

/-- Admission reads on for the head record of queue q, up to the given pieces; what it has read is kept (R321). -/
def readOn (s : State) (q x : Nat) (ps : List (Nat × Nat)) : Option ReadStop × State :=
  let y := s.queue q
  let r := s.readList x (baseSource 5 0 0) y.got y.gotN (ps.drop y.gotN)
  (r.2.2.1, r.2.2.2.setQueue q { r.2.2.2.queue q with got := r.1, gotN := r.2.1, held := false })

/-- Admission's checks of a head record, in the order of LASTERR's numbers, and its reads (R312, R313, R320,
R321; log 44). -/
def examine (s : State) (q x : Nat) (r : BitVec 512) : Admit × State :=
  if recordMalformed r then (.reject 1, s)
  else if recImage r = 0 then (.marker, s)
  else if !canonical (wd (recImage r)) then (.reject 2, s)
  else
    let n := 16 * recSeedCount r
    let ps := linePieces (recSeedVa r % 2 ^ 57) n
    match s.readOn q x ps with
    | (some e, s1) => s1.readStopped q x 3 e
    | (none, s1) => match seedsOf (recSeedCount r) ((s1.queue q).got.take n) with
      | none => (.reject 3, s1)
      | some seeds =>
        if bit (recDesig r) 15 && (s.context x).designated then (.reject 4, s1)
        else match s1.readOn q x (ps ++ linePieces (recArgVa r % 2 ^ 57) (recArgLen r)) with
          | (some e, s2) => s2.readStopped q x 7 e
          | (none, s2) => (.launch seeds, s2)

/-- The queue's head record is ready: OPEN, its events reached, no fault of its reads open (R319, R321). -/
def headReady (s : State) (q : Nat) (y : Queue) : Bool :=
  y.bound && y.st = 1 && !s.recordOpen (.admission q) &&
  match y.records with
  | r :: _ => recordReady (s.context y.ctx).events r
  | [] => false

/-- The partition of a queue's context. -/
def queuePart (s : State) (y : Queue) : Nat := (s.context y.ctx).part

/-- The least virtual time of a list of queues. -/
def leastTime (l : List (Nat × Queue)) : Nat := match l with
  | [] => 0
  | q :: t => t.foldl (fun a b => Nat.min a b.2.vtime) q.2.vtime

/-- A queue that becomes ready takes up the virtual time of the ready ones of its priority (R321). -/
def refreshReady (s : State) : State :=
  let was := s.queues.filter fun q => q.2.ready && s.headReady q.1 q.2
  { s with queues := s.queues.map fun q =>
      let now := s.headReady q.1 q.2
      if now && !q.2.ready then
        let peers := was.filter fun o => o.2.prio = q.2.prio && s.queuePart o.2 = s.queuePart q.2
        (q.1, { q.2 with ready := true, vtime := Nat.max q.2.vtime (leastTime peers) })
      else (q.1, { q.2 with ready := now }) }

/-- Whether queue a is admitted before queue b of its partition: priority, virtual time, number (R321). -/
def admitsBefore (a b : Nat × Queue) : Bool :=
  b.2.prio < a.2.prio || (a.2.prio = b.2.prio &&
    (a.2.vtime < b.2.vtime || (a.2.vtime = b.2.vtime && a.1 < b.1)))

/-- The queue that admission takes next (R321): of the first partition in rotation with a ready queue. -/
def nextQueue (s : State) : Option (Nat × Queue) :=
  let ready := s.queues.filter fun q => q.2.ready && !q.2.held
  (List.range 32).findSome? fun i =>
    match ready.filter fun q => s.queuePart q.2 = (s.lastPart + 1 + i) % 32 with
    | [] => none
    | q :: t => some (t.foldl (fun a b => if admitsBefore b a then b else a) q)

/-- The record at the head of queue q is taken: LSEQ, the virtual time and the rotation (R320, R321). -/
def takeHead (s : State) (q : Nat) : State :=
  let y := s.queue q
  { s.setQueue q { y with records := y.records.tail, lseq := y.lseq + 1, unreadable := false, got := [], gotN := 0,
                          held := false, vtime := y.vtime + 65536 / y.weight } with
    lastPart := s.queuePart y, lastAdmit := some s.fc }

/-- The first admission of a context makes it ACTIVE (R300, R321). -/
def firstAdmission (s : State) (x : Nat) : State :=
  let c := s.context x
  if c.st = 2 then s.setContext x { c with st := 3 } else s

/-- LEN is legal (R329 step 1). -/
def lengthGood (len : Nat) : Bool := 64 ≤ len && len % 64 = 0 && len ≤ 67108864

/-- A launch becomes a kernel and its group, SUBMITTED (R326, R425). -/
def startKernel (s : State) (q x : Nat) (r : BitVec 512) (seeds : List (Nat × Beat)) : State :=
  let h := q * 2 ^ 32 + (s.queue q).lseq.toNat
  let g : Group := { ctx := x, queue := q, kernel := .submitted, launch := r, seeds }
  let c := s.context x
  ((s.setContext x { c with designated := c.designated || bit (recDesig r) 15 }).setGroup h g).post (.evImageVerify h)

/-- Queue q is admitted from (R316, R321). -/
def admitFrom (s : State) (q : Nat) (y : Queue) : State :=
  match y.records with
  | [] => s
  | r :: _ =>
    match s.examine q y.ctx r with
    | (.wait, s1) => s1
    | (.reject err, s1) => ((s1.takeHead q).rejectRecord q y.ctx (recImage r) err 0 0 0).postOnce .evAdmission
    | (.marker, s1) => (((s1.takeHead q).firstAdmission y.ctx).completeLaunch q y.ctx r).postOnce .evAdmission
    | (.launch seeds, s1) => (((s1.takeHead q).firstAdmission y.ctx).startKernel q y.ctx r seeds).postOnce .evAdmission

/-- The queues whose reads were held read on, if they may (R321, R398). -/
def readHeld (s : State) : State :=
  (s.queues.filter fun q => q.2.held && q.2.ready).foldl (fun (a : State) q =>
    match (a.queue q.1).records with
    | r :: _ => (a.examine q.1 q.2.ctx r).2
    | [] => a) s

/-- ADMISSION (R321): at most one launch per 64 fc; a queue that may not read waits, and others go on. -/
def admission (s : State) : State :=
  let s2 := s.refreshReady.readHeld
  match s2.nextQueue with
  | none => s2
  | some (q, y) =>
    if s2.fc < ((s2.lastAdmit.map (· + 64)).getD 0) then s2.postOnce .evAdmission
    else s2.admitFrom q y

/-! ## Verification (R326-R329) -/

/-- What the loader knows of a group's context, with k.YLIM and the service mode as they stood when verification began
(R329, R332, R334, R393, R408). -/
def loadSetting (s : State) (h : Nat) : LoadSetting :=
  let g := s.group h
  let c := s.context g.ctx
  let p := s.part c.part
  { owned := (s.ownedTiles g.ctx).length,
    keys := (s.lode.keys.filter fun k => p.keymask.getLsbD k.1 && k.2.1 ≠ 0).map fun k => (k.2.1.toNat, k.2.2),
    service := g.service, ylim := g.ylim, drain := c.drain }

/-- A verification ends in a rejection; NOTILES is LASTERR 6 (R328). -/
def verifyFailed (s : State) (h : Nat) (few : Bool) (r : Reject) : State :=
  s.rejectKernel h (if few then 6 else 5) r.code r.block r.slot

/-- A checked image is taken over: ADMITTED, or SEEDBAD when an entry names a port it does not declare (R313,
R326). -/
def verified (s : State) (h : Nat) (d : List Byte) (m : Image) : State :=
  let g := s.group h
  if g.seeds.all fun e => m.seeds.any fun n => n.1 = e.1 then
    (s.setGroup h { g with kernel := .admitted, copy := [], image := m, actors := m.actors,
                           helmBase := recImage g.launch + (sectionOf d 10).off }).post (.evPilotLease h)
  else s.rejectKernel h 3 0 0 0

/-- A loader's read that stops (R321, R329). -/
def loadStopped (s : State) (h : Nat) : ReadStop → State
  | .poisoned => s.verifyFailed h false { code := 0x20 }
  | .held => s.holdRead (s.group h).ctx (.evImageVerify h)
  | .fault va f =>
    if (s.group h).unreadable then s.verifyFailed h false { code := 0x20 }
    else s.raise (readRecord (s.group h).ctx (.loader h) h va f)

/-- The loader takes the image of a SUBMITTED kernel: it is VERIFYING (R326), under k.YLIM and the service mode as they
stand (R332, R393). -/
def takeImage (s : State) (h : Nat) : State :=
  let g := s.group h
  if g.kernel ≠ .submitted then s
  else s.setGroup h { g with kernel := .verifying, ylim := s.ylim, service := (s.part (s.context g.ctx).part).mode }

/-- The loader copies on, up to n bytes of the image, line by line, each once (R52, R326). -/
def copyImage (s : State) (h n : Nat) : Option ReadStop × State :=
  let g := s.group h
  let r := s.readList g.ctx (baseSource 5 0 h) g.copy 0 ((linePieces (recImage g.launch % 2 ^ 57) n).drop (g.copy.length / 64))
  (r.2.2.1, r.2.2.2.setGroup h { r.2.2.2.group h with copy := r.1 })

/-- IMAGE_VERIFY (R52, R326, R329): the LEN bytes at IMGVA are copied, and the loader's copy of them is checked. -/
def verifyKernel (s0 : State) (h : Nat) : State :=
  let s := s0.takeImage h
  if (s.group h).kernel ≠ .verifying || s.recordOpen (.loader h) then s
  else match s.copyImage h 64 with
    | (some e, s1) => s1.loadStopped h e
    | (none, s1) =>
      let len := leAt (s1.group h).copy 20 4
      if !lengthGood len then s1.verifyFailed h false { code := 0x20 }
      else match s1.copyImage h len with
        | (some e, s2) => s2.loadStopped h e
        | (none, s2) =>
          let d := (s2.group h).copy
          let e := s2.loadSetting h
          match verifyImage d e with
          | .error r => s2.verifyFailed h (r.code = 0x22 && tooFewTiles d e.owned) r
          | .ok m => s2.verified h d m

end State

/-- A posted write of function v to its queue windows, at offset o from the first: with SUBEN one of 64 aligned
bytes, all enabled (`full`), is a submission (R314, R402). -/
def State.windowWrite (s : State) (v o : Nat) (full : Bool) (r : BitVec 512) : State :=
  if !(s.iface v).force.getLsbD 0 then s
  else match s.windowQueue v (o / 64) with
    | some q => s.submit q (full && o % 64 = 0) r
    | none => s

/-- QUEUE_SUBMIT (R314): a posted write of function v at offset o of its BAR 0, with the T bit where `t`; `f` tells
that it has 64 bytes, all enabled. -/
def execEvQueueSubmit (v o : Nat) (t f : Bool) (r : BitVec 512) (s : State) : Result :=
  .next (if s.barOpen v t && 0x20000 ≤ o && o < 0x20400 then s.windowWrite v (o - 0x20000) f r else s)

/-- ADMISSION (R321). -/
def execEvAdmission (s : State) : Result := .next s.admission

/-- IMAGE_VERIFY (R329). -/
def execEvImageVerify (g : Nat) (s : State) : Result := .next (s.verifyKernel g)

end Sys2Proof.Machine
end

