-- ==== Sys2Proof/Machine/Alu.lean ====
section
/-! DEFINITION. Integer, bit, compare, multiply, divide and immediate instructions of the helm thread
(R217-R219). Each writes its result and goes to the next word; nothing traps. -/

namespace Sys2Proof.Machine

/-- ADD (R217). -/
def execAdd (d a b : Reg) (s : State) : Result := .next (s.retire d (s.g a + s.g b))
/-- SUB (R217). -/
def execSub (d a b : Reg) (s : State) : Result := .next (s.retire d (s.g a - s.g b))
/-- AND (R217). -/
def execAnd (d a b : Reg) (s : State) : Result := .next (s.retire d (s.g a &&& s.g b))
/-- OR (R217). -/
def execOr (d a b : Reg) (s : State) : Result := .next (s.retire d (s.g a ||| s.g b))
/-- XOR (R217). -/
def execXor (d a b : Reg) (s : State) : Result := .next (s.retire d (s.g a ^^^ s.g b))
/-- ANDN (R217). -/
def execAndn (d a b : Reg) (s : State) : Result := .next (s.retire d (s.g a &&& ~~~(s.g b)))

/-- The shift amount b[5:0] (R217). -/
def shiftBy (s : State) (b : Reg) : Nat := bits (s.g b) 0 6

/-- SLL (R217). -/
def execSll (d a b : Reg) (s : State) : Result := .next (s.retire d (s.g a <<< shiftBy s b))
/-- SRL (R217). -/
def execSrl (d a b : Reg) (s : State) : Result := .next (s.retire d (s.g a >>> shiftBy s b))
/-- SRA (R217). -/
def execSra (d a b : Reg) (s : State) : Result := .next (s.retire d ((s.g a).sshiftRight (shiftBy s b)))
/-- MIN (R217). -/
def execMin (d a b : Reg) (s : State) : Result :=
  .next (s.retire d (if (s.g a).slt (s.g b) then s.g a else s.g b))
/-- MAX (R217). -/
def execMax (d a b : Reg) (s : State) : Result :=
  .next (s.retire d (if (s.g a).slt (s.g b) then s.g b else s.g a))
/-- MINU (R217). -/
def execMinu (d a b : Reg) (s : State) : Result :=
  .next (s.retire d (if (s.g a).ult (s.g b) then s.g a else s.g b))
/-- MAXU (R217). -/
def execMaxu (d a b : Reg) (s : State) : Result :=
  .next (s.retire d (if (s.g a).ult (s.g b) then s.g b else s.g a))
/-- CLZ (R217). -/
def execClz (d a : Reg) (s : State) : Result := .next (s.retire d (wd (clzN 64 (s.g a).toNat)))
/-- CTZ (R217). -/
def execCtz (d a : Reg) (s : State) : Result := .next (s.retire d (wd (ctzN 64 (s.g a).toNat)))
/-- POPC (R217). -/
def execPopc (d a : Reg) (s : State) : Result := .next (s.retire d (wd (popcN 64 (s.g a).toNat)))
/-- BILV (R217). -/
def execBilv (d a b : Reg) (s : State) : Result :=
  .next (s.retire d (wd (bilvN 32 (s.g a).toNat (s.g b).toNat)))
/-- BDLV (R217). -/
def execBdlv (d a : Reg) (s : State) : Result := .next (s.retire d (wd (bdlvN 32 (s.g a).toNat)))
/-- SEQ (R217). -/
def execSeq (d a b : Reg) (s : State) : Result := .next (s.retire d (b2w (s.g a == s.g b)))
/-- SNE (R217). -/
def execSne (d a b : Reg) (s : State) : Result := .next (s.retire d (b2w (s.g a != s.g b)))
/-- SLT (R217). -/
def execSlt (d a b : Reg) (s : State) : Result := .next (s.retire d (b2w ((s.g a).slt (s.g b))))
/-- SLTU (R217). -/
def execSltu (d a b : Reg) (s : State) : Result := .next (s.retire d (b2w ((s.g a).ult (s.g b))))
/-- SLE (R217). -/
def execSle (d a b : Reg) (s : State) : Result := .next (s.retire d (b2w ((s.g a).sle (s.g b))))
/-- SLEU (R217). -/
def execSleu (d a b : Reg) (s : State) : Result := .next (s.retire d (b2w ((s.g a).ule (s.g b))))
/-- SEL: d is read as the condition and then written (R217, R38). -/
def execSel (d a b : Reg) (s : State) : Result :=
  .next (s.retire d (if s.g d != 0 then s.g a else s.g b))
/-- MUL (R217). -/
def execMul (d a b : Reg) (s : State) : Result := .next (s.retire d (s.g a * s.g b))
/-- MULHI (R217). -/
def execMulhi (d a b : Reg) (s : State) : Result :=
  .next (s.retire d (wrap ((s.g a).toInt * (s.g b).toInt / 2 ^ 64)))
/-- MULHIU (R217). -/
def execMulhiu (d a b : Reg) (s : State) : Result :=
  .next (s.retire d (wd ((s.g a).toNat * (s.g b).toNat / 2 ^ 64)))
/-- DIV (R217, R114). -/
def execDiv (d a b : Reg) (s : State) : Result :=
  .next (s.retire d (wd (divSigned 64 (s.g a).toNat (s.g b).toNat).quo))
/-- DIVU (R217, R114). -/
def execDivu (d a b : Reg) (s : State) : Result :=
  .next (s.retire d (wd (divUnsigned 64 (s.g a).toNat (s.g b).toNat).quo))
/-- REM (R217, R114). -/
def execRem (d a b : Reg) (s : State) : Result :=
  .next (s.retire d (wd (divSigned 64 (s.g a).toNat (s.g b).toNat).rem))
/-- REMU (R217, R114). -/
def execRemu (d a b : Reg) (s : State) : Result :=
  .next (s.retire d (wd (divUnsigned 64 (s.g a).toNat (s.g b).toNat).rem))

/-- imm16, sign-extended (R35). -/
def simm (i : BitVec 16) : Word := i.signExtend 64
/-- imm16, zero-extended (R35). -/
def zimm (i : BitVec 16) : Word := i.setWidth 64

/-- ADDI (R218). -/
def execAddi (d a : Reg) (i : BitVec 16) (s : State) : Result := .next (s.retire d (s.g a + simm i))
/-- ANDI (R218). -/
def execAndi (d a : Reg) (i : BitVec 16) (s : State) : Result := .next (s.retire d (s.g a &&& zimm i))
/-- ORI (R218). -/
def execOri (d a : Reg) (i : BitVec 16) (s : State) : Result := .next (s.retire d (s.g a ||| zimm i))
/-- XORI (R218). -/
def execXori (d a : Reg) (i : BitVec 16) (s : State) : Result := .next (s.retire d (s.g a ^^^ zimm i))
/-- SLTI (R218). -/
def execSlti (d a : Reg) (i : BitVec 16) (s : State) : Result :=
  .next (s.retire d (b2w ((s.g a).slt (simm i))))
/-- SLTIU (R218). -/
def execSltiu (d a : Reg) (i : BitVec 16) (s : State) : Result :=
  .next (s.retire d (b2w ((s.g a).ult (zimm i))))
/-- LUI (R218). -/
def execLui (d : Reg) (i : BitVec 16) (s : State) : Result := .next (s.retire d (simm i <<< 16))
/-- SLLI (R218). -/
def execSlli (d a : Reg) (n : BitVec 6) (s : State) : Result :=
  .next (s.retire d (s.g a <<< n.toNat))
/-- SRLI (R218). -/
def execSrli (d a : Reg) (n : BitVec 6) (s : State) : Result :=
  .next (s.retire d (s.g a >>> n.toNat))
/-- SRAI (R218). -/
def execSrai (d a : Reg) (n : BitVec 6) (s : State) : Result :=
  .next (s.retire d ((s.g a).sshiftRight n.toNat))
/-- BFX: pos and len - 1 (R219, R39). -/
def execBfx (d a : Reg) (p l : BitVec 6) (s : State) : Result :=
  .next (s.retire d (wd (bfxN (s.g a).toNat p.toNat (l.toNat + 1))))
/-- BFI: pos and len - 1; the old g[d] is read (R219, R39). -/
def execBfi (d a : Reg) (p l : BitVec 6) (s : State) : Result :=
  .next (s.retire d (wd (bfiN (s.g d).toNat (s.g a).toNat p.toNat (l.toNat + 1))))

end Sys2Proof.Machine
end

