-- ==== Sys2Proof/Machine/Branch.lean ====
section
/-! DEFINITION. Branches, jumps and capability calls (R33, R220-R222). -/

namespace Sys2Proof.Machine

/-- Control passes to address t under the present pcc, after FetchCheck; a failure traps CAP with EVAL
the target and has no other effect (R220). -/
def jumpTo (s : State) (t : Word) : State :=
  match fetchCheck s.low s.th.pcc t with
  | some f => s.trapCap f t
  | none => s.setTh { s.th with pcc := { s.th.pcc with lo := t } }

/-- The target of an HB branch (R33). -/
def branchTarget (s : State) (o : BitVec 16) : Word := s.pc + (o.signExtend 64 <<< 2)
/-- The target of an HJ jump (R33). -/
def jumpTarget (s : State) (o : BitVec 26) : Word := s.pc + (o.signExtend 64 <<< 2)

/-- A branch: taken it jumps, not taken it makes no check (R221). -/
def branch (s : State) (taken : Bool) (o : BitVec 16) : State :=
  if taken then jumpTo s (branchTarget s o) else s.advance

/-- BEQ (R221). -/
def execBeq (a b : Reg) (o : BitVec 16) (s : State) : Result := .next (branch s (s.g a == s.g b) o)
/-- BNE (R221). -/
def execBne (a b : Reg) (o : BitVec 16) (s : State) : Result := .next (branch s (s.g a != s.g b) o)
/-- BLT (R221). -/
def execBlt (a b : Reg) (o : BitVec 16) (s : State) : Result :=
  .next (branch s ((s.g a).slt (s.g b)) o)
/-- BGE (R221). -/
def execBge (a b : Reg) (o : BitVec 16) (s : State) : Result :=
  .next (branch s (!(s.g a).slt (s.g b)) o)
/-- BLTU (R221). -/
def execBltu (a b : Reg) (o : BitVec 16) (s : State) : Result :=
  .next (branch s ((s.g a).ult (s.g b)) o)
/-- BGEU (R221). -/
def execBgeu (a b : Reg) (o : BitVec 16) (s : State) : Result :=
  .next (branch s (!(s.g a).ult (s.g b)) o)

/-- J (R221). -/
def execJ (o : BitVec 26) (s : State) : Result := .next (jumpTo s (jumpTarget s o))

/-- pcc with address + 4: what JAL and CJALR link (R221, R222); untagged where not representable
(R255). -/
def linkCap (s : State) : Cap := s.th.pcc.setAddr (s.pc + 4)

/-- JAL: the link goes to c15 (R221); no link is written when the check fails (R220). -/
def execJal (o : BitVec 26) (s : State) : Result :=
  .next (match fetchCheck s.low s.th.pcc (jumpTarget s o) with
    | some f => s.trapCap f (jumpTarget s o)
    | none => jumpTo (s.setC 15 (linkCap s)) (jumpTarget s o))

/-- pcc becomes a capability that was checked (R222). -/
def setPcc (s : State) (x : Cap) : State := s.setTh { s.th with pcc := x }

/-- CJR (R222). -/
def execCjr (a : CReg) (s : State) : Result :=
  .next (match fetchCheck s.low (s.c a) (s.c a).lo with
    | some f => s.trapCap f (s.c a).lo
    | none => setPcc s (s.c a))

/-- CJALR: c[a] is read before c[d] is written (R222). -/
def execCjalr (d a : CReg) (s : State) : Result :=
  .next (match fetchCheck s.low (s.c a) (s.c a).lo with
    | some f => s.trapCap f (s.c a).lo
    | none => (setPcc s (s.c a)).setC d (linkCap s))

/-- The first failing check of CCALL, in the order TAG, SEAL, PERM, BOUNDS, ALIGN (R222). -/
def ccallCheck (s : State) (x y : Cap) : Option CapFault :=
  if !x.tag || !y.tag then some .tag
  else if x.sealType = 0 || x.sealType ≠ y.sealType then some .seal
  else if !x.has permExecute || y.has permExecute then some .perm
  else fetchCheck s.low (x.withSeal 0) x.lo

/-- CCALL (R222): c14 := c[d] unsealed, pcc := c[a] unsealed. -/
def execCcall (a d : CReg) (s : State) : Result :=
  .next (match ccallCheck s (s.c a) (s.c d) with
    | some f => s.trapCap f (s.c a).lo
    | none => setPcc (s.setC 14 ((s.c d).withSeal 0)) ((s.c a).withSeal 0))

end Sys2Proof.Machine
end

