-- ==== Sys2Proof/Machine/Kernel.lean ====
section
/-! DEFINITION. The kernel from its lease to its end: lease, configuration, arming, start, seeds, completion
(R322-R324, R326, R327, R335-R340, R392, R419, R425, R426). -/

namespace Sys2Proof.Machine
namespace State

/-! ## Leasing (R326, R339, R340) -/

/-- The logical tiles of an image that have no block (R426). -/
def bareTiles (m : Image) (l : List (Nat × Nat × Nat)) : List Nat :=
  (l.filter fun t => (blockOf m t.1 t.2.1).isNone).map (·.2.2)

/-- A placement stands on several stacks (R337, R341). -/
def crossesStacks (l : List (Nat × Nat × Nat)) : Bool :=
  l.any fun t => stackOfTile t.2.2 ≠ stackOfTile (originOf l)

/-- A group is LEASED on a placement: Charts written, tiles without a block reported (R339, R342, R426). -/
def leaseGroup (s : State) (h : Nat) (l : List (Nat × Nat × Nat)) : State :=
  let s1 := l.foldl (fun (a : State) t => a.clearRows h t.2.2) s
  let s2 := s1.writeChart h l
  let g := s2.group h
  (s2.setGroup h { g with
    st := .leased, kernel := .placed, nextBlock := 0, reported := bareTiles g.image l, regions := [],
    started := !crossesStacks l, acks := [] }).post (.evTileConfigure h)

/-- A compaction of group k would begin now (R340, R349). -/
def wouldCompact (s : State) (k : Nat) (g : Group) : Bool :=
  (g.st = .firing || g.st = .gated || g.st = .cut) && !s.commandBegun k &&
  match s.findPlace k 0x4000 with
  | some l => originOf l < g.origin
  | none => false

/-- The free tiles of a context (R340). -/
def freeTiles (s : State) (h x : Nat) : List Nat := (s.ownedTiles x).filter (s.tileFree h x)

/-- No placement exists: the Pilot compacts if enough tiles are free, and looks again while a compaction is
under way (R340). -/
def compactFor (s : State) (h : Nat) : State :=
  let g := s.group h
  if (s.freeTiles h g.ctx).length < g.image.cols * g.image.rows then s
  else match s.groups.find? fun k => k.2.ctx = g.ctx && s.wouldCompact k.1 k.2 with
    | some k => (s.post (.evCompaction k.1)).postOnce (.evPilotLease h)
    | none =>
      if s.groups.any fun k => k.2.ctx = g.ctx && k.2.commands.any fun c => c.sub = 2 && c.holder = .pilot then
        s.postOnce (.evPilotLease h)
      else s

/-- The Pilot's own lease (R326, R340, R346): ADMITTED, context ACTIVE, the lease not withheld. -/
def ownLease (s : State) (h : Nat) : State :=
  let g := s.group h
  if g.st ≠ .unplaced || g.kernel ≠ .admitted || (s.context g.ctx).st ≠ 3 then s
  else if s.leaseLate h then s.postOnce (.evPilotLease h)
  else match s.findPlace h 0x4000 with
    | some l => s.leaseGroup h l
    | none => s.compactFor h

/-- The Pilot's own re-placement of an EVICTED group, or the commit of one (R339, R350). -/
def ownReplace (s : State) (h : Nat) : State :=
  if s.leaseLate h then s.postOnce (.evPilotLease h)
  else match s.findPlace h 0x4000 with
    | some l => (s.replaceGroup h l).endReplace h none
    | none => s

/-- GPLACE of an UNPLACED group (R353): it waits while the image is verified; the Charts are written in the fc after the
place is chosen (log 102). -/
def placeFirstTime (s : State) (h : Nat) (c : GCommand) : State :=
  let g := s.group h
  if g.kernel ≠ .admitted then s
  else if (s.context g.ctx).st ≠ 3 then s.finishCommand h c 2
  else if c.begun then
    match s.planCode h c.place with
    | 0 => (s.leaseGroup h c.place).finishCommand h c 0
    | 4 => s.finishCommand h c 4
    | _ => s.finishCommand h c 3
  else if s.leaseLate h then s.post (.evPilotLease h)
  else match s.findPlace h c.word with
    | some l => (s.planCommand h c l).post (.evPilotLease h)
    | none => s.finishCommand h c 3

/-- GPLACE of an EVICTED group: MOVING, then the commit or the rollback (R339, R350, R353). -/
def placeAgain (s : State) (h : Nat) (c : GCommand) : State :=
  if (s.group h).st = .moving then
    match s.planCode h c.place with
    | 0 => (s.replaceGroup h c.place).endReplace h (some c)
    | v => (s.setGroup h { s.group h with st := .evicted }).finishCommand h c v
  else if s.leaseLate h then s.post (.evPilotLease h)
  else match s.findPlace h c.word with
    | none => s.finishCommand h c 3
    | some l =>
      let s1 := s.planCommand h c l
      (s1.setGroup h { s1.group h with st := .moving }).post (.evPilotLease h)

/-- PILOT_LEASE (R326, R339, R340, R350, R353): a recorded GPLACE, or the Pilot's own lease. -/
def pilotLease (s : State) (h : Nat) : State :=
  match s.commandOf h 1 none with
  | some _ => s.takeCommand h 1 none (.evPilotLease h) fun a d =>
      let g := a.group h
      if g.st = .unplaced then a.placeFirstTime h d
      else if g.st = .evicted || (g.st = .moving && d.begun) then a.placeAgain h d
      else a.finishCommand h d 2
  | none => if (s.group h).st = .evicted then s.ownReplace h else s.ownLease h

/-! ## Configuration (R335, R426) -/

/-- A slot as the element word of its block configures it; NOP, and a 64-fold element's word in the right
tile of a pair, leave it EMPTY (R44, R48, R98, R99). -/
def freshSlot (x : Nat) (right : Bool) (w : Word32) : Option Slot :=
  if w = 0xFF03FFFF || (right && wbits w 18 3 = 6) then none
  else some { st := .configured, word := w, owner := some x }

/-- The slots of a tile from its block's words. -/
def freshSlots (x : Nat) (right : Bool) (ws : List Word32) : Table Slot :=
  (numbered ws).filterMap fun w => (freshSlot x right w.2).map fun y => (w.1, y)

/-- The tiles of a block with whether each is the right one of a pair. -/
def blockTiles (g : Group) (b : Block) : List (Nat × Bool) :=
  (numbered b.tiles).filterMap fun t => (chartTile g.tiles t.2.1 t.2.2).map fun p => (p, t.1 = 1)

/-- A tile refuses its configuration: the trailer or the owner tag does not agree (R335). -/
def refuses (s : State) (x : Nat) (b : Block) (p : Nat) : Bool :=
  (s.tile p).owner ≠ some x || crc32 b.covered ≠ b.trailer

/-- A tile takes its block, PARAM words and helm code (R44, R335); its Chart and routes stand already. -/
def configureTile (s : State) (h : Nat) (b : Block) (p : Nat) (right : Bool) : State :=
  let g := s.group h
  let t := s.tile p
  let s2 := s.setTile p { t with
    configured := true, pair := b.pair, banks := if b.retain then t.banks else foreignBanks g.ctx t.banks, away := [],
    profile := look [] g.image.profiles b.prof, slots := freshSlots g.ctx right b.words, mat := {}, barriers := [],
    waves := [], tokens := [], completions := [], inch := [], edgeHeld := [], unit0 := {}, unit1 := {} }
  let s3 := b.params.foldl (fun (a : State) w =>
    if (a.slot p w.1).st = .empty then a else a.applyWord p w.1 { data := w.2, cfg := true }) s2
  let code := g.image.helm.filter fun k => k.col = t.col && k.row = t.row
  code.foldl (fun (a : State) k => a.setThread (threadKey p k.unit k.thread) { hasCode := true }) s3

/-- A group leaves its tiles for good: slots EMPTY, Charts cleared, rows kept under their mark (R306, R326,
R338). -/
def releaseTiles (s : State) (h : Nat) : State :=
  let g := s.group h
  let s1 := s.dropParties h
  let s2 := g.tiles.foldl (fun (a : State) t =>
    let b := a.markRows t.2.2 g.ctx
    b.dropTile t.2.2 (b.tile t.2.2).banks) s1
  let s3 := { s2 with
    tiles := s2.tiles.map fun (t : Nat × Tile) =>
      (t.1, { t.2 with rowsOf := t.2.rowsOf.filter fun (r : Nat × Nat) => r.2 ≠ h }),
    chans := s2.chans.filter fun e => match e.1 with
      | .group k _ => k ≠ h
      | _ => true,
    homes := s2.homes.filter fun e => match e.1 with
      | .group k _ => k ≠ h
      | _ => true }
  s3.setGroup h { s3.group h with
    tiles := [], origin := 0, straddle := false, frozenAt := none, ports := [], regions := [], saved := [],
    savedPlace := [], spilledRows := [], payloads := [], actions := [], commands := [], ch := {}, fh := {}, snapDue := false }

/-- ERRCOUNT with the final count of a group that retires (R392). -/
def finalCount (s : State) (h : Nat) : State :=
  let g := s.group h
  if g.gerr = 0 then s
  else s.raise { cause := 8, detail := 2, src := 10, place := basePlace (pilotStack g), ctx := some g.ctx,
                 aux := wd g.gerr.toNat, group := wd h }

/-- A refusal: the kernel is REJECTED with TILE_REFUSED and the block (R326, R335, R426). -/
def refuseConfig (s : State) (h i : Nat) : State :=
  let x := (s.group h).ctx
  let s1 := (s.finalCount h).releaseTiles h
  (s1.rejectKernel h 5 0x32 i 0xFF).retryLeases x

/-- TILE_CONFIGURE (R335, R426): the next block goes to its tiles. -/
def configureNext (s : State) (h : Nat) : State :=
  let g := s.group h
  if g.st ≠ .leased && g.st ≠ .configuring then s
  else
    let i := g.nextBlock
    match g.image.blocks[i]? with
    | none => s
    | some b =>
      let ps := blockTiles g b
      if ps.any fun p => s.refuses g.ctx b p.1 then s.refuseConfig h i
      else
        let s1 := ps.foldl (fun (a : State) p => a.configureTile h b p.1 p.2)
          (s.setGroup h { g with st := .configuring, kernel := .configuring, nextBlock := i + 1 })
        ps.foldl (fun (a : State) p => a.post (.evTileConfigured h p.1)) s1

/-! ## Arming (R336, R419) -/

/-- The regions of an image. -/
def imageRegions (m : Image) : List Nat := (m.blocks.flatMap Block.regions).eraseDups

/-- The tiles of a group that hold members of region r by its image (R336). -/
def regionHolders (g : Group) (r : Nat) : List Nat :=
  (g.image.blocks.filter fun b => b.regions.contains r).flatMap fun b => (blockTiles g b).map (·.1)

/-- Every tile that holds a member of r has reported, and its wave has not gone (R336). -/
def waveDue (g : Group) (r : Nat) : Bool :=
  (find g.regions r).isNone && (regionHolders g r).all fun p => g.reported.contains p

/-- The kwave elements whose KID names no region with a member in their tile (R166, R419). -/
def idleWaves (s : State) (h : Nat) : List Nat :=
  ((s.group h).tiles.map (·.2.2)).filter fun p =>
    let x := s.slot p 59
    let wide := s.slot (s.wideTile p 0) 0
    x.st ≠ SlotState.empty && x.op = 0xCE && !((s.tile p).slots ++ [(0, wide)]).any fun (c : Nat × Slot) =>
      c.2.st ≠ SlotState.empty && c.2.region = x.param 0x10 0

/-- A capability over n bytes from a on with the given permissions (R246, R249). -/
def capOver (a n perms : Nat) : Cap := ((fwcap.withPerms perms).setAddr (wd a)).setBounds n false

/-- Whether a thread record is the designated thread's (R312). -/
def isDesignated (r : BitVec 512) (k : HelmCode) : Bool :=
  bit (recDesig r) 15 &&
  recDesig r = k.col * 2 ^ 24 + k.row * 2 ^ 16 + 2 ^ 15 + k.unit * 4 + k.thread

/-- The general registers of a starting thread (R322). -/
def startRegs (g : Group) (h : Nat) (k : HelmCode) : Vector Word 32 :=
  ((((((Vector.replicate 32 (0 : Word)).set 1 (wd (recArg0 g.launch))).set 2 (wd (recArgLen g.launch))).set 3
    (wd (h % 2 ^ 32))).set 4 (wd g.queue)).set 5 (wd (k.col * 256 + k.row)))

/-- The capability registers of a starting thread (R246, R322). -/
def startCaps (roottab : Nat) (r : BitVec 512) (des : Bool) : Vector Cap 16 :=
  let arg := fun (perms : Nat) => if recArgLen r = 0 then {} else capOver (recArgVa r) (recArgLen r) perms
  let v := Vector.replicate 16 ({} : Cap)
  if des then (v.set 1 (capOver roottab 256 0x0805)).set 2 (arg 0x080F) else v.set 1 (arg 0x0805)

/-- A thread with code starts (R208, R210, R322). -/
def startThread (s : State) (h : Nat) (k : HelmCode) : State :=
  let g := s.group h
  match chartTile g.tiles k.col k.row with
  | none => s
  | some p =>
    let des := isDesignated g.launch k
    s.setThread (threadKey p k.unit k.thread)
      { g := startRegs g h k, c := startCaps (s.context g.ctx).roottab g.launch des,
        pcc := capOver (g.helmBase + k.off) (4 * k.words.length) 0x0811, priv := if des then 1 else 0, st := .ready,
        hasCode := true, designated := des }

/-- What becomes of a group that has just become ARMED: its stop, its acknowledgements, or its seeds (R323, R327,
R337). -/
def afterArmed (s : State) (h : Nat) : State :=
  let g := s.group h
  let s1 := if !g.stopWhenArmed.empty || (s.context g.ctx).st ≠ 3 then s.post (.evGroupStopRequest h .hyper) else s
  if g.started then s1.post (.evSeedInject h)
  else ((g.tiles.map fun t => stackOfTile t.2.2).eraseDups).foldl (fun (a : State) k => a.post (.evConfigAck h k)) s1

/-- A group is ARMED once all its regions are and all its tiles have reported (R336, R339); its threads start, the
launch acquires (R322, R323). -/
def armGroup (s : State) (h : Nat) : State :=
  let g := s.group h
  if g.st = .configuring && g.tiles.all (fun t => g.reported.contains t.2.2) &&
      (imageRegions g.image).all fun r => (find g.regions r).isSome then
    let s1 := (s.setGroup h { g with st := .armed, lastMove := s.fc, haltAt := s.fc }).raisePorts h
    let s2 := (s1.idleWaves h).foldl (fun (a : State) _ => a.countError h) s1
    (g.image.helm.foldl (fun (a : State) k => a.startThread h k) s2).afterArmed h
  else s

/-- TILE_CONFIGURED (R336, R426): a tile has reported; waves that are due go, and the next block. -/
def tileReported (s : State) (h p : Nat) : State :=
  let g := s.group h
  if g.st ≠ .configuring || !(g.tiles.any fun t => t.2.2 = p) then s
  else
    let g1 := { g with reported := insertNat p g.reported }
    let s1 := s.setGroup h g1
    let rs := (imageRegions g.image).filter fun r => (regionHolders g r).contains p && waveDue g1 r
    let s2 := rs.foldl (fun (a : State) r => a.post (.evConfigCompleteWave h r)) s1
    let told := match g.image.blocks[g.nextBlock - 1]? with
      | some b => (blockTiles g b).all fun q => g1.reported.contains q.1
      | none => true
    (if told && g.nextBlock < g.image.blocks.length then s2.post (.evTileConfigure h) else s2).armGroup h

/-- The wave of a region crosses a tile that holds a member: kwave with its KID sees it (R166). -/
def waveAt (s : State) (p r : Nat) : State :=
  let x := s.slot p 59
  if x.st ≠ .empty && x.op = 0xCE && x.param 0x10 0 = r then
    (s.setTile p { s.tile p with waves := (s.tile p).waves ++ [r] }).wake p 59
  else s

/-- The tiles a region's wave crosses, each with its distance from the region's master tile (R103, R336). -/
def waveWay (s : State) (h r : Nat) : List (Nat × Nat) :=
  let ps := regionHolders (s.group h) r
  let m := ((s.masterOf h r).map (·.1)).getD (ps.headD 0)
  ps.map fun p => (p, s.controlHops m p)

/-- Every member of region r is ARMED with q := 0 (R98, R336). -/
def armRegion (s : State) (h r : Nat) : State :=
  let g := s.group h
  let ms := (s.groupSlots h).filter fun q => (s.slot q.1 q.2).region = r
  let s1 := ms.foldl (fun (a : State) q => a.setSlot q.1 q.2 { (a.slot q.1 q.2).beginRun with st := .armed })
    (s.setGroup h { g with regions := put g.regions r { armed := true } })
  let s2 := ms.foldl (fun (a : State) q =>
    ((List.range 4).foldl (fun b o => b.settlePort q.1 q.2 o) a).wake q.1 q.2) s1
  s2.armGroup h

/-- CONFIG_COMPLETE_WAVE (R98, R166, R336): the wave goes on by one tile per fc, and the region is ARMED in the fc after
it has reached the last. -/
def wave (s : State) (h r : Nat) : State :=
  let g := s.group h
  if g.st ≠ .configuring || !(imageRegions g.image).contains r || !waveDue g r then s
  else
    let t := look s.fc g.waves r
    let way := s.waveWay h r
    let s1 := (way.filter fun q => q.2 = s.fc - t).foldl (fun (a : State) q => a.waveAt q.1 r)
      (s.setGroup h { g with waves := put g.waves r t })
    if way.any fun q => s.fc - t ≤ q.2 then s1.postOnce (.evConfigCompleteWave h r) else s1.armRegion h r

/-! ## Start and seeds (R323, R337) -/

/-- CONFIG_ACK (R337): the part on stack k has acknowledged; the lead sends START when all have. -/
def acknowledge (s : State) (h k : Nat) : State :=
  let g := s.group h
  let acks := insertNat k g.acks
  let s1 := s.setGroup h { g with acks }
  if !g.started && g.tiles.all fun t => acks.contains (stackOfTile t.2.2) then s1.postOnce (.evStart h) else s1

/-- START (R337): cut edges carry and the seeds may go. -/
def startKernelParts (s : State) (h : Nat) : State :=
  let g := s.group h
  if g.started || !(g.tiles.all fun t => g.acks.contains (stackOfTile t.2.2)) then s
  else ((s.setGroup h { g with started := true }).nudge h).post (.evSeedInject h)

/-- One seed offered at its port; none when it must wait (R73, R323). -/
def offerSeed (s : State) (h : Nat) (e : Nat × Beat) : Option State :=
  let g := s.group h
  match g.image.seeds.find? fun n => n.1 = e.1 with
  | none => some s
  | some (_, w) =>
    match chartTile g.tiles (wbits w 20 8) (wbits w 12 8) with
    | none => some s
    | some p => (s.offerPort p (wbits w 6 6) (wbits w 3 3) { beat := e.2, region := 256 }).map fun t => t.moved p

/-- The seeds enter in entry order at each port; what must wait stays (R323). -/
def injectSeeds (s : State) (h : Nat) : List (Nat × Beat) → List Nat → State × List (Nat × Beat)
  | [], _ => (s, [])
  | e :: t, full =>
    if full.contains e.1 then
      let r := injectSeeds s h t full
      (r.1, e :: r.2)
    else match s.offerSeed h e with
      | some s1 => injectSeeds s1 h t full
      | none =>
        let r := injectSeeds s h t (e.1 :: full)
        (r.1, e :: r.2)

/-- SEED_INJECT (R323, R326, R339): the kernel is LIVE, its group FIRING, and its seeds enter. -/
def seedInject (s : State) (h : Nat) : State :=
  let g := s.group h
  if g.seeded || !g.started || (s.context g.ctx).st ≠ 3 || !(g.st = .armed || g.st = .firing || g.st = .gated) then s
  else
    let g1 := { g with kernel := .live, st := if g.st = .armed then .firing else g.st }
    let r := ((s.setGroup h g1).raisePorts h).injectSeeds h g.seeds []
    let s1 := r.1.setGroup h { r.1.group h with seeds := r.2, seeded := r.2.isEmpty }
    if r.2.isEmpty then s1.postOnce (.evKernelComplete h) else s1.postOnce (.evSeedInject h)

/-! ## Completion (R324, R338) -/

/-- Requests of a group's elements, engines and broadcasts that are not performed (R275, R338). -/
def accessesOpen (s : State) (h : Nat) : Bool :=
  (s.engines.any fun e => !isCore e.thread && e.gh = h) || s.carriedNow h ||
  (s.groupLayers h).any (fun l => !(s.groupPayloads h l).isEmpty) ||
  (s.group h).tiles.any fun t =>
    let y := s.tile t.2.2
    !y.unit0.bcst.isEmpty || !y.unit1.bcst.isEmpty ||
    y.slots.any fun c => c.2.run.reqs.any fun r => r.kind ≠ .mark && r.kind ≠ .complete && r.reply.isNone

/-- A seed that has entered is not consumed yet: it stands at a port, a channel or an edge of a tile of the group (R338). -/
def seedsOpen (s : State) (h : Nat) : Bool :=
  (s.group h).tiles.any fun t =>
    let y := s.tile t.2.2
    let seed := fun (l : List Arrived) => l.any fun a => a.region = 256
    (y.slots.any fun c => seed c.2.portA || seed c.2.portB || seed c.2.portC || seed c.2.portP) ||
    (y.inch.any fun c => seed c.2) || seed (y.edgeHeld.map (·.2))

/-- KERNEL_COMPLETE (R338): threads HALTED, seeds in, 16 fc of stillness, accesses performed: DRAINING, and the
tiles are released. -/
def kernelComplete (s : State) (h : Nat) : State :=
  let g := s.group h
  if g.kernel ≠ .live then s
  else if !(s.codeThreads h).all (fun t => (s.thread t).st = .halted) || !(g.st = .firing || g.st = .gated) then
    s.postOnce (.evKernelComplete h)
  else if !g.seeded || s.seedsOpen h || s.accessesOpen h || s.fc < g.lastMove + 16 ||
      s.fc < g.haltAt + 16 then s.postOnce (.evKernelComplete h)
  else
    let s1 := (s.finalCount h).releaseTiles h
    ((s1.setGroup h { s1.group h with kernel := .draining }).post (.evKernelRetire h)).retryLeases g.ctx

/-- KERNEL_RETIRE (R324, R326, R425): every group released. -/
def kernelRetire (s : State) (h : Nat) : State :=
  let g := s.group h
  if g.kernel ≠ .draining then s
  else
    let s1 := s.setGroup h { g with kernel := .retired, st := .retired }
    let s2 := if bit (recDesig g.launch) 15 then
        s1.setContext g.ctx { s1.context g.ctx with designated := false } else s1
    s2.completeLaunch g.queue g.ctx g.launch

end State

/-- PILOT_LEASE (R340, R353). -/
def execEvPilotLease (g : Nat) (s : State) : Result := .next (s.pilotLease g)
/-- TILE_CONFIGURE (R335). -/
def execEvTileConfigure (g : Nat) (s : State) : Result := .next (s.configureNext g)
/-- TILE_CONFIGURED (R336). -/
def execEvTileConfigured (g p : Nat) (s : State) : Result := .next (s.tileReported g p)
/-- CONFIG_COMPLETE_WAVE (R336). -/
def execEvConfigCompleteWave (g r : Nat) (s : State) : Result := .next (s.wave g r)
/-- CONFIG_ACK (R337). -/
def execEvConfigAck (g k : Nat) (s : State) : Result := .next (s.acknowledge g k)
/-- START (R337). -/
def execEvStart (g : Nat) (s : State) : Result := .next (s.startKernelParts g)
/-- SEED_INJECT (R323). -/
def execEvSeedInject (g : Nat) (s : State) : Result := .next (s.seedInject g)
/-- KERNEL_COMPLETE (R338). -/
def execEvKernelComplete (g : Nat) (s : State) : Result := .next (s.kernelComplete g)
/-- KERNEL_RETIRE (R326). -/
def execEvKernelRetire (g : Nat) (s : State) : Result := .next (s.kernelRetire g)

end Sys2Proof.Machine
end

