-- ==== Sys2Proof/Machine/LinkRun.lean ====
section
/-! DEFINITION. Links: training, states, commands, flits, notices and registers; re-placement of an unreachable
device's groups (R409, R412-R418). -/

namespace Sys2Proof.Machine

/-! ## Kinds (R409, R412, R413, R415) -/

/-- Data lanes of link n. -/
def linkLanes (n : Nat) : Nat := if n < 32 then 1024 else if n < 64 then 64 else 4
/-- Spare lanes of link n. -/
def linkSpares (n : Nat) : Nat := if n < 32 then 32 else if n < 64 then 4 else 0
/-- Whether the kind of link n has a quarter width. -/
def linkQuarter (n : Nat) : Bool := n < 32 || 64 ≤ n
/-- The training timeout of link n in fc. -/
def linkTimeout (n : Nat) : Nat := if n < 32 then 4096 else if n < 64 then 65536 else 2 ^ 22

/-- The data lanes a training leaves uncovered, and the spare lanes it leaves unused (R413). `ex` holds the
excluded lanes. -/
def coverLanes (n : Nat) (ex : List Nat) : List Nat × Nat :=
  let data := (List.range (linkLanes n)).filter ex.contains
  let spares := ((List.range (linkSpares n)).map (linkLanes n + ·)).filter fun l => !ex.contains l
  (data.drop spares.length, linkSpares n - Nat.min data.length spares.length)

/-- The uncovered lanes that part i of 1/2^c of the data lanes holds (R413). -/
def partLost (n c : Nat) (unc : List Nat) (i : Nat) : Nat := (unc.filter fun l => l / (linkLanes n / 2 ^ c) = i).length

/-- The part of 1/2^c of the data lanes that holds the fewest uncovered ones, the lower on a tie (R413). -/
def bestPart (n c : Nat) (unc : List Nat) : Nat :=
  (List.range (2 ^ c)).foldl (fun a i => if partLost n c unc i < partLost n c unc a then i else a) 0

/-- Some part of 1/2^c of the lanes holds none of the uncovered ones (R413). -/
def widthAvoids (n c : Nat) (unc : List Nat) : Bool := partLost n c unc (bestPart n c unc) = 0

/-- The width code a training finds; none where no width of the kind avoids the uncovered lanes (R413). -/
def widthFor (n : Nat) (unc : List Nat) : Option Nat :=
  if unc.isEmpty then some 0
  else if widthAvoids n 1 unc then some 1
  else if linkQuarter n && widthAvoids n 2 unc then some 2
  else none

/-- WMIN as the kind takes it (R413). -/
def effectiveWmin (n : Nat) (y : Link) : Nat := if linkQuarter n then y.wmin else Nat.min y.wmin 1

namespace State

/-- A notice of link n on control-core channel 193 (R416). -/
def linkNotice (s : State) (n : Nat) : State :=
  let y := s.link n
  s.sendHeld (.core 193) (wd (n + y.st * 2 ^ 8 + y.wcode * 2 ^ 12))

/-- Link n in a state; entering DEGRADED or FAILED sends a notice (R412, R416). -/
def setLinkState (s : State) (n st : Nat) : State :=
  let y := s.link n
  let s1 := s.setLink n { y with st }
  if y.st ≠ st && (st = 3 || st = 6) then s1.linkNotice n else s1

/-- Traffic that waited for a link is looked at again (R414). -/
def linkOpened (s : State) : State := s.groups.foldl (fun (a : State) g => a.nudge g.1) s

/-- Link n ACTIVE or DEGRADED by its width (R412). -/
def openLink (s : State) (n : Nat) : State := (s.setLinkState n (if (s.link n).wcode = 0 then 2 else 3)).linkOpened

/-- Link n begins to train, in TRAINING or RETRAINING (R412). -/
def beginTraining (s : State) (n st : Nat) : State :=
  (s.setLink n { s.link n with draining := false, trainAt := s.fc }).setLinkState n st

/-- A failed training attempt: the fourth in a row fails the link, another begins again (R412). -/
def failTraining (s : State) (n : Nat) : State :=
  let y := s.link n
  if 4 ≤ y.attempts + 1 then (s.setLink n { y with attempts := y.attempts + 1 }).setLinkState n 6
  else s.setLink n { y with attempts := y.attempts + 1, trainAt := s.fc }

/-- TRAINING_END (R412, R413, R417): `f` holds the lanes that fail the per-lane test; 4,096 in it stands for a Rhumb
peer that fails authentication. -/
def endTraining (s : State) (n : Nat) (f : List Nat) : State :=
  let y := s.link n
  if 80 ≤ n || (y.st ≠ 1 && y.st ≠ 5) then s
  else if 64 ≤ n && f.contains 4096 then s.setLinkState n 6
  else
    let c := coverLanes n (y.bad ++ f)
    match widthFor n c.1 with
    | none => s.failTraining n
    | some w =>
      if effectiveWmin n y < w then s.failTraining n
      else
        let s1 := s.setLink n { y with wcode := w, spares := some c.2, trains := Nat.min (y.trains + 1) 255,
                                       attempts := 0, pausePend := false, lastRx := s.fc, lastTx := s.fc, replays := [],
                                       lanePart := if w = 0 then 0 else bestPart n w c.1, wire := y.unacked }
        if y.pausePend then s1.setLinkState n 4 else s1.openLink n

/-- TRAINING_TIMEOUT (R412). -/
def trainingTimeout (s : State) (n : Nat) : State :=
  let y := s.link n
  if (y.st = 1 || y.st = 5) && n < 80 && y.trainAt + linkTimeout n ≤ s.fc then s.failTraining n else s

/-! ## Commands (R412) -/

/-- PAUSE. -/
def pauseLink (s : State) (n : Nat) : State :=
  let y := s.link n
  if y.st = 2 || y.st = 3 then
    if y.unacked.isEmpty then s.setLinkState n 4 else s.setLink n { y with draining := true }
  else if y.st = 1 || y.st = 4 || y.st = 5 then s.setLink n { y with pausePend := true }
  else s

/-- PAUSE_DRAIN_COMPLETE. -/
def drainLink (s : State) (n : Nat) : State :=
  let y := s.link n
  if y.draining && y.unacked.isEmpty && (y.st = 2 || y.st = 3) then
    (s.setLink n { y with draining := false }).setLinkState n 4
  else s

/-- RESUME. -/
def resumeLink (s : State) (n : Nat) : State := if (s.link n).st = 4 then s.openLink n else s

/-- RETRAIN, and what acts as it in ACTIVE and DEGRADED; from PAUSED, and while a PAUSE drains, a PAUSE is
pending. -/
def retrainLink (s : State) (n : Nat) : State :=
  let y := s.link n
  if y.st = 2 || y.st = 3 then
    (s.setLink n { y with pausePend := y.pausePend || y.draining }).beginTraining n 5
  else if y.st = 4 then (s.setLink n { y with pausePend := true }).beginTraining n 5
  else s

/-- DISABLE. -/
def disableLink (s : State) (n : Nat) : State :=
  let y := s.link n
  if y.st ≠ 0 && y.unacked.isEmpty then (s.setLink n { y with draining := false }).setLinkState n 0 else s

/-- ENABLE, or the release of package reset. -/
def enableLink (s : State) (n : Nat) : State :=
  let y := s.link n
  if y.st = 0 || y.st = 6 then (s.setLink n { y with attempts := 0 }).beginTraining n 1 else s

/-! ## Flits (R412, R414) -/

/-- The flits of a replay from k: it, and what follows it of the unacknowledged ones (R414). -/
def replayedFlits (y : Link) (k : Nat) : List Nat := k :: y.unacked.filter (k < ·)

/-- FLIT_REPLAY (R412, R414, R415): flit k and the unacknowledged ones behind it go again in sequence order, each counted; one
replayed 8 times retrains an open link. -/
def replayFlit (s : State) (n k : Nat) : State :=
  let y := s.link n
  let l := replayedFlits y k
  let counts := l.foldl (fun a f => upd 0 a f fun c => c + 1) y.replays
  let s1 := s.setLink n { y with replay := y.replay + BitVec.ofNat 32 l.length, replays := counts, lastTx := s.fc,
                                 wire := y.wire.filter (· < k) ++ y.unacked.filter (k ≤ ·) }
  if (l.any fun f => 8 ≤ look 0 counts f) && (y.st = 2 || y.st = 3) then s1.retrainLink n else s1

/-- FLIT_RECEIVE (R414): accepted in sequence and acknowledged; a duplicate is discarded; one whose CRC or tag fails
is counted, and the sender replays from it. -/
def receiveFlit (s : State) (n : Nat) (q : Word) (ok : Bool) : State :=
  let y := { s.link n with lastRx := s.fc, wire := (s.link n).wire.erase q.toNat }
  if !ok then (s.setLink n { y with crcErr := y.crcErr + 1 }).replayFlit n q.toNat
  else if q ≠ y.expSeq then s.setLink n y
  else
    let left := y.unacked.filter (· ≠ q.toNat)
    let s1 := s.setLink n { y with expSeq := y.expSeq + 1, unacked := left, replays := del y.replays q.toNat }
    if y.draining && left.isEmpty then s1.post (.evPauseDrainComplete n) else s1

/-- IDLE_FLIT (R412): a Rhumb port that sent nothing for 256 fc. -/
def idleFlit (s : State) (n : Nat) : State :=
  let y := s.link n
  if 64 ≤ n && n < 80 && (y.st = 2 || y.st = 3) && !y.draining && y.lastTx + 256 ≤ s.fc then
    s.setLink n { y with unacked := y.unacked ++ [y.nextSeq.toNat], wire := y.wire ++ [y.nextSeq.toNat], nextSeq := y.nextSeq + 1, lastTx := s.fc }
  else s

/-- RHUMB_RX_TIMEOUT (R412). -/
def rxTimeout (s : State) (n : Nat) : State :=
  let y := s.link n
  if 64 ≤ n && n < 80 && (y.st = 2 || y.st = 3) && y.lastRx + 65536 ≤ s.fc then s.retrainLink n else s

/-- What the links' own timers bring about in an fc: the end of a training attempt, and of a Rhumb port's patience and
silence (R412). -/
def linkTurns (s : State) : List Instr :=
  s.links.flatMap fun (e : Nat × Link) =>
    let y := e.2
    let up := y.st = 2 || y.st = 3
    if (y.st = 1 || y.st = 5) && y.trainAt + linkTimeout e.1 ≤ s.fc then [.evTrainingTimeout e.1]
    else if 64 ≤ e.1 && up && y.lastRx + 65536 ≤ s.fc then [.evRhumbRxTimeout e.1]
    else if 64 ≤ e.1 && up && !y.draining && y.lastTx + 256 ≤ s.fc then [.evIdleFlit e.1]
    else []

/-- RETRY_WINDOW (R415, R416): a window of 2^20 fc ends with k replays and lane w the worst. -/
def retryWindow (s : State) (n k w : Nat) : State :=
  let y := s.link n
  let s1 := s.setLink n { y with worst := w % 2 ^ 16, retryHi := y.retryHi || y.rthresh.toNat < k }
  if !y.retryHi && y.rthresh.toNat < k then s1.linkNotice n else s1

/-! ## Registers (R415) -/

/-- LK_CTL. -/
def linkCtl (y : Link) : Word := wd (y.rthresh.toNat * 2 ^ 32 + y.wmin * 2 ^ 8)
/-- LK_STAT. -/
def linkStat (n : Nat) (y : Link) : Word :=
  wd (y.spares.getD (linkSpares n) * 2 ^ 32 + y.wcode * 2 ^ 24 + y.trains * 2 ^ 16 + b2n y.retryHi * 2 ^ 15 + y.st)
/-- LK_LANE. -/
def linkLane (y : Link) : Word := wd (y.worst * 2 ^ 32 + y.bad.length * 2 ^ 16)
/-- LK_CNT. -/
def linkCnt (y : Link) : Word := wd (y.replay.toNat * 2 ^ 32 + y.crcErr.toNat)

/-- LANE_MARK: a write of LK_LANE. -/
def markLane (s : State) (n : Nat) (v : Word) : State :=
  let l := bits v 0 11
  if bits v 15 1 = 1 && l < linkLanes n + linkSpares n then
    s.setLink n { s.link n with bad := insertNat l (s.link n).bad }
  else s

/-- A command of LK_CTL.CMD. -/
def linkCommand (s : State) (n c : Nat) : State :=
  match c with
  | 1 => s.pauseLink n
  | 2 => s.resumeLink n
  | 3 => s.retrainLink n
  | 4 => s.disableLink n
  | 5 => s.enableLink n
  | _ => s

/-- A write of LK_CTL. -/
def writeLinkCtl (s : State) (n : Nat) (v : Word) : State :=
  let y := s.link n
  let w := bits v 8 3
  (s.setLink n { y with rthresh := BitVec.ofNat 32 (bits v 32 32), wmin := if w ≤ 2 then w else y.wmin }).linkCommand n
    (bits v 0 3)

/-- A write of LK_STAT: RETRYHI is HS. -/
def writeLinkStat (s : State) (n : Nat) (v : Word) : State :=
  if bits v 15 1 = 1 then s.setLink n { s.link n with retryHi := false } else s

/-! ## Scale-out (R418) -/

/-- A snapshot record as it was read is the one described, and its tag holds (R344). -/
def recordGood (s : State) (h : Nat) (y : Snapshot) (d : List Byte) : Bool :=
  leAt d 0 8 == 0x00000001534E4150 && leAt d 8 8 == h && leAt d 32 8 == y.len &&
  BitVec.ofNat 128 (leAt d 80 16) ==
    Config.snapTag (s.context (s.group h).ctx).epoch (BitVec.ofNat 96 (leAt d 64 12)) (d.take 80 ++ d.drop 256)

/-- A group of no tiles that holds what its snapshot saved (R344, R345). -/
def fromSnapshot (s : State) (h : Nat) (y : Snapshot) : State :=
  let s1 := s.releaseTiles h
  let s2 := s1.setGroup h { s1.group h with saved := y.tiles, regions := y.regions, actors := y.actors, cpc := y.cpc,
                                            gerr := y.gerr, snap := some y, payloads := y.payloads, frozenAt := none }
  { s2 with chans := s2.chans ++ y.chans.map (fun e => (.group h e.1, e.2)),
            homes := s2.homes ++ y.homes.map fun e => (.group h e.1, e.2) }

/-- DEVICE_REPLACE: with a Rhumb port FAILED, a group takes up its latest complete snapshot on tiles of this
device, and goes on; a record that is unreadable or whose tag fails is refused (R344). -/
def deviceReplace (s : State) (h : Nat) : State :=
  let g := s.group h
  let lost := (List.range 16).any fun i => (s.link (64 + i)).st = 6
  match g.snap with
  | none => s
  | some y =>
    if !lost || g.st = .retired then s
    else match s.readList g.ctx (baseSource 10 0 h) [] 0 (linePieces ((s.context g.ctx).ssbase + y.off) y.len) with
      | (_, _, some .held, s1) => s1.post (.evDeviceReplace h)
      | (_, _, some _, s1) => s1
      | (d, _, none, s1) =>
        if !s1.recordGood h y d then s1
        else
          let s2 := s1.fromSnapshot h y
          match s2.findPlace h 0x4000 with
          | none => s1
          | some l => (s2.replaceGroup h l).endReplace h none

end State

/-- PAUSE (R412). -/
def execEvPause (n : Nat) (s : State) : Result := .next (s.pauseLink n)
/-- RESUME (R412). -/
def execEvResume (n : Nat) (s : State) : Result := .next (s.resumeLink n)
/-- RETRAIN (R412). -/
def execEvRetrain (n : Nat) (s : State) : Result := .next (s.retrainLink n)
/-- DISABLE (R412). -/
def execEvDisable (n : Nat) (s : State) : Result := .next (s.disableLink n)
/-- ENABLE (R412). -/
def execEvEnable (n : Nat) (s : State) : Result := .next (s.enableLink n)
/-- TRAINING_END (R413). -/
def execEvTrainingEnd (n : Nat) (f : List Nat) (s : State) : Result := .next (s.endTraining n f)
/-- TRAINING_TIMEOUT (R412). -/
def execEvTrainingTimeout (n : Nat) (s : State) : Result := .next (s.trainingTimeout n)
/-- PAUSE_DRAIN_COMPLETE (R412). -/
def execEvPauseDrainComplete (n : Nat) (s : State) : Result := .next (s.drainLink n)
/-- FLIT_RECEIVE (R414). -/
def execEvFlitReceive (n : Nat) (q : Word) (c : Bool) (s : State) : Result := .next (s.receiveFlit n q c)
/-- FLIT_REPLAY (R412, R414). -/
def execEvFlitReplay (n k : Nat) (s : State) : Result := .next (s.replayFlit n k)
/-- RHUMB_RX_TIMEOUT (R412). -/
def execEvRhumbRxTimeout (n : Nat) (s : State) : Result := .next (s.rxTimeout n)
/-- IDLE_FLIT (R412). -/
def execEvIdleFlit (n : Nat) (s : State) : Result := .next (s.idleFlit n)
/-- RETRY_WINDOW (R415). -/
def execEvRetryWindow (n k w : Nat) (s : State) : Result := .next (s.retryWindow n k w)
/-- LANE_MARK (R415). -/
def execEvLaneMark (n : Nat) (v : Word) (s : State) : Result := .next (s.markLane n v)
/-- DEVICE_REPLACE (R418). -/
def execEvDeviceReplace (g : Nat) (s : State) : Result := .next (s.deviceReplace g)

end Sys2Proof.Machine
end

