-- ==== Sys2Proof/Machine/ContextRun.lean ====
section
/-! DEFINITION. The context's own states: building, measuring, quiescing, migrating, containment, retirement
(R246, R287, R300-R308, R316, R390, R404). -/

namespace Sys2Proof.Machine

/-- Bytes lo to lo + n - 1 of a buffer are zero. -/
def zeroAt (d : List Byte) (lo n : Nat) : Bool := ((d.drop lo).take n).all (· = 0)

namespace State

/-! ## Roots and measurement (R246, R299-R301) -/

/-- The roots of a context, granules 0 to 5 (R246). -/
def contextRoots (c : Context) : List Cap :=
  [fwcap.withPerms 0x194F, fwcap.withPerms 0x0811, (capOver 0 256 0x0E00).setAddr 1, fwcap.withPerms 0x0821,
   if c.bwlen = 0 then {} else capOver c.bwbase c.bwlen 0x088F, capOver (c.roottab + 256) 256 0x2803]

/-- The root table written at its place: zeros, then the tagged roots (R246, R254). -/
def writeRoots (s : State) (c : Context) (p : Phys) : State :=
  let s1 := (List.range 4).foldl (fun (a : State) i =>
    a.storeLine (p.plus (64 * i)) (List.replicate 64 0) false false) s
  (numbered (contextRoots c)).foldl (fun (a : State) r =>
    a.storeLine (p.plus (16 * r.1)) (capBytes r.2) r.2.tag false) s1

/-- An entry of a tile list (R298). -/
def tileEntry (t : Tile) (p : Nat) : Nat := p + t.permit.toNat * 2 ^ 11

/-- T as it is first taken: the tile list sorted by PTID (R298, R301). -/
def firstT (s : State) (x : Nat) : List Byte :=
  let l := s.ownedTiles x
  shake256 (toBytes 4 l.length ++ l.flatMap fun p => toBytes 2 (tileEntry (s.tile p) p))

/-- M: the creation record with bytes 0 to 2 read as zero (R301). -/
def measureM (r : List Byte) : List Byte := shake256 ([0, 0, 0] ++ r.drop 3)

/-- The mailbox's request ends with a status and a result (R407). -/
def answerMailbox (s : State) (status : Nat) (result : BitVec 32) : State :=
  if !s.lode.busy || s.lode.answered then s
  else ({ s with lode := { s.lode with answered := true, status, result } } : State).post .evMailboxComplete

/-- BUILD_COMPLETE (R300, R301, R316): MEASURED; the measurements are taken, CREATE completes. -/
def buildComplete (s : State) (x : Nat) : State :=
  let c := s.context x
  if c.st ≠ 1 || c.migration.isSome then s
  else
    let s1 := s.setContext x { c with st := 2, measM := measureM c.created, measT := s.firstT x, changes := 0 }
    let s2 := (s1.queuesTo x 2 1).post .evAdmission
    if s.lode.op = 1 then s2.answerMailbox 0 (BitVec.ofNat 32 x) else s2

/-- Accesses that a frozen group has under way: they are performed while it stands (R275, R311, R348). -/
def frozenAccesses (s : State) (h : Nat) : Bool :=
  (s.engines.any fun e => !isCore e.thread && e.gh = h && e.kind ≠ 2 && !e.performed && !e.paused && !s.engWaits e) ||
  (s.groupSlots h).any fun q => (s.slot q.1 q.2).run.reqs.any fun r =>
    r.kind ≠ .mark && r.kind ≠ .complete && r.reply.isNone && !r.spilled

/-- A group stands cut, or frozen with every access of its performed (R300, R311). -/
def groupStands (s : State) (h : Nat) : Bool :=
  (s.group h).st = .cut || ((s.group h).st = .frozen && !s.frozenAccesses h)

/-- QUIESCE_COMPLETE (R300, R311): every placed group CUT, FROZEN or EVICTED, its accesses performed: FROZEN. -/
def quiesceComplete (s : State) (x : Nat) : State :=
  let c := s.context x
  if c.st ≠ 4 then s
  else if (s.placedGroups x).all s.groupStands then
    s.setContext x { c with st := 5 }
  else s.postOnce (.evQuiesceComplete x)

/-! ## The end of a context (R287, R300, R308, R316, R390, R404) -/

/-- A group ends with its context: evicted without saving, nothing advanced (R326, R339, R392). -/
def endGroup (s : State) (h : Nat) : State :=
  let g := s.group h
  if g.st = .retired then s
  else
    let s1 := (s.finalCount h).releaseTiles h
    s1.setGroup h { s1.group h with st := .retired, kernel := if g.kernel = .rejected then .rejected else .retired }

/-- The runs of a context on a stack go FREE at the next frame boundary; its payloads are discarded (R287). -/
def endBeacon (s : State) (x k : Nat) : State :=
  let b := s.stack k
  let mine := b.runs.filter fun r => runHolder r.2 = some x
  let pend := b.pending.filter fun r => runHolder r.2 ≠ some x
  let ann := b.announce.filter fun r => runHolder r.2 ≠ some x
  let s1 := s.setStack k { b with pending := pend ++ mine.map (fun r => (r.1, .free)), announce := ann }
  let s2 := (layersOf k).foldl (fun (a : State) l =>
    let y := a.layer l
    if y.queue.isEmpty then a else a.setLayer l { y with queue := y.queue.filter (·.ctx ≠ x) }) s1
  if mine.isEmpty then s2 else s2.postOnce (.evBeaconFrame k)

/-- The queues of a context: ERROR, or UNBOUND on retirement, their records discarded (R316). -/
def endQueues (s : State) (x : Nat) (retired : Bool) : State :=
  { s with queues := s.queues.map fun q =>
      if q.2.bound && q.2.ctx = x then
        (q.1, if retired then { q.2 with st := 0, bound := false, records := [], unreadable := false, ready := false,
                                                 got := [], gotN := 0, held := false }
              else { q.2 with st := 3, records := [], unreadable := false, ready := false, got := [], gotN := 0,
                              held := false })
      else q }

/-- The channels and barrier homes that bear a context's number. -/
def endChannels (s : State) (x : Nat) : State :=
  { s with
    chans := s.chans.filter fun e => match e.1 with
      | .stack y _ _ => y ≠ x
      | .package y _ => y ≠ x
      | _ => true,
    homes := s.homes.filter fun e => match e.1 with
      | .stack y _ _ => y ≠ x
      | .package y _ => y ≠ x
      | _ => true,
    walks := s.walks.filter fun w => w.rec_.ctx ≠ some x,
    invals := s.invals.filter fun i => i.ctx ≠ x }

/-- An interface enters ERROR from CONFIG_LOCKED or RUN: its held messages are dropped (R404, R405). -/
def failIface (s : State) (n : Nat) : State :=
  let y := s.iface n
  if y.st = 1 || y.st = 2 then s.setIface n { y with st := 3, msiPend := [] } else s

/-- What ends with a context that enters ERROR or RETIRED: groups, sweep, launches, runs, keys, raised records
and those of its own queue (R300, R308, R390). -/
def endContext (s : State) (x : Nat) (retired : Bool) : State :=
  let s1 := (s.groupsOf x).foldl (fun (a : State) h => a.endGroup h) s
  let s2 := ((s1.abandonSweep x).endQueues x retired).endChannels x
  let s3 := (List.range 4).foldl (fun (a : State) k => a.endBeacon x k) s2
  let s4 : State := { s3 with raised := s3.raised.filter fun r => r.ctx ≠ some x }
  let c := s4.context x
  s4.setContext x { c with st := if retired then 7 else 8, epoch := 0, designated := false, migration := none,
                           fq := { c.fq with slots := [] } }

/-- A context enters ERROR (R308): its interface follows, and a CTXERROR record goes to H. -/
def containContext (s : State) (x cause : Nat) : State :=
  let c := s.context x
  if c.st = 0 || 7 ≤ c.st then s
  else
    let s1 := (s.spoilCopies x).endContext x false
    let s2 := match c.iface with
      | some n => s1.failIface n
      | none => s1
    let s3 := if c.st = 1 && s.lode.busy && s.lode.op = 1 then s2.answerMailbox 3 0 else s2
    s3.raise { cause := 0x11, detail := cause, src := 8, place := basePlace 0, ctx := some x, toH := true }

/-- A context is RETIRED (R300); its tiles and rows are given back next. -/
def retireContext (s : State) (x : Nat) : State := (s.endContext x true).post (.evContextRelease x)

/-- The rows of a bank that bear a context's mark zeroed (R300, R306). -/
def zeroRows (b : Bank) (x : Nat) : Bank :=
  let rows := (b.owners.filter (·.2 = x)).map (·.1)
  { cells := b.cells.filter (fun (c : Nat × Byte) => !rows.contains (c.1 / 64)),
    tags := b.tags.filter fun g => !rows.contains (g / 4),
    poison := b.poison.filter fun k => !rows.contains (k / 16),
    owners := b.owners.filter (·.2 ≠ x) }

/-- CONTEXT_RELEASE (R300): tiles released, rows zeroed; the context number is free. -/
def releaseContext (s : State) (x : Nat) : State :=
  if (s.context x).st ≠ 7 then s
  else
    let tiles : Table Tile := s.tiles.map fun t =>
      let banks : Table Bank := t.2.banks.map fun b => (b.1, zeroRows b.2 x)
      (t.1, if t.2.owner = some x then { t.2 with owner := none, permit := 0, banks, rowsOf := [] }
            else { t.2 with banks })
    { s with tiles, contexts := del s.contexts x,
             groups := s.groups.filter fun g => g.2.ctx ≠ x || (s.queue g.2.queue).bound }

/-- The message that tells how a migration ended (R408). -/
def migrationMessage (s : State) (status : Nat) : State := s.sendHeld (.core 194) (wd (status * 2 ^ 16 + 4))

/-- The context that a creation record describes (R298, R303). -/
def contextOf (s : State) (d : List Byte) : Context :=
  { st := 1, part := leAt d 1 1, iface := if leAt d 2 1 = 255 then none else some (leAt d 2 1),
    migr := bit (leAt d 3 1) 0, debug := bit (leAt d 3 1) 1, roottab := leAt d 16 8,
    tecap := ((fwcap.withPerms 0x0811).setAddr (wd (leAt d 32 8))).setBounds (leAt d 40 8) true,
    bwlen := leAt d 48 4, bwoff := leAt d 52 4, bwbase := leAt d 56 8, ssbase := leAt d 64 8,
    spbase := leAt d 72 8, drain := leAt d 80 8, snapint := BitVec.ofNat 16 (leAt d 88 2),
    policy := ([(d.drop 96).take 64, (d.drop 160).take 64]).filter fun p => !zeroAt p 0 64,
    sslen := leAt d 224 8, created := d.take 256, epoch := s.lode.epochs + 1 }

/-- The context of this package that migrates to destination x (R307): its own serial number names the package. -/
def migrationSource (s : State) (x : Nat) : Option (Nat × Context) :=
  if (s.context x).migration ≠ some (Config.packageSerial.toNat, true) then none
  else s.contexts.find? fun c => c.1 ≠ x && c.2.st = 6 && c.2.migration = some (Config.packageSerial.toNat, false)

/-- n bytes of what another package sends of the context (R307; log 105). -/
def sentBytes (s : State) (x o n : Nat) : List Byte :=
  (List.range n).map fun i => Config.migrated (s.context x).epoch (o + i)

/-- The source's creation record, M, and the context as the destination takes it: all but CTX, PART and IFACE, with keys of
its own (R307, R319, R408). -/
def migratedContext (s : State) (x : Nat) : List Byte × List Byte × Context :=
  let y := s.context x
  match s.migrationSource x with
  | some (_, c) => (c.created, c.measM, { c with part := y.part, iface := y.iface, epoch := y.epoch })
  | none =>
    let d := s.sentBytes x 0 256
    let c := s.contextOf d
    (d, s.sentBytes x 256 64, { c with
      part := y.part, iface := y.iface, epoch := y.epoch,
      events := (List.range 64).map fun i => (i, BitVec.ofNat 16 (leAt (s.sentBytes x (320 + 2 * i) 2) 0 2)) })

/-- The queue of context x that has the window of queue q (R316). -/
def sameWindow (s : State) (q x : Nat) : Option Nat :=
  (s.queues.find? fun o => o.2.bound && o.2.ctx = x && o.2.win = (s.queue q).win).map (·.1)

/-- Held records of a queue of the source go to the destination's queue with the same WIN (R316). -/
def moveRecords (s : State) (x q : Nat) : State :=
  match s.sameWindow q x with
  | some o => s.setQueue o { s.queue o with records := (s.queue o).records ++ (s.queue q).records }
  | none => s

/-- A group goes over with its context: its saved state with all its rows, to be placed again (R307, R350). -/
def moveGroup (s : State) (x h : Nat) : State :=
  let s1 := if (s.group h).st = .cut || (s.group h).st = .frozen then (s.standStill h).evictGroup h else s
  let g := s1.group h
  let own := fun (v : SavedTile) => { v with tile := { v.tile with slots := v.tile.slots.map fun (c : Nat × Slot) =>
    (c.1, { c.2 with owner := some x }) } }
  let s2 := g.savedPlace.foldl (fun (a : State) t => a.takeRows h t.2.2) s1
  (s2.setGroup h { s2.group h with
    ctx := x, queue := (s.sameWindow g.queue x).getD g.queue, saved := g.saved.map (fun v => own (s1.withRows h v)),
    spilledRows := [], payloads := g.payloads.map (fun (y : Payload) => { y with ctx := x }),
    ch := { g.ch with hyper := false }, fh := {} }).post (.evPilotLease h)

/-- The STACK and PACKAGE channels and barrier homes of a context bear the destination's number. -/
def moveChannels (s : State) (x y : Nat) : State :=
  { s with
    chans := s.chans.map fun e => match e.1 with
      | .stack z k n => (.stack (if z = y then x else z) k n, e.2)
      | .package z n => (.package (if z = y then x else z) n, e.2)
      | _ => e,
    homes := s.homes.map fun e => match e.1 with
      | .stack z k n => (.stack (if z = y then x else z) k n, e.2)
      | .package z n => (.package (if z = y then x else z) n, e.2)
      | _ => e }

/-- The PA at which a page shows a line of storage; none where the line is not in its frames (R364). -/
def pageShows (b : SieveLeaf) (line : Nat) : Option Nat :=
  let o := line % 2 ^ 34 * 64
  let base := o / 4096 * 16384
  let pa := match b.fix with
    | some _ => o
    | none => base + (lineStack line ^^^ homeOf base) * 4096 + o % 4096
  if homeFix b.fix pa = lineStack line && b.dest ≤ pa && pa < b.dest + 2 ^ b.log then some pa else none

/-- Where a GPA stands in some stage-2 pages of context x, sealed under key id k; none where they put it at no device
frame (R363, R379). -/
def gpaPlace (s : State) (x : Nat) (pages : List SieveLeaf) (gpa k : Nat) : Option Phys :=
  (pages.find? fun d => d.lo ≤ gpa && gpa < d.lo + 2 ^ d.log && d.dest / 2 ^ 47 % 2 = 0).map fun d =>
    s.physOf x d.fix (d.dest + (gpa - d.lo)) k d.cs

/-- What a migration sends of a line of context y: to each of its GPAs, where x's stage 2 has it, the line's bytes and tags, or
poison where it is poisoned or its seal is not that of the page; with EN = 0 the context's lines are those that its keys
sealed (R307, R368, R379). -/
def sentLine (s : State) (x y : Nat) (line : Nat) (l : Seal) : List (Phys × List Byte × List Nat × Bool) :=
  (if l.owner = (s.context y).epoch || ebit (look 0 s.s2root y) 0 then s.pages2 y else []).filterMap fun b => (pageShows b line).bind fun pa =>
    let bad := s.mem.poison.contains line || l.owner ≠ (s.context y).epoch || l.pa ≠ pa / 64
    (s.gpaPlace x (s.pages2 x) (b.lo + (pa - b.dest)) l.key).map fun p =>
      (p, getBytes s.mem.cells (line * 64) 64, (List.range 4).filter (fun i => s.mem.tags.contains (4 * line + i)), bad)

/-- A line that a migration has sent, written at its place under the destination's keys (R304, R307). -/
def placeLine (s : State) (c : Phys × List Byte × List Nat × Bool) : State :=
  let s1 := s.writeLine c.1 c.2.1 false c.2.2.2
  if c.2.2.2 then s1
  else s1.setMemory { s1.mem with tags := c.2.2.1.foldl (fun l i => insertNat (c.1.key / 16 + i) l) s1.mem.tags }

/-- Every line of context y copied to the frames where x's stage 2 has its GPAs (R307, R379; log 105). -/
def copyPages (s : State) (x y : Nat) : State :=
  (s.mem.seals.flatMap fun e => s.sentLine x y e.1 e.2).foldl placeLine s

/-- What the source holds goes over to destination x of this package; the source is RETIRED (R307). -/
def takeOver (s : State) (x y : Nat) : State :=
  let qs := (s.queues.filter fun q => q.2.bound && q.2.ctx = y && !q.2.records.isEmpty).map (·.1)
  let s1 := qs.foldl (fun (a : State) q => a.moveRecords x q) s
  let s2 := (s1.groupsOf y).foldl (fun (a : State) h => a.moveGroup x h) s1
  let s3 := (s2.copyPages x y).moveChannels x y
  ({ s3 with s1root := put s3.s1root x (look 0 s3.s1root y) }.retireContext y).migrationMessage 0

/-- The destination commits, if its M is the source's: it becomes ACTIVE (R300, R307). -/
def commitHere (s : State) (x : Nat) : State :=
  let (d, m, c) := s.migratedContext x
  if measureM d ≠ m then s
  else
    let s1 := s.setContext x { c with st := 3, migration := none, measM := measureM d, measT := s.firstT x, changes := 0 }
    let s2 := match s.migrationSource x with
      | some (y, _) => s1.takeOver x y
      | none => s1
    (s2.queuesTo x 2 1).post .evAdmission

/-- MIGRATION_COMMIT (R300, R307): the source of a migration to another package is RETIRED and reports; a destination
commits. -/
def commitMigration (s : State) (x : Nat) : State :=
  let c := s.context x
  match c.migration with
  | some (n, false) =>
    if c.st = 6 && n ≠ Config.packageSerial.toNat then (s.retireContext x).migrationMessage 0 else s
  | some (_, true) => if c.st = 1 then s.commitHere x else s
  | none => s

end State

/-- BUILD_COMPLETE (R301). -/
def execEvBuildComplete (x : Nat) (s : State) : Result := .next (s.buildComplete x)
/-- QUIESCE_COMPLETE (R300). -/
def execEvQuiesceComplete (x : Nat) (s : State) : Result := .next (s.quiesceComplete x)
/-- MIGRATION_COMMIT (R307). -/
def execEvMigrationCommit (x : Nat) (s : State) : Result := .next (s.commitMigration x)
/-- CONTEXT_ERROR (R308): containment, with the CAUSE of R381. -/
def execEvContextError (x c : Nat) (s : State) : Result := .next (s.containContext x c)
/-- CONTEXT_RELEASE (R300). -/
def execEvContextRelease (x : Nat) (s : State) : Result := .next (s.releaseContext x)

end Sys2Proof.Machine
end

