-- ==== Sys2Proof/Machine/Partition.lean ====
section
/-! DEFINITION. Partitions, virtual functions and their interfaces: registers, BAR 2, TDISP states (R284, R285, R304,
R393-R395, R398, R399, R402-R405). -/

namespace Sys2Proof.Machine

/-! ## Partition registers (R393-R395, R398) -/

/-- PT_CFG. -/
def Partition.cfgWord (x : Partition) : Word :=
  wd (x.keymask.toNat * 2 ^ 40 + x.buf * 2 ^ 4 + b2n x.mode * 2 + b2n x.valid)
/-- PT_WAYS. -/
def Partition.waysWord (x : Partition) : Word := wd x.ways.toNat
/-- PT_RATE. -/
def Partition.rateWord (x : Partition) : Word := wd (x.burst * 2 ^ 16 + x.rate)

namespace State

/-- A partition has contexts, or functions are bound to it (R393). -/
def partBusy (s : State) (p : Nat) : Bool :=
  (s.contexts.any fun c => c.2.st ≠ 0 && c.2.part = p) || (List.range 64).any fun v => (s.iface v).part = p

/-- A write of PT_CFG (R393). -/
def writePtCfg (s : State) (p : Nat) (v : Word) : State :=
  let x := s.part p
  let valid := bits v 0 1 == 1
  let buf := bits v 4 4
  if x.valid && !valid && s.partBusy p then s
  else s.setPart p { x with valid, mode := bits v 1 1 == 1, keymask := BitVec.ofNat 8 (bits v 40 8),
                            buf := if 2 ≤ buf && buf ≤ 8 then buf else x.buf }

/-- A write of PT_WAYS (R393). -/
def writePtWays (s : State) (p : Nat) (v : Word) : State :=
  if bits v 0 32 = 0 then s else s.setPart p { s.part p with ways := BitVec.ofNat 32 (bits v 0 32) }

/-- The limiters of a partition that hold something come again (R398). -/
def releaseLimiters (s : State) (p : Nat) : State :=
  (s.part p).heldReqs.foldl (fun (a : State) h => a.postOnce (.evLimiterRelease p h.1)) s

/-- A write of PT_RATE (R393, R398): each limiter keeps the credit it has reached; one not yet used starts full. -/
def writePtRate (s : State) (p : Nat) (v : Word) : State :=
  let x := s.part p
  let y := { x with burst := bits v 16 16, rate := bits v 0 16 }
  let used := if x.rate = 0 then [] else x.credit.map (·.1)
  let c := used.map fun k => (k, s.creditNow p k)
  (s.setPart p { y with credit := c, creditAt := used.map fun k => (k, s.fc) }).releaseLimiters p

/-- A bit of a tile set written (R394). -/
def writeTileBit (s : State) (p t : Nat) (on : Bool) : State :=
  let x := s.part p
  let owned := match (s.tile t).owner with
    | some c => (s.context c).part == p
    | none => false
  let elsewhere := s.parts.any fun (q : Nat × Partition) => q.1 ≠ p && q.2.tiles.contains t
  if !isComputeTile t || (on && elsewhere) || (!on && owned) then s
  else s.setPart p { x with tiles := setMem x.tiles t on }

/-- Doubleword i of a tile set written (R394). -/
def writeTileSet (s : State) (p i : Nat) (v : Word) : State :=
  (List.range 64).foldl (fun (a : State) b => a.writeTileBit p (64 * i + b) (v.getLsbD b)) s

/-- Doubleword i of a tile set (R394). -/
def tileSetWord (s : State) (p i : Nat) : Word :=
  wd (((s.part p).tiles.filter fun t => t / 64 = i).map fun t => 2 ^ (t % 64)).sum

/-! ## Interfaces (R399, R404, R405) -/

/-- The context bound to a function (R298). -/
def boundContext (s : State) (v : Nat) : Option Nat :=
  (s.contexts.find? fun c => c.2.st ≠ 0 && c.2.iface = some v).map (·.1)

/-- A write of VF_BIND (R399). -/
def writeVfBind (s : State) (v : Nat) (w : Word) : State :=
  let y := s.iface v
  if y.st ≠ 0 || (s.boundContext v).isSome || !(s.part (bits w 0 5)).valid then s
  else s.setIface v { y with part := bits w 0 5 }

/-- A vector's mask bit (R402). -/
def msiMasked (y : Iface) (v : Nat) : Bool := (look 0x100000000 y.msiTab (2 * v + 1)).getLsbD 32

/-- The pending messages of a function that are unmasked are sent (R405). -/
def sendPending (s : State) (n : Nat) : State :=
  let y := s.iface n
  let go := y.msiPend.filter fun v => !msiMasked y v
  go.foldl (fun (a : State) v => a.sendMsix n v)
    (s.setIface n { y with msiPend := y.msiPend.filter fun v => msiMasked y v })

/-- The bound context of a function enters ERROR, if it is not there (R404). -/
def containBound (s : State) (n : Nat) : State :=
  match s.boundContext n with
  | some x => s.containContext x 0
  | none => s

/-- LOCK_INTERFACE_REQUEST (R14, R404). -/
def lockIface (s : State) (n : Nat) : State :=
  let y := s.iface n
  let ready := match s.boundContext n with
    | some x => (s.context x).st == 2 || (s.context x).st == 5
    | none => true
  if y.st = 0 && y.keyed && ready then
    s.setIface n { y with st := 1, snapCtl := y.ctl, snapApbase := y.apbase }
  else s

/-- START_INTERFACE_REQUEST (R404, R405). -/
def startIface (s : State) (n : Nat) : State :=
  let y := s.iface n
  if y.st = 1 then (s.setIface n { y with st := 2 }).sendPending n else s

/-- A configuration change, a reset or an integrity failure of a locked or running function (R404). -/
def breakIface (s : State) (n : Nat) : State :=
  let y := s.iface n
  if y.st = 1 || y.st = 2 then (s.failIface n).containBound n else s

/-- STOP_INTERFACE_REQUEST (R404, R405, R406). -/
def stopIface (s : State) (n : Nat) : State :=
  let y := s.iface n
  let s1 := match s.boundContext n with
    | some x => s.spoilCopies x
    | none => s
  if y.st = 0 then s else (s1.setIface n { y with st := 0, msiPend := [] }).containBound n

/-- FLR (R404). -/
def resetFunction (s : State) (n : Nat) : State :=
  let y := s.iface n
  if y.st = 0 then s.setIface n { y with ctl := 0, apbase := 0, bbseq := 0 } else s.breakIface n

/-! ## The BAR 2 aperture (R284, R285, R403) -/

/-- The effective IF_APBASE (R14, R404). -/
def apertureBase (y : Iface) : Nat := (if y.st = 1 || y.st = 2 then y.snapApbase else y.apbase).toNat * 2 ^ 36

/-- A BAR 2 access reaches its bound context: aperture on, context in MEASURED to MIGRATING (R403). -/
def apertureOn (s : State) (n : Nat) : Bool := match s.boundContext n with
  | none => false
  | some x => (s.iface n).force.getLsbD 3 && 2 ≤ (s.context x).st && (s.context x).st ≤ 6

/-- The place of a BAR 2 access in memory, translated as a request of level U without a configuration id (R367, R403). -/
def aperturePlace (s : State) (x va : Nat) (w : Bool) : Option (Phys × State) :=
  match s.walk { ctx := x, cfgid := some 0 } va (if w then Need.store else Need.load) with
  | .error _ => none
  | .ok (e, s1) => some (s1.physBy e va, s1.chargeWalk x 0)

/-- A completion of a host read: its bytes are the low ones of v. -/
def reply (s : State) (ur poi : Bool) (v : Nat) : State := { s with hostReply := some (ur, poi, BitVec.ofNat 512 v) }

/-- A read of the beacon window through the aperture is served from the authoritative copy of stack 0; a write is
discarded (R284, R285). -/
def apertureWindow (s : State) (x va z : Nat) (w : Bool) : State :=
  if w then s
  else
    let b := (s.stack 0).base
    let o := s.windowByte x va
    if b.poison.contains (o / 64) then s.reply false true 0 else s.reply false false (fromBytes (b.read o z))

/-- A BAR 2 access that reached its place: it is performed, or waits for the interface, the limiter or the path to its home
(R403, R405). -/
def apertureLine (s : State) (p : Phys) (va z : Nat) (w : Bool) (v : BitVec 512) : State :=
  let r := baseSource 4 0 0
  if w then s.store p (toBytes z v.toNat) false false (wd va) r
  else
    let l := s.loadLine p z (wd va) r
    if l.2.2.1 then l.2.2.2.reply false true 0 else l.2.2.2.reply false false (fromBytes l.1)

/-- A BAR 2 access of z bytes (R403, R405). -/
def aperture (s : State) (n o z : Nat) (w t : Bool) (v : BitVec 512) : State :=
  let x := (s.boundContext n).getD 0
  let va := apertureBase (s.iface n) + o % 2 ^ 36
  let refused := fun (a : State) => if w then a else a.reply true false 0
  if !s.apertureOn n || s.touchesSieve x va z then refused s
  else if s.touchesWindow x va z then s.apertureWindow x va z w
  else match s.aperturePlace x va w with
    | none => refused s
    | some (p, s1) =>
      if s1.mayIssue 0 p then (s1.charge x 0).apertureLine p va z w v else s.post (.evBar2Access n o z w t v)

/-- A BAR 2 access as its interface's state takes it (R405): z bytes, a power of two up to a line, aligned. A read of a
locked interface is accepted; a write is discarded. -/
def bar2 (s : State) (n o z : Nat) (w t : Bool) (v : BitVec 512) : State :=
  let taken := s.barOpen n t || ((s.iface n).st == 1 && !w)
  let shaped := [1, 2, 4, 8, 16, 32, 64].contains z && o % z == 0
  if taken && shaped then s.aperture n o z w t v else if w then s else s.reply true false 0

end State

/-- PT_CFG_WRITE (R393). -/
def execEvPtCfgWrite (p : Nat) (v : Word) (s : State) : Result := .next (s.writePtCfg p v)
/-- PT_WAYS_WRITE (R395). -/
def execEvPtWaysWrite (p : Nat) (v : Word) (s : State) : Result := .next (s.writePtWays p v)
/-- PT_RATE_WRITE (R398). -/
def execEvPtRateWrite (p : Nat) (v : Word) (s : State) : Result := .next (s.writePtRate p v)
/-- TILESET_WRITE (R394). -/
def execEvTilesetWrite (p i : Nat) (v : Word) (s : State) : Result := .next (s.writeTileSet p i v)
/-- VF_BIND_WRITE (R399). -/
def execEvVfBindWrite (n : Nat) (v : Word) (s : State) : Result := .next (s.writeVfBind n v)
/-- LOCK_INTERFACE_REQUEST (R404). -/
def execEvLockInterfaceRequest (n : Nat) (s : State) : Result := .next (s.lockIface n)
/-- START_INTERFACE_REQUEST (R404). -/
def execEvStartInterfaceRequest (n : Nat) (s : State) : Result := .next (s.startIface n)
/-- STOP_INTERFACE_REQUEST (R404). -/
def execEvStopInterfaceRequest (n : Nat) (s : State) : Result := .next (s.stopIface n)
/-- FLR (R404). -/
def execEvFlr (n : Nat) (s : State) : Result := .next (s.resetFunction n)
/-- IDE_INTEGRITY_FAILURE (R404). -/
def execEvIdeIntegrityFailure (n : Nat) (s : State) : Result := .next (s.breakIface n)
/-- INTERFACE_CONFIG_CHANGE (R404). -/
def execEvInterfaceConfigChange (n : Nat) (s : State) : Result := .next (s.breakIface n)
/-- BAR2_ACCESS (R403). -/
def execEvBar2Access (n o z : Nat) (w t : Bool) (v : BitVec 512) (s : State) : Result :=
  .next (s.bar2 n o z w t v)
/-- IDE_STREAM_KEYING (R404). -/
def execEvIdeStreamKeying (n : Nat) (s : State) : Result := .next (s.setIface n { s.iface n with keyed := true })

end Sys2Proof.Machine
end

