-- ==== Sys2Proof/Machine/Lodestone.lean ====
section
/-! DEFINITION. The Lodestone mailbox and its requests, firmware activation, measurement reports (R284, R287,
R298-R302, R307, R309, R407, R408). -/

namespace Sys2Proof.Machine

/-- A buffer that is zero from byte n on (R408). -/
def zeroFrom (d : List Byte) (n : Nat) : Bool := (d.drop n).all (· = 0)

/-- The tile of an entry of a tile list (R298). -/
def entryTile (e : Nat) : Nat := e % 2048
/-- The PERMIT bits of an entry: W, S, E, N from bit 0 (R298). -/
def entryPermit (e : Nat) : Nat := e / 2048 % 16
/-- n entries of a tile list at byte o (R298). -/
def tileEntries (d : List Byte) (o n : Nat) : List Nat := (List.range n).map fun i => leAt d (o + 2 * i) 2
/-- The tile across the edge of PERMIT bit i of a compute tile (R16, R298). -/
def permitNeighbour (p i : Nat) : Nat := if i = 0 then p - 1 else if i = 1 then p - 8 else if i = 2 then p + 1 else p + 8
/-- A list repeats none of its members. -/
def distinct (l : List Nat) : Bool := l.eraseDups.length == l.length

/-- The outcome of a mailbox request: STATUS, RESULT and the state it leaves when it is OK (R407). -/
structure Answer where
  status : Nat := 0
  result : Nat := 0
  state : Option State := none

namespace State

/-! ## The mailbox (R407) -/

/-- The raiser's fields of a record that a read or write of Lodestone's leads to (R382). -/
def lodeSource : Record := { src := 8, place := basePlace 0 }

/-- The storage of a physical address of the mailbox: device memory, or host memory of the physical function
(R363). -/
def lodePlace (a : Nat) : Option Phys :=
  if a / 2 ^ 47 % 2 = 1 then some { key := hostKey 64 (a % 2 ^ 47), pa := a, ctx := 128, host := true }
  else if a < Config.deviceBytes then some (firmwarePhys a) else none

/-- Bytes at a physical address as Lodestone reads them, piece by piece; none where they are unreadable. -/
def lodeRead (s : State) : List (Nat × Nat) → Option (List Byte) × State
  | [] => (some [], s)
  | (a, n) :: t => match lodePlace a with
    | none => (none, s)
    | some p =>
      let r := s.loadLine p n 0 lodeSource
      if r.2.2.1 then (none, r.2.2.2)
      else
        let q := lodeRead r.2.2.2 t
        (q.1.map (r.1 ++ ·), q.2)

/-- n bytes at a physical address as Lodestone reads them. -/
def lodeBytes (s : State) (a n : Nat) : Option (List Byte) × State := s.lodeRead (linePieces a n)

/-- Bytes written into the mailbox buffer from its start. -/
def lodeWrite (s : State) (a : Nat) (bs : List Byte) : State :=
  (linePieces a bs.length).foldl (fun (t : State) c => match lodePlace c.1 with
    | some p => t.store p ((bs.drop (c.1 - a)).take c.2) false false 0 lodeSource
    | none => t) s

/-- LM_STAT (R407). -/
def lodeStat (s : State) : Word :=
  let l := s.lode
  wd (l.result.toNat * 2 ^ 32 + l.status * 2 ^ 16 + l.lastop * 2 ^ 8 + b2n l.ovr * 2 + b2n l.busy)

/-- The event of a request code (R408). -/
def requestEvent (op : Nat) : Option Instr :=
  match op with
  | 1 => some .evCreate | 2 => some .evRetire | 3 => some .evTiles | 4 => some .evMigout | 5 => some .evMigin
  | 6 => some .evMigabort | 8 => some .evGrant | 9 => some .evReclaim | 10 => some .evAttest
  | 11 => some .evKeyslot | 12 => some .evFwact | _ => none

/-- Lodestone takes the request that waits for it, once it is ready (R407, R429). -/
def startRequest (s : State) : State :=
  if !s.lode.busy || s.lode.answered || !s.lode.ready then s
  else match requestEvent s.lode.op with
    | some e => s.postOnce e
    | none => s.answerMailbox 1 0

/-- A write of LM_CMD (R407). -/
def writeLmCmd (s : State) (v : Word) : State :=
  let l := s.lode
  if l.busy then { s with lode := { l with ovr := true } }
  else
    let len := bits v 16 6
    let r := s.lodeBytes l.buf (64 * (len + 1))
    ({ r.2 with lode := { l with busy := true, lastop := bits v 0 8, op := bits v 0 8, len, reqAt := l.buf, req := r.1 } } : State).startRequest

/-- A write of LM_BUF (R407). -/
def writeLmBuf (s : State) (v : Word) : State := { s with lode := { s.lode with buf := bits v 6 42 * 64 } }

/-- A request carried out on its buffer (R407): what it answers with OK it has done, otherwise nothing. -/
def serve (s : State) (op : Nat) (f : List Byte → Answer) : State :=
  if !s.lode.busy || s.lode.answered || !s.lode.ready || s.lode.op ≠ op then s
  else match s.lode.req with
    | none => s.answerMailbox 2 0
    | some d =>
      let a := f d
      match a.state with
      | some t => t.answerMailbox a.status (BitVec.ofNat 32 a.result)
      | none => s.answerMailbox a.status (BitVec.ofNat 32 a.result)

/-- MAILBOX_COMPLETE (R407). -/
def completeMailbox (s : State) : State :=
  let l := s.lode
  if !(l.busy && l.answered) then s
  else
    let s1 := ({ s with lode := { l with busy := false, answered := false } } : State).sendMsix 64 1
    s1.sendHeld (.core 194) (wd (l.result.toNat * 2 ^ 32 + l.status * 2 ^ 16 + l.op))

/-! ## Tile lists and creation records (R284, R298, R299) -/

/-- A list of entries breaks a rule of R299 other than that its tiles are unowned. `final` holds the tiles of the
context afterwards. -/
def entriesBad (s : State) (part : Nat) (l final : List Nat) : Bool :=
  !distinct (l.map entryTile) || l.any fun e =>
    let p := entryTile e
    bit e 15 || !isComputeTile p || s.dis.contains p || !(s.part part).tiles.contains p ||
    (List.range 4).any fun i => bit (entryPermit e) i && !final.contains (permitNeighbour p i)

/-- A listed tile bears an owner tag (R299). -/
def entriesOwned (s : State) (l : List Nat) : Bool := l.any fun e => (s.tile (entryTile e)).owner.isSome

/-- Owner tags and permit bits written (R302). -/
def writeTags (s : State) (x : Nat) (l : List Nat) : State :=
  l.foldl (fun (a : State) e => a.setTile (entryTile e)
    { a.tile (entryTile e) with owner := some x, permit := BitVec.ofNat 4 (entryPermit e) }) s

/-- The beacon window of a record breaks R284. -/
def windowBad (s : State) (base len off : Nat) : Bool :=
  base % 2 ^ 16 ≠ 0 || len % 2 ^ 16 ≠ 0 || off % 2 ^ 16 ≠ 0 || 2 ^ 23 < off + len || 2 ^ 57 < base + len ||
  s.contexts.any fun c => c.2.st ≠ 0 && overlap off len c.2.bwoff c.2.bwlen

/-- PART and IFACE of a request name a partition and a function bound to it (R299). -/
def bindingBad (s : State) (part vf : Nat) : Bool :=
  32 ≤ part || !(s.part part).valid || (vf ≠ 255 && (64 ≤ vf || (s.iface vf).part ≠ part))

/-- A creation record breaks a field's range, alignment or binding (R298, R299). -/
def recordBad (s : State) (d : List Byte) : Bool :=
  let c := s.contextOf d
  128 ≤ leAt d 0 1 || s.bindingBad (leAt d 1 1) (leAt d 2 1) || 4 ≤ leAt d 3 1 || !zeroAt d 4 12 ||
  c.roottab % 256 ≠ 0 || 2 ^ 57 < c.roottab + 512 || !zeroAt d 24 8 || leAt d 32 8 % 4 ≠ 0 ||
  leAt d 40 8 < 4 || 2 ^ 32 < leAt d 40 8 || 2 ^ 57 < leAt d 32 8 + leAt d 40 8 || !c.tecap.tag ||
  s.windowBad c.bwbase c.bwlen c.bwoff || c.spbase % 2 ^ 31 ≠ 0 || 2 ^ 57 < c.spbase + 2 ^ 31 ||
  c.sslen % 2 ^ 16 ≠ 0 || (c.sslen ≠ 0 && (c.ssbase % 2 ^ 16 ≠ 0 || 2 ^ 57 < c.ssbase + c.sslen)) ||
  c.drain = 0 || 2 ^ 32 ≤ c.drain || !zeroAt d 232 24 ||
  overlap (c.roottab + 256) 256 c.bwbase c.bwlen

/-- The root table's place, when it translates to device memory through leaves that grant write and CS (R299). -/
def rootPlace (s : State) (x : Nat) (c : Context) : Option (Phys × State) :=
  match s.walk { ctx := x } c.roottab Need.store with
  | .error _ => none
  | .ok (e, s1) => if e.cs && e.pa / 2 ^ 47 % 2 = 0 then some (s1.physBy e c.roottab, s1) else none

/-- CREATE (R298-R303, R408); BUILD_COMPLETE answers. -/
def create (s : State) : State :=
  if !s.lode.busy || s.lode.answered || !s.lode.ready || s.lode.op ≠ 1 then s
  else match s.lode.req with
    | none => s.answerMailbox 2 0
    | some d =>
      let n := leAt d 256 4
      let l := tileEntries d 260 n
      let x := leAt d 0 1
      let c := s.contextOf d
      if (s.context x).st = 1 && (s.context x).migration.isNone then s
      else if d.length < 260 || n = 0 || 768 < n || d.length < 260 + 2 * n || !zeroFrom d (260 + 2 * n) || s.recordBad d ||
          s.entriesBad c.part l (l.map entryTile) then s.answerMailbox 2 0
      else
        let s1 : State := { s with lode := { s.lode with epochs := s.lode.epochs + 1 } }
        match (s1.setContext x c).rootPlace x c with
        | none => s.answerMailbox 2 0
        | some (p, s2) =>
          if (s.context x).st ≠ 0 then s.answerMailbox 3 0
          else if s.entriesOwned l then s.answerMailbox 4 0
          else (((s2.writeTags x l).writeRoots c p)).post (.evBuildComplete x)

/-! ## Requests about contexts (R300, R301, R307, R408) -/

/-- A request that names a context in byte 0 and nothing beyond byte n (R408). -/
def namesOnly (d : List Byte) (n : Nat) : Bool := leAt d 0 1 < 128 && zeroFrom d n

/-- RETIRE (R300, R408). -/
def retireRequest (s : State) (d : List Byte) : Answer :=
  let x := leAt d 0 1
  let st := (s.context x).st
  if !namesOnly d 1 then { status := 2 }
  else if (1 ≤ st && st ≤ 5) || st = 8 then { state := some (s.retireContext x) }
  else { status := 3 }

/-- TILES (R300, R301, R408). -/
def tilesRequest (s : State) (d : List Byte) : Answer :=
  let x := leAt d 0 1
  let c := s.context x
  let a := leAt d 4 4
  let r := leAt d 8 4
  let fits := 128 > x && zeroAt d 1 3 && 12 + 2 * (a + r) ≤ d.length && zeroFrom d (12 + 2 * (a + r))
  if !fits then { status := 2 }
  else
    let adds := tileEntries d 12 a
    let rems := tileEntries d (12 + 2 * a) r
    let all := adds ++ rems
    let gone := rems.map entryTile
    let final := (s.ownedTiles x).filter (fun p => !gone.contains p) ++ adds.map entryTile
    if !distinct (all.map entryTile) || rems.any (fun e => bit e 15 || !isComputeTile (entryTile e)) ||
        s.entriesBad c.part adds final then { status := 2 }
    else if c.st = 0 then { status := 3 }
    else if rems.any (fun e => (s.tile (entryTile e)).owner ≠ some x) then { status := 2 }
    else if !(c.st = 2 || c.st = 3 || c.st = 5) || all.any (fun e => (s.tile (entryTile e)).group.isSome) then { status := 3 }
    else if s.entriesOwned adds then { status := 4 }
    else
      let s1 := rems.foldl (fun (t : State) e => t.setTile (entryTile e)
        { t.tile (entryTile e) with owner := none, permit := 0 }) s
      let s2 := s1.setContext x { c with changes := c.changes + 1,
                                         measT := shake256 (c.measT ++ (d.drop 4).take (8 + 2 * (a + r))) }
      let s3 := s2.writeTags x adds
      { result := (s3.ownedTiles x).length, state := some s3 }

/-- Every group of a context is CUT or EVICTED, or FROZEN with a snapshot (R307). -/
def migrates (s : State) (x : Nat) : Bool :=
  (s.placedGroups x).all fun h => (s.group h).st = .cut || ((s.group h).st = .frozen && (s.group h).snap.isSome)

/-- MIGOUT (R300, R307, R408). -/
def migoutRequest (s : State) (d : List Byte) : Answer :=
  let x := leAt d 0 1
  let c := s.context x
  if 128 ≤ x || 16 ≤ leAt d 1 1 || !zeroAt d 2 6 || !zeroFrom d 16 then { status := 2 }
  else if c.st ≠ 5 || !c.migr || !s.migrates x then { status := 3 }
  else { state := some (s.setContext x { c with st := 6, migration := some (leAt d 8 8, false) }) }

/-- MIGIN (R300, R307, R408): the destination is reserved in BUILDING with new keys. -/
def miginRequest (s : State) (d : List Byte) : Answer :=
  let x := leAt d 0 1
  let part := leAt d 1 1
  let vf := leAt d 2 1
  let n := leAt d 16 4
  let l := tileEntries d 20 n
  if 128 ≤ x || s.bindingBad part vf || 16 ≤ leAt d 3 1 || !zeroAt d 4 4 || n = 0 || 768 < n ||
      d.length < 20 + 2 * n || !zeroFrom d (20 + 2 * n) || s.entriesBad part l (l.map entryTile) then { status := 2 }
  else if (s.context x).st ≠ 0 then { status := 3 }
  else if s.entriesOwned l then { status := 4 }
  else
    let s1 : State := { s with lode := { s.lode with epochs := s.lode.epochs + 1 } }
    let c : Context := { st := 1, part, iface := if vf = 255 then none else some vf, epoch := s.lode.epochs + 1,
                         migration := some (leAt d 8 8, true) }
    { state := some ((s1.setContext x c).writeTags x l) }

/-- MIGABORT (R300, R408). -/
def migabortRequest (s : State) (d : List Byte) : Answer :=
  let x := leAt d 0 1
  let c := s.context x
  if !namesOnly d 1 then { status := 2 }
  else if c.st = 6 then { state := some ((s.setContext x { c with st := 5, migration := none }).migrationMessage 3) }
  else if c.st = 1 && c.migration.isSome then { state := some (s.retireContext x) }
  else { status := 3 }

/-! ## Beacon runs (R287, R408) -/

/-- The state of a run, and whether a change of it is still to come. -/
def runOf (s : State) (k r : Nat) : RunState × Bool :=
  let b := s.stack k
  (look .free b.runs r, b.pending.any (·.1 = r) || b.announce.any (·.1 = r))

/-- A change of the slot map is announced in the next frame (R287). -/
def changeRun (s : State) (k r : Nat) (v : RunState) : State :=
  (s.setStack k { s.stack k with pending := (s.stack k).pending ++ [(r, v)] }).postOnce (.evBeaconFrame k)

/-- GRANT (R287, R408). -/
def grantRequest (s : State) (d : List Byte) : Answer :=
  let x := leAt d 0 1
  let k := leAt d 1 1
  let r := leAt d 2 1
  let c := s.context x
  if !namesOnly d 3 || 4 ≤ k || 62 ≤ r then { status := 2 }
  else if c.bwlen = 0 || c.st = 0 || 7 ≤ c.st then { status := 3 }
  else if s.runOf k r ≠ (.free, false) then { status := 4 }
  else { state := some (s.changeRun k r (.granted x)) }

/-- A context has a placed group on a stack (R287). -/
def placedOn (s : State) (x k : Nat) : Bool :=
  (s.placedGroups x).any fun h => (s.group h).tiles.any fun t => stackOfTile t.2.2 = k

/-- RECLAIM (R287, R408). -/
def reclaimRequest (s : State) (d : List Byte) : Answer :=
  let k := leAt d 1 1
  let r := leAt d 2 1
  if leAt d 0 1 ≠ 0 || !zeroFrom d 3 || 4 ≤ k || 62 ≤ r then { status := 2 }
  else match s.runOf k r with
    | (.granted x, false) =>
      let another := (List.range 62).any fun o => o ≠ r && s.runOf k o = (.granted x, false)
      if !another && s.placedOn x k then { status := 4 }
      else { state := some (s.changeRun k r (.reclaim x)) }
    | _ => { status := 3 }

/-! ## Measurement and keys (R301, R408) -/

/-- A signature of the device: 114 bytes (R301). -/
def signature (d : List Byte) : List Byte := (List.range 114).map fun i => (Config.ed448Sign d).getD i 0

/-- M, T, the number of tile-set changes and F (R301). -/
def report (s : State) (x : Nat) : List Byte :=
  let c := s.context x
  c.measM ++ c.measT ++ toBytes 8 c.changes ++ s.lode.f

/-- ATTEST (R408). -/
def attestRequest (s : State) (d : List Byte) : Answer :=
  let x := leAt d 0 1
  let st := (s.context x).st
  if d.length < 384 || 128 ≤ x || !zeroAt d 1 63 || !zeroFrom d 128 then { status := 2 }
  else if st < 2 || 6 < st then { status := 3 }
  else
    let body := s.report x ++ (d.drop 64).take 64
    { result := 378, state := some (s.lodeWrite s.lode.reqAt (body ++ signature body)) }

/-- KEYSLOT (R408). -/
def keyslotRequest (s : State) (d : List Byte) : Answer :=
  let i := leAt d 0 1
  let k := leAt d 8 8
  if 8 ≤ i || !zeroAt d 1 7 || d.length < 73 || !zeroFrom d 73 then { status := 2 }
  else if s.groups.any (fun g => g.2.kernel = .verifying &&
      (s.part (s.context g.2.ctx).part).keymask.getLsbD i) then { status := 4 }
  else
    let keys := if k = 0 then del s.lode.keys i else put s.lode.keys i (wd k, (d.drop 16).take 57)
    { state := some { s with lode := { s.lode with keys } } }

/-- SPDM_MEASUREMENT_REQUEST (R301, R400): the report of the function's bound context in MEASURED to MIGRATING,
signed. -/
def spdmMeasure (s : State) (n : Nat) : State :=
  match s.boundContext n with
  | some x =>
    if 2 ≤ (s.context x).st && (s.context x).st ≤ 6 then
      { s with spdmReply := some (n, s.report x ++ signature (s.report x)) }
    else s
  | none => s

/-! ## Firmware activation (R309) -/

/-- The control-core threads. -/
def coreThreads (s : State) : List Nat := (s.threads.filter fun t => isCore t.1).map (·.1)

/-- A thread stands at a yield check or runs no code (R214, R309). -/
def stands (x : Thread) : Bool := x.st = .yielding || x.st = .idle || x.st = .halted || x.st = .trapped

/-- Activation is complete once C is in flash; whether the write succeeds is a free value (R309; log 3). -/
def setCounter (s : State) (svn minsvn : Nat) : State :=
  let c := Nat.max s.lode.counter minsvn
  let ok := s.free.getLsbD 0
  if ok then ({ s.used with lode := { s.lode with counter := c } } : State).answerMailbox 0 (BitVec.ofNat 32 svn)
  else { s.used with lode := { s.lode with flashFail := some (c, svn) } }

/-- The new image runs: contexts that do not accept F enter ERROR (R309, R308). -/
def activate (s : State) (f : List Byte) (svn minsvn : Nat) : State :=
  let s1 : State := { s with lode := { s.lode with f } }
  let s2 := s1.contexts.foldl (fun (a : State) c =>
    if 2 ≤ c.2.st && c.2.st ≤ 6 && !c.2.policy.contains f then a.containContext c.1 0 else a) s1
  (s2.coreThreads.foldl (fun (a : State) t => a.wakeThread t) s2).setCounter svn minsvn

/-- A verified manifest waits for the contexts and the control cores, then runs (R309). -/
def awaitActivation (s : State) (m : List Byte) : State :=
  if s.contexts.any fun c => c.2.st = 1 || c.2.st = 6 then s.postOnce .evFwact
  else
    let s1 := s.coreThreads.foldl (fun (a : State) t => a.stopThread t) s
    if s1.coreThreads.all fun t => stands (s1.thread t) then
      s1.activate (toBytes 64 (Config.manifestField 2 m)) (Config.manifestField 0 m) (Config.manifestField 1 m)
    else s1.postOnce .evFwact

/-- A firmware manifest's signature verifies under Otelton's firmware key (R309). -/
def manifestGood (m : List Byte) : Bool :=
  ed448Verify (Config.otelKey 1) (Config.manifestSigned m).1 (Config.manifestSigned m).2

/-- FWACT (R309, R408). -/
def fwact (s : State) : State :=
  if !s.lode.busy || s.lode.answered || !s.lode.ready || s.lode.op ≠ 12 || s.lode.flashFail.isSome then s
  else match s.lode.req with
    | none => s.answerMailbox 2 0
    | some d =>
      if !zeroFrom d 20 then s.answerMailbox 2 0
      else
        let rm := s.lodeBytes (leAt d 0 8) Config.manifestBytes
        let ri := rm.2.lodeBytes (leAt d 8 8) (leAt d 16 4)
        match rm.1, ri.1 with
        | some m, some i =>
          if !manifestGood m || shake256 i ≠ toBytes 64 (Config.manifestField 2 m) then
            (if Config.manifestField 0 m < s.lode.counter then ri.2.answerMailbox 2 0 else ri.2.answerMailbox 5 0)
          else if Config.manifestField 0 m < s.lode.counter then ri.2.answerMailbox 2 0
          else ri.2.awaitActivation m
        | _, _ => ri.2.answerMailbox 2 0

/-- RETRIED_FLASH_WRITE (R309): on success C is set and the activation completes. -/
def retryFlash (s : State) (ok : Bool) : State :=
  match s.lode.flashFail with
  | some (c, svn) =>
    if ok then
      let s1 : State := { s with lode := { s.lode with flashFail := none, counter := c } }
      if s1.lode.op = 12 then s1.answerMailbox 0 (BitVec.ofNat 32 svn) else s1
    else s
  | none => s

end State

/-- CREATE (R408). -/
def execEvCreate (s : State) : Result := .next s.create
/-- RETIRE (R408). -/
def execEvRetire (s : State) : Result := .next (s.serve 2 s.retireRequest)
/-- TILES (R408). -/
def execEvTiles (s : State) : Result := .next (s.serve 3 s.tilesRequest)
/-- MIGOUT (R408). -/
def execEvMigout (s : State) : Result := .next (s.serve 4 s.migoutRequest)
/-- MIGIN (R408). -/
def execEvMigin (s : State) : Result := .next (s.serve 5 s.miginRequest)
/-- MIGABORT (R408). -/
def execEvMigabort (s : State) : Result := .next (s.serve 6 s.migabortRequest)
/-- GRANT (R408). -/
def execEvGrant (s : State) : Result := .next (s.serve 8 s.grantRequest)
/-- RECLAIM (R408). -/
def execEvReclaim (s : State) : Result := .next (s.serve 9 s.reclaimRequest)
/-- ATTEST (R408). -/
def execEvAttest (s : State) : Result := .next (s.serve 10 s.attestRequest)
/-- KEYSLOT (R408). -/
def execEvKeyslot (s : State) : Result := .next (s.serve 11 s.keyslotRequest)
/-- FWACT (R309). -/
def execEvFwact (s : State) : Result := .next s.fwact
/-- MAILBOX_COMPLETE (R407). -/
def execEvMailboxComplete (s : State) : Result := .next s.completeMailbox
/-- RETRIED_FLASH_WRITE (R309). -/
def execEvRetriedFlashWrite (k : Bool) (s : State) : Result := .next (s.retryFlash k)
/-- SPDM_MEASUREMENT_REQUEST (R301, R400). -/
def execEvSpdmMeasurementRequest (n : Nat) (s : State) : Result := .next (s.spdmMeasure n)

end Sys2Proof.Machine
end

