-- ==== Sys2Proof/Machine/BringUp.lean ====
section
/-! DEFINITION. Package reset, ready reports, the defect map, power and cooling (R18, R289, R429-R433). -/

namespace Sys2Proof.Machine

/-- Events that come from outside the package or from its units' own tests; they outlast a package reset in the
agenda (log 4). -/
def outsideEvent : Instr → Bool
  | .evUnitReady _ | .evDefectMapVerify | .evTrainingEnd .. | .evTrainingTimeout _ | .evRegisterWrite .. |
    .evQueueSubmit .. | .evQcfgWrite .. | .evBar2Access .. | .evLockInterfaceRequest _ |
    .evStartInterfaceRequest _ | .evStopInterfaceRequest _ | .evFlr _ | .evIdeStreamKeying _ |
    .evSpdmMeasurementRequest _ | .evPtCfgWrite .. | .evPtWaysWrite .. | .evPtRateWrite .. | .evTilesetWrite .. |
    .evVfBindWrite .. | .evPwLayerBudgetWrite .. | .evPackageReset => true
  | _ => false

/-- Whether a turn outlasts a package reset. -/
def outsideTurn : Turn → Bool
  | .event i => outsideEvent i
  | _ => false

namespace State

/-! ## Package reset (R412, R429) -/

/-- What the package keeps through a reset: the flash and the counter in it, host memory, the host's own data and
what the host has received; the free-value counter, identities and key epochs go on (log 3). -/
def afterReset (s : State) : State :=
  { agenda := (s.now ++ s.agenda).filter outsideTurn, fresh := s.fresh, ids := s.ids, flash := s.flash,
    atsRefused := s.atsRefused, msix := s.msix, hostReply := s.hostReply, spdmReply := s.spdmReply,
    lode := { counter := s.lode.counter, epochs := s.lode.epochs },
    mem := { cells := s.mem.cells.filter fun (c : Nat × Byte) => 2 ^ 48 ≤ c.1 } }

/-- PACKAGE_RESET (R412, R429): reset, and its release: every link begins to train. -/
def packageReset (s : State) : State := (List.range 80).foldl (fun (a : State) n => a.enableLink n) s.afterReset

/-! ## Ready reports (R429-R431) -/

/-- A stop of the Pilot's placements may be over: waiting leases are tried again (R340). -/
def retryAll (s : State) : State := s.contexts.foldl (fun (a : State) c => a.retryLeases c.1) s

/-- UNIT_READY (R429): within 2^27 fc of reset, Lodestone within 2^28 and after the defect map is verified. -/
def unitReady (s : State) (u : UnitId) : State :=
  let late := 2 ^ 27 < s.fc
  match u with
  | .layer l => if late || 32 ≤ l then s else (s.setLayer l { s.layer l with ready := true }).retryAll
  | .port l i =>
    if late || 32 ≤ l then s
    else match (portTilesOf l)[i]? with
      | some p => (s.setLayer l { s.layer l with ports := insertNat p (s.layer l).ports }).retryAll
      | none => s
  | .base k => if late || 4 ≤ k then s else s.setStack k { s.stack k with ready := true }
  | .lodestone =>
    if 2 ^ 28 < s.fc || !s.lode.mapGood then s
    else ({ s with lode := { s.lode with ready := true } } : State).startRequest

/-- The PTIDs a 2,048-bit map sets (R431). -/
def mapBits (d : List Byte) : List Nat := (List.range 2048).filter fun i => bit (d.getD (i / 8) 0).toNat (i % 8)

/-- The defect map's DIS and PASS sets; none where Lodestone refuses it (R18, R431). -/
def defectMap (d : List Byte) : Option (List Nat × List Nat) :=
  let dis := mapBits ((d.drop 12).take 256)
  let pass := mapBits ((d.drop 268).take 256)
  if d.length < 638 || leAt d 0 4 ≠ 0x4D444C4F || wd (leAt d 4 8) ≠ Config.packageSerial ||
      !ed448Verify (Config.otelKey 0) (d.take 524) ((d.drop 524).take 114) ||
      !(dis ++ pass).all isComputeTile || pass.any (fun p => !dis.contains p) || 32 < dis.length then none
  else some (dis, pass)

/-- DEFECT_MAP_VERIFY (R431): Lodestone reports ready next, or DMFAIL stands. -/
def verifyMap (s : State) : State :=
  if s.lode.ready || s.lode.mapGood || s.lode.dmfail then s
  else match defectMap s.flash with
    | some (dis, pass) =>
      ({ s with dis, pass, lode := { s.lode with mapGood := true } } : State).post (.evUnitReady .lodestone)
    | none => { s with lode := { s.lode with dmfail := true } }

/-- BR_READY (R430). -/
def readyWord (s : State) : Word :=
  wd (((List.range 32).map fun l => b2n (s.layer l).ready * 2 ^ (16 + l)).sum +
    ((List.range 4).map fun k => b2n (s.stack k).ready * 2 ^ (12 + k)).sum +
    b2n s.lode.dmfail * 2 + b2n s.lode.ready)

/-- BR_PORT of a layer (R430). -/
def portWord (s : State) (l : Nat) : Word :=
  wd ((numbered (portTilesOf l)).map fun e => if (s.layer l).ports.contains e.2 then 2 ^ e.1 else 0).sum

/-! ## Power and cooling (R433) -/

/-- PW_LAYER. -/
def powerWord (s : State) (l : Nat) : Word :=
  let y := s.layer l
  wd (y.tj * 2 ^ 40 + y.bstate * 2 ^ 34 + b2n y.throt * 2 ^ 33 + b2n y.sleepBit * 2 ^ 32 + y.rampNext * 2 ^ 16 + y.budNext)

/-- A write of PW_LAYER: a sleep or wake request, and BUD and S from the next window; with BUD above 64 or S outside
1 to 64 nothing (R433). -/
def writePower (s : State) (l : Nat) (v : Word) : State :=
  let bud := bits v 0 7
  let ramp := bits v 16 7
  let sleep := bits v 32 1 == 1
  let y := s.layer l
  let w := s.fc / 64
  let now := y.limitsFrom ≤ w
  if 64 < bud || ramp = 0 || 64 < ramp then s
  else ((s.setLayer l { y with bud := if now then y.budNext else y.bud, ramp := if now then y.rampNext else y.ramp,
                               budNext := bud, rampNext := ramp, limitsFrom := w + 1, sleepBit := sleep }).postOnce
    (.evGovernorWindow l)).post (if sleep then .evLayerSleepRequest l else .evLayerWakeRequest l)

/-- The hottest junction of a layer is j °C: THROT from 105 on, the clocks stop at 115 (R433). -/
def setJunction (s : State) (l j : Nat) : State :=
  { s.setLayer l { s.layer l with tj := j % 256, throt := 105 ≤ j } with stopped := s.stopped || 115 ≤ j }

end State

/-- PACKAGE_RESET (R429). -/
def execEvPackageReset (s : State) : Result := .next s.packageReset
/-- UNIT_READY (R429). -/
def execEvUnitReady (u : UnitId) (s : State) : Result := .next (s.unitReady u)
/-- DEFECT_MAP_VERIFY (R431). -/
def execEvDefectMapVerify (s : State) : Result := .next s.verifyMap
/-- PW_LAYER_BUDGET_WRITE (R433): a write of PW_LAYER. -/
def execEvPwLayerBudgetWrite (l : Nat) (v : Word) (s : State) : Result := .next (s.writePower l v)
/-- THERMAL_THROTTLE (R433): TJ has risen to j, 105 or above. -/
def execEvThermalThrottle (l j : Nat) (s : State) : Result := .next (if 105 ≤ j then s.setJunction l j else s)
/-- THERMAL_TRIP (R433): TJ has risen to j, 115 or above. -/
def execEvThermalTrip (l j : Nat) (s : State) : Result := .next (if 115 ≤ j then s.setJunction l j else s)
/-- THROTTLE_RELEASE (R433): TJ has fallen to j, below 105. -/
def execEvThrottleRelease (l j : Nat) (s : State) : Result := .next (if j < 105 then s.setJunction l j else s)

end Sys2Proof.Machine
end

