-- ==== Sys2Proof/Machine/Capability.lean ====
section
/-! DEFINITION. Derivation and inspection of capabilities (R248-R251). None traps. -/

namespace Sys2Proof.Machine

/-- CSETBOUNDS (R248, R249). -/
def execCsetbounds (d a : CReg) (b : Reg) (s : State) : Result :=
  .next (s.retireC d ((s.c a).setBounds (s.g b).toNat false))
/-- CSETBOUNDSX (R248, R249). -/
def execCsetboundsx (d a : CReg) (b : Reg) (s : State) : Result :=
  .next (s.retireC d ((s.c a).setBounds (s.g b).toNat true))
/-- CSETBOUNDSI (R248, R249): the length is imm13, zero-extended (R35). -/
def execCsetboundsi (d a : CReg) (i : BitVec 13) (s : State) : Result :=
  .next (s.retireC d ((s.c a).setBounds i.toNat false))
/-- CINCADDR (R248, R250). -/
def execCincaddr (d a : CReg) (b : Reg) (s : State) : Result :=
  .next (s.retireC d ((s.c a).setAddr ((s.c a).lo + s.g b)))
/-- CINCADDRI (R248, R250). -/
def execCincaddri (d a : CReg) (i : BitVec 13) (s : State) : Result :=
  .next (s.retireC d ((s.c a).setAddr ((s.c a).lo + i.signExtend 64)))
/-- CSETADDR (R248, R250). -/
def execCsetaddr (d a : CReg) (b : Reg) (s : State) : Result :=
  .next (s.retireC d ((s.c a).setAddr (s.g b)))
/-- CANDPERM (R248). -/
def execCandperm (d a : CReg) (b : Reg) (s : State) : Result :=
  .next (s.retireC d ((s.c a).andPerm (s.g b)))
/-- CSEAL (R248). -/
def execCseal (d a b : CReg) (s : State) : Result :=
  .next (s.retireC d ((s.c a).sealWith s.low (s.c b)))
/-- CUNSEAL (R248). -/
def execCunseal (d a b : CReg) (s : State) : Result :=
  .next (s.retireC d ((s.c a).unsealWith s.low (s.c b)))
/-- CMOVE (R248). -/
def execCmove (d a : CReg) (s : State) : Result := .next (s.retireC d (s.c a))
/-- CCLRTAG (R248). -/
def execCclrtag (d a : CReg) (s : State) : Result := .next (s.retireC d { s.c a with tag := false })

/-- CGETADDR (R251). -/
def execCgetaddr (b : Reg) (a : CReg) (s : State) : Result := .next (s.retire b (s.c a).lo)
/-- CGETBASE (R251). -/
def execCgetbase (b : Reg) (a : CReg) (s : State) : Result := .next (s.retire b (wd (s.c a).base))
/-- CGETLEN (R251). -/
def execCgetlen (b : Reg) (a : CReg) (s : State) : Result :=
  .next (s.retire b (wd ((s.c a).top - (s.c a).base)))
/-- CGETPERM (R251). -/
def execCgetperm (b : Reg) (a : CReg) (s : State) : Result := .next (s.retire b (wd (s.c a).perms))
/-- CGETTAG (R251). -/
def execCgettag (b : Reg) (a : CReg) (s : State) : Result := .next (s.retire b (b2w (s.c a).tag))
/-- CGETSEAL (R251). -/
def execCgetseal (b : Reg) (a : CReg) (s : State) : Result :=
  .next (s.retire b (wd (s.c a).sealType))
/-- CTESTSUB (R251). -/
def execCtestsub (b : Reg) (a d : CReg) (s : State) : Result :=
  .next (s.retire b (b2w ((s.c a).isSub (s.c d))))

/-- The request of CFITLEN and CFITEXP: Min(g[b], 2^57) (R251). -/
def fitRequest (s : State) (b : Reg) : Nat := Nat.min (s.g b).toNat (2 ^ 57)

/-- CFITLEN (R251). -/
def execCfitlen (b : Reg) (s : State) : Result :=
  .next (s.retire b (wd (roundUp (fitRequest s b) (fitLenExp (fitRequest s b)))))
/-- CFITEXP (R251). -/
def execCfitexp (b : Reg) (s : State) : Result :=
  .next (s.retire b (wd (fitLenExp (fitRequest s b))))

end Sys2Proof.Machine
end

