-- ==== Sys2Proof/Machine/Walk.lean ====
section
/-! DEFINITION. Walks asked for again, ATS invalidation, rate-limiter release, the responses to fault records, and
tag-parity errors (R369, R378, R386-R388, R391, R398). -/

namespace Sys2Proof.Machine
namespace State

/-! ## Walks (R369, R378, R387) -/

/-- The stack at whose limiter a walk for a record is charged. -/
def walkStack (s : State) (r : Record) : Nat := (s.raiserRecord r).place / 512

/-- The port tile whose ATS cache a walk for a record asks, if its raiser's accesses go through one (R224, R378). -/
def walkPort (s : State) (r : Record) : Option Nat :=
  match r.raiser with
  | .thread t => some (s.helmPort t)
  | .port .. => some (s.raiserRecord r).place
  | _ => none

/-- PAGE_WALK (R369, R387): the page is walked again; the raiser goes on, or a new record takes the answered
one's place. Rights are checked when the access is made again. -/
def walkAgain (s : State) (k : Nat) : State :=
  match s.walks.find? (·.id == k) with
  | none => s
  | some w =>
    let s1 : State := { s with walks := s.walks.filter (·.id ≠ k) }
    let r := w.rec_
    let x := r.ctx.getD 0
    match s1.chargedWalk { ctx := x, high := true, stack := s1.walkStack r, port := s1.walkPort r } (bits r.addr 0 57) {} with
    | .ok (_, s2) => s2.answerRaiser r 1
    | .error (f, s2) => s2.raise (pageRecord (s1.raiserRecord r) r.addr f)

/-! ## Responses (R386-R388) -/

/-- The operand with OPC 1 and the ACTION named (R386). -/
def operandWord (v : Word) (act : Nat) : Word :=
  wd (2 ^ 62 + bits v 52 10 * 2 ^ 52 + act * 2 ^ 48 + bits v 0 48)

/-- A valid response on the H ring takes effect (R388). -/
def takeH (s : State) (r : Record) (act : Nat) : State :=
  if s.raiserGone r then s
  else if act = 5 then s.unresolvable r
  else if act = 6 then match r.ctx with
    | some x => s.containContext x r.cause
    | none => s
  else if act = 0 then s
  else s.passAction r act

/-- A write of FH_RESP: a valid response frees its slot (R384, R388). -/
def respondH (s : State) (v : Word) : State :=
  let p := responseOf v
  match answered s.ring.slots p with
  | none => s
  | some r => (s.freeH p.slot).takeH r p.action

/-- A response to the queue of context x, or, as 128 and above, to the H ring. -/
def respondTo (s : State) (x : Nat) (v : Word) (act : Nat) : State :=
  if x < 128 then s.respond x (operandWord v act) else s.respondH (operandWord v act)

/-! ## Limiters (R398) -/

/-- LIMITER_RELEASE: with a full credit, or no rate, what the limiter of partition p on stack k holds comes
again; else it waits on. -/
def releaseLimiter (s : State) (p k : Nat) : State :=
  let y := s.part p
  let held := look [] y.heldReqs k
  if held.isEmpty then s
  else if y.rate = 0 || 1024 ≤ s.creditNow p k then
    held.foldl (fun (a : State) i => a.postOnce i) (s.setPart p { y with heldReqs := del y.heldReqs k })
  else s.postOnce (.evLimiterRelease p k)

/-! ## Tag parity (R391) -/

/-- The TAGPARITY record of a way of a slice (R381). -/
def tagRecord (k w detail : Nat) : Record :=
  { cause := 0x10, detail, src := 6, place := basePlace (k / 32), aux := wd (k % 128 * 2 ^ 8 + w % 32), toH := true }

/-- Contexts whose partition's way mask covers way w: they may own the line. -/
def contextsOfWay (s : State) (w : Nat) : List Nat :=
  (s.contexts.filter fun c => c.2.st ≠ 0 && c.2.st < 7 && (s.part c.2.part).ways.getLsbD w).map (·.1)

/-- TAG_PARITY_ERROR (R391) on line l, way w of slice k: the line leaves the slice, a dirty one without write-back. -/
def tagParity (s : State) (k l w : Nat) (clean : Bool) : State :=
  if clean then ({ s.writeBack l with l2 := del s.l2 l } : State).raise (tagRecord k w 1)
  else
    let s1 := ({ s.dropLine l with l2 := del s.l2 l } : State).raise (tagRecord k w 2)
    (s1.contextsOfWay w).foldl (fun (a : State) x => a.containContext x 0x10) s1

end State

/-- PAGE_WALK (R369). -/
def execEvPageWalk (k : Nat) (s : State) : Result := .next (s.walkAgain k)

/-- ATS_INVALIDATE (R378): no port tile holds the translation any more; no request is in flight between steps, so the
completion follows at once. -/
def execEvAtsInvalidate (v : Nat) (a : Word) (s : State) : Result :=
  .next { s with atc := s.atc.filter (fun e => e.2 ≠ (v, a.toNat / 4096)), atsDone := (v, a.toNat / 4096) :: s.atsDone }

/-- FAULT_RESPONSE_DISMISS (R386). -/
def execEvFaultResponseDismiss (x : Nat) (v : Word) (s : State) : Result := .next (s.respondTo x v 0)
/-- FAULT_RESPONSE_RETRY (R387). -/
def execEvFaultResponseRetry (x : Nat) (v : Word) (s : State) : Result := .next (s.respondTo x v 1)
/-- FAULT_RESPONSE_SKIP (R387). -/
def execEvFaultResponseSkip (x : Nat) (v : Word) (s : State) : Result := .next (s.respondTo x v 2)
/-- FAULT_RESPONSE_ABORT (R387). -/
def execEvFaultResponseAbort (x : Nat) (v : Word) (s : State) : Result := .next (s.respondTo x v 3)
/-- UNRESOLVABLE (R388). -/
def execEvUnresolvable (v : Word) (s : State) : Result := .next (s.respondTo 128 v 5)
/-- CONTAIN (R388). -/
def execEvContain (v : Word) (s : State) : Result := .next (s.respondTo 128 v 6)
/-- LIMITER_RELEASE (R398). -/
def execEvLimiterRelease (p k : Nat) (s : State) : Result := .next (s.releaseLimiter p k)
/-- TAG_PARITY_ERROR (R391). -/
def execEvTagParityError (k l w : Nat) (c : Bool) (s : State) : Result := .next (s.tagParity k l w c)

end Sys2Proof.Machine
end

