-- ==== Sys2Proof/Machine/Regs.lean ====
section
/-! DEFINITION. The registers of the physical function's BAR 0 and of a virtual function's BAR 0: one read and one write
for the host and the control cores (R13, R14, R315, R368, R380, R388, R393-R407, R415, R424, R430, R433). -/

namespace Sys2Proof.Machine

/-- The place of an offset in a block of n registers' worth of `stride` bytes from `base` on. -/
def inBlock (o base stride n : Nat) : Bool := base ≤ o && o < base + stride * n

/-- A root register's written value: TABLE and EN (R368). -/
def rootValue (v : Word) : Word := v &&& 0x0000FFFFFFFFF001

namespace State

/-! ## The physical function's BAR 0 -/

/-- Queue, root, counter and fault-ring registers: offsets below 0x0014_0000 (R315, R368, R380, R388). -/
def lowRegRead (s : State) (o : Nat) : Word :=
  if inBlock o 0x100000 64 256 then
    let q := (o - 0x100000) / 64
    if o % 64 = 0 then s.qcfg q else if o % 64 = 8 then s.queueStatus q else 0
  else if inBlock o 0x110000 64 128 then
    let x := (o - 0x110000) / 64
    if o % 64 = 0 then look 0 s.s1root x else if o % 64 = 8 then look 0 s.s2root x else 0
  else if inBlock o 0x120000 8 2048 then
    let c := look (0, 0) s.mcPort ((o - 0x120000) / 8)
    wd (c.2.toNat * 2 ^ 32 + c.1.toNat)
  else if inBlock o 0x124000 16 4 then
    let c := look ((0, 0, 0) : BitVec 32 × BitVec 32 × BitVec 32) s.mcStack ((o - 0x124000) / 16)
    if o % 16 = 0 then wd (c.2.1.toNat * 2 ^ 32 + c.1.toNat) else wd c.2.2.toNat
  else if o = 0x130000 then wd (s.ring.table + s.ring.log2n * 256 + b2n s.ring.en)
  else if o = 0x130010 then wd (s.ring.seq.toNat * 2 ^ 32 + s.ring.drops * 2 ^ 16 + s.ring.slots.length)
  else 0

/-- Partition, function, link, bring-up, power and mailbox registers: offsets from 0x0014_0000 on (R393, R394, R399,
R407, R415, R430, R433). -/
def highRegRead (s : State) (o : Nat) : Word :=
  if inBlock o 0x140000 64 32 then
    let x := s.part ((o - 0x140000) / 64)
    if o % 64 = 0 then x.cfgWord else if o % 64 = 8 then x.waysWord else if o % 64 = 16 then x.rateWord else 0
  else if inBlock o 0x150000 256 32 then s.tileSetWord ((o - 0x150000) / 256) (o % 256 / 8)
  else if inBlock o 0x160000 8 64 then wd (s.iface ((o - 0x160000) / 8)).part
  else if inBlock o 0x170000 64 80 then
    let n := (o - 0x170000) / 64
    let y := s.link n
    if o % 64 = 0 then linkCtl y else if o % 64 = 8 then linkStat n y else if o % 64 = 16 then linkLane y
    else if o % 64 = 24 then linkCnt y else 0
  else if inBlock o 0x180000 8 2048 then
    let m := (s.tile ((o - 0x180000) / 8)).meshErr
    wd ((look 0 m 3).toNat * 2 ^ 48 + (look 0 m 2).toNat * 2 ^ 32 + (look 0 m 1).toNat * 2 ^ 16 + (look 0 m 0).toNat)
  else if o = 0x190000 then s.readyWord
  else if inBlock o 0x190008 8 32 then s.portWord ((o - 0x190008) / 8)
  else if inBlock o 0x1A0000 8 32 then s.powerWord ((o - 0x1A0000) / 8)
  else if o = 0x1B0000 then wd s.lode.buf
  else if o = 0x1B0010 then s.lodeStat
  else 0

/-- A read of the 64-bit register at an offset; reserved places read 0 (R4, R13). -/
def regRead (s : State) (o : Nat) : Word := if o < 0x140000 then s.lowRegRead o else s.highRegRead o

/-- A write of FH_CFG (R388): with EN the raised records for H are written. -/
def writeFhCfg (s : State) (v : Word) : State :=
  let g := s.ring
  let s1 : State := { s with ring := { g with table := bits v 12 36 * 2 ^ 12, log2n := bits v 8 4, en := bits v 0 1 == 1 } }
  (s1.raised.filter fun (r : Record) => r.toH || r.ctx.isNone).foldl
    (fun (a : State) r => a.postOnce (.evFaultRecordWrite r.id)) s1

/-- A write of a queue's status register: OVF and BADWR are HS (R315). -/
def writeQstatus (s : State) (q : Nat) (v : Word) : State :=
  let x := s.queue q
  s.setQueue q { x with ovf := x.ovf && bits v 5 1 = 0, badwr := x.badwr && bits v 4 1 = 0 }

/-- Writes of the registers below 0x0014_0000. -/
def lowRegWrite (s : State) (o : Nat) (v : Word) : State :=
  if inBlock o 0x100000 64 256 then
    let q := (o - 0x100000) / 64
    if o % 64 = 0 then s.writeQcfg q v else if o % 64 = 8 then s.writeQstatus q v else s
  else if inBlock o 0x110000 64 128 then
    let x := (o - 0x110000) / 64
    if o % 64 = 0 then { s with s1root := put s.s1root x (rootValue v) }
    else if o % 64 = 8 then { s with s2root := put s.s2root x (rootValue v) }
    else s
  else if o = 0x130000 then s.writeFhCfg v
  else if o = 0x130008 then s.respondH v
  else s

/-- A write of LM_STAT: OVR is HS (R407). -/
def writeLmStat (s : State) (v : Word) : State :=
  if bits v 1 1 = 1 then { s with lode := { s.lode with ovr := false } } else s

/-- Writes of the registers from 0x0014_0000 on. -/
def highRegWrite (s : State) (o : Nat) (v : Word) : State :=
  if inBlock o 0x140000 64 32 then
    let p := (o - 0x140000) / 64
    if o % 64 = 0 then s.writePtCfg p v else if o % 64 = 8 then s.writePtWays p v
    else if o % 64 = 16 then s.writePtRate p v else s
  else if inBlock o 0x150000 256 32 then s.writeTileSet ((o - 0x150000) / 256) (o % 256 / 8) v
  else if inBlock o 0x160000 8 64 then s.writeVfBind ((o - 0x160000) / 8) v
  else if inBlock o 0x170000 64 80 then
    let n := (o - 0x170000) / 64
    if o % 64 = 0 then s.writeLinkCtl n v else if o % 64 = 8 then s.writeLinkStat n v
    else if o % 64 = 16 then s.markLane n v else s
  else if inBlock o 0x1A0000 8 32 then s.writePower ((o - 0x1A0000) / 8) v
  else if o = 0x1B0000 then s.writeLmBuf v
  else if o = 0x1B0008 then s.writeLmCmd v
  else if o = 0x1B0010 then s.writeLmStat v
  else s

/-- A write of the 64-bit register at an offset, under its access codes (R13). -/
def regWrite (s : State) (o : Nat) (v : Word) : State :=
  if o % 8 ≠ 0 then s else if o < 0x140000 then s.lowRegWrite o v else s.highRegWrite o v

/-! ## A virtual function's BAR 0 (R402) -/

/-- IF_STAT (R402). -/
def ifStat (y : Iface) : Word := wd (y.bbseq.toNat * 2 ^ 32 + y.st)

/-- Context x is bound to function n (R298, R368). -/
def boundTo (s : State) (x n : Nat) : Bool := (s.context x).st ≠ 0 && (s.context x).iface = some n

/-- The 64-bit word at an offset of a function's BAR 0, its MSI-X table and pending bits included. -/
def vfWord (s : State) (n o : Nat) : Word :=
  let y := s.iface n
  if o = 0 then wd y.ctl.toNat
  else if o = 8 then ifStat y
  else if o = 0x10 then wd (y.apbase.toNat * 2 ^ 36)
  else if inBlock o 0x20000 64 16 then
    (if o % 64 = 0 then ((s.windowQueue n ((o - 0x20000) / 64)).map s.queueStatus).getD 0 else 0)
  else if inBlock o 0x30000 64 128 then
    (if o % 64 = 0 && s.boundTo ((o - 0x30000) / 64) n then look 0 s.s1root ((o - 0x30000) / 64) else 0)
  else if inBlock o 0x60000 8 34 then
    let i := (o - 0x60000) / 8
    look (if i % 2 = 1 then 0x100000000 else 0) y.msiTab i
  else if o = 0x60800 then wd (y.msiPend.map fun v => 2 ^ v).sum
  else 0

/-- A host read of a function's BAR 0: none where it completes with Unsupported Request (R405). -/
def vfRead (s : State) (n o : Nat) (t : Bool) : Option Word :=
  if s.barOpen n t || (s.iface n).st = 1 then some (s.vfWord n o) else none

/-- A write of a function's MSI-X table (R404, R405): in RUN a change of it is a configuration change. -/
def writeMsix (s : State) (n i : Nat) (v : Word) : State :=
  let y := s.iface n
  if y.st = 2 then (if look (if i % 2 = 1 then 0x100000000 else 0) y.msiTab i = v then s else s.breakIface n)
  else (s.setIface n { y with msiTab := put y.msiTab i v }).sendPending n

/-- A write of a LK register (R14, R402). -/
def writeLk (s : State) (n o : Nat) (v : Word) : State :=
  let y := s.iface n
  if o = 0 then s.setIface n { y with ctl := BitVec.ofNat 4 (bits v 0 4) }
  else if o = 0x10 then s.setIface n { y with apbase := BitVec.ofNat 21 (bits v 36 21) }
  else s

/-- A write of FQ_RESP (R386, R388). -/
def writeFqResp (s : State) (n x : Nat) (v : Word) : State :=
  if (s.iface n).force.getLsbD 1 && s.boundTo x n && bits v 62 2 = 1 then s.respond x v else s

/-- An accepted write of 8 bytes into a function's BAR 0 (R402). -/
def vfAccepted (s : State) (n o : Nat) (v : Word) : State :=
  if inBlock o 0x20000 64 16 then s.windowWrite n (o - 0x20000) false 0
  else if o % 8 ≠ 0 then s
  else if inBlock o 0x30000 64 128 then
    let x := (o - 0x30000) / 64
    if o % 64 = 0 && s.boundTo x n then { s with s1root := put s.s1root x (rootValue v) } else s
  else if inBlock o 0x40000 64 128 then (if o % 64 = 0 then s.writeFqResp n ((o - 0x40000) / 64) v else s)
  else if inBlock o 0x60000 8 34 then s.writeMsix n ((o - 0x60000) / 8) v
  else s.writeLk n o v

/-- A host write of 8 bytes into a function's BAR 0, as its interface's state takes it (R405). -/
def vfWrite (s : State) (n o : Nat) (t : Bool) (v : Word) : State :=
  if s.barOpen n t then s.vfAccepted n o v
  else if (s.iface n).st = 1 then s.writeLk n o v
  else s

end State

/-- REGISTER_WRITE (R13): the host writes a register of the physical function, or of function f. -/
def execEvRegisterWrite (f : Option Nat) (o : Nat) (t : Bool) (v : Word) (s : State) : Result :=
  .next (match f with
    | none => s.regWrite o v
    | some n => if n < 64 then s.vfWrite n o t v else s)

end Sys2Proof.Machine
end

