-- ==== Sys2Proof/Machine/LoadStore.lean ====
section
/-! DEFINITION. Loads, stores, capability moves and atomics of the helm thread (R223-R225, R252, R257, R260, R268, R271,
R424). -/

namespace Sys2Proof.Machine

/-- The bytes of an access type of LDC and whether it sign-extends (R40). -/
def loadShape : LoadType → Nat × Bool
  | .n8 => (1, false) | .n16 => (2, false) | .n32 => (4, false) | .n64 => (8, false)
  | .i8 => (1, true) | .i16 => (2, true) | .i32 => (4, true)
/-- The bytes of an access type of STC (R40). -/
def storeSize : StoreType → Nat
  | .n8 => 1 | .n16 => 2 | .n32 => 4 | .n64 => 8
/-- The bytes of a helm atomic (R40). -/
def amoSize : AmoWidth → Nat
  | .n64 => 8 | .n32 => 4

/-- The value LDC gives for n loaded bytes (R223). -/
def loadValue (n : Nat) (signed : Bool) (bs : List Byte) : Word :=
  if signed then wrap (sext (fromBytes bs) (8 * n)) else wd (fromBytes bs)

/-- The address of LDC and STC, and that of LDCC and STCC with u = 16 (R223, R252). -/
def accessAddress (c : Cap) (i : BitVec 13) (u : Int) : Word := c.lo + wrap (u * sext i.toNat 13)

namespace State

/-- The offset in the Sieve block of an 8-byte access that touches it: of an unaligned one, a reserved offset (R257). -/
def sieveOffset (s : State) (va : Nat) : Nat :=
  let b := (s.context s.ctx).roottab + 256
  if va % 8 = 0 && b ≤ va then va - b else 0xF8

/-- The register an 8-byte access reaches: a device-management register of a control core, or a Sieve register of the
acting tile thread's context, with its value (R257, R424). -/
def registerValue (s : State) (a : Word) : Option Word :=
  if s.onCore then
    match firmwarePlace a with
    | .register o => some (s.regRead o)
    | _ => none
  else if s.touchesSieve s.ctx (bits a 0 57) 8 then
    some ((s.context s.ctx).sieve.read (s.sieveOffset (bits a 0 57)))
  else none

/-- A register written by an 8-byte access (R257, R424). -/
def registerWrite (s : State) (a v : Word) : Option State :=
  if s.onCore then
    match firmwarePlace a with
    | .register o => some (s.regWrite o v)
    | _ => none
  else if s.touchesSieve s.ctx (bits a 0 57) 8 then
    some (s.writeSieve s.ctx (s.sieveOffset (bits a 0 57)) v)
  else none

/-- LDC (R223). -/
def loadC (s : State) (t : LoadType) (b : Reg) (c : Cap) (i : BitVec 13) : State :=
  let a := accessAddress c i 1
  let n := (loadShape t).1
  match s.dataFault c a n permLoad n false with
  | some f => s.trapCap f a
  | none => match if t = .n64 then s.registerValue a else none with
    | some v => s.retire b v
    | none => match s.helmLoad c a n Need.load with
      | .error u => u
      | .ok (v, s1) => if v.poi then s1.trap 5 0 a else s1.retire b (loadValue n (loadShape t).2 v.bytes)

/-- STC (R223). -/
def storeC (s : State) (t : StoreType) (b : Reg) (c : Cap) (i : BitVec 13) : State :=
  let a := accessAddress c i 1
  let n := storeSize t
  match s.dataFault c a n permStore n true with
  | some f => s.trapCap f a
  | none => match if t = .n64 then s.registerWrite a (s.g b) else none with
    | some s1 => s1.advance
    | none => match s.helmStore c a (toBytes n (s.g b).toNat) false with
      | .error u => u
      | .ok s1 => s1.advance

/-- LDCC (R252): the tag is taken with LOAD_CAP. -/
def loadCap (s : State) (d : CReg) (c : Cap) (i : BitVec 13) : State :=
  let a := accessAddress c i 16
  match s.dataFault c a 16 permLoad 16 false with
  | some f => s.trapCap f a
  | none => match s.helmLoad c a 16 Need.load with
    | .error u => u
    | .ok (v, s1) =>
      if v.poi then s1.trap 5 0 a else s1.retireC d (capOfBytes v.bytes (v.tag && c.has permLoadCap))

/-- The permissions STCC of a capability asks for (R252). -/
def storeCapPerms (k : Cap) : Nat :=
  permStore + (if k.tag then permStoreCap else 0) + (if k.tag && !k.has permGlobal then permStoreLocal else 0)

/-- STCC (R252). -/
def storeCap (s : State) (k c : Cap) (i : BitVec 13) : State :=
  let a := accessAddress c i 16
  match s.dataFault c a 16 (storeCapPerms k) 16 true with
  | some f => s.trapCap f a
  | none => match s.helmStore c a (capBytes k) k.tag with
    | .error u => u
    | .ok s1 => s1.advance

/-! ## Atomics (R225, R271) -/

/-- What an atomic writes: none where a CAS fails (R225). The code 9 is CAS. -/
def amoResult (n op old b d : Nat) : Option Nat :=
  if op = 9 then (if old = d then some b else none) else some (amoValue (8 * n) op old b)

/-- The atomic at its place: the old value, or none for a poisoned line, and the state (R225, R254, R304). -/
def amoAt (s : State) (p : Phys) (a : Word) (n op b d : Nat) (src : Record) : Option Nat × State :=
  let r := s.loadLine p n a src
  let old := fromBytes r.1
  if r.2.2.1 then (none, r.2.2.2)
  else match amoResult n op old b d with
    | some v => (some old, r.2.2.2.store p (toBytes n v) false false a src)
    | none => (some old, r.2.2.2)

/-- An atomic's end: g[d] takes the old value; at PACKAGE scope it is an acquire that raises the L1 generation (R225,
R268); a poisoned line traps POISON. -/
def amoDone (s : State) (d : Reg) (a : Word) (wide : Bool) (old : Option Nat) : State :=
  match old with
  | none => s.trap 5 0 a
  | some v => (if wide then s.raiseGen s.cur else s).retire d (wd v)

/-- A tile thread's atomic at its translated place (R225, R260, R398). -/
def amoTile (s : State) (op n : Nat) (wide : Bool) (d b : Reg) (c : Cap) (p : Phys) : State :=
  let x := s.ctx
  let port := s.slicePort s.curGroup (s.helmPort s.cur) p
  if s.filtered x c then s.revokedLoad port c.lo c
  else if !s.leavesPort s.curGroup port (stackOf s.cur) p then s.holdHelm p
  else
    let s1 := ((s.filterReads x (stackOf s.cur) (portSource port s.curGroup) c).countRequest port p).dropL1 port p
    let r := s1.amoAt p c.lo n op ((s1.g b).toNat % 2 ^ (8 * n)) ((s1.g d).toNat % 2 ^ (8 * n)) (portSource port s1.curGroup)
    r.2.amoDone d c.lo wide r.1

/-- An atomic (R225, R257, R424). -/
def atomic (s : State) (op : Nat) (w : AmoWidth) (k : AmoScope) (d b : Reg) (c : Cap) : State :=
  let a := c.lo
  let n := amoSize w
  match s.dataFault c a n (permLoad + permStore + permAtomic) n true with
  | some f => s.trapCap f a
  | none =>
    if s.onCore then
      match firmwarePlace a with
      | .memory p =>
        if !s.pathOpen (stackOf s.cur) p.home then s.holdHelm p
        else
          let r := s.amoAt p a n op ((s.g b).toNat % 2 ^ (8 * n)) ((s.g d).toNat % 2 ^ (8 * n)) {}
          r.2.amoDone d a false r.1
      | .register _ => s.retire d 0
      | .nowhere => s.trap 4 1 a
    else if s.touchesSieve s.ctx (bits a 0 57) n then s.retire d 0
    else match s.helmTranslate a Need.both with
      | .error u => u
      | .ok (p, s1) => s1.amoTile op n (k = .package) d b c p

end State

/-- LDC (R223). -/
def execLdc (t : LoadType) (b : Reg) (a : CReg) (i : BitVec 13) (s : State) : Result := .next (s.loadC t b (s.c a) i)
/-- STC (R223). -/
def execStc (t : StoreType) (b : Reg) (a : CReg) (i : BitVec 13) (s : State) : Result := .next (s.storeC t b (s.c a) i)
/-- LDCC (R252). -/
def execLdcc (d a : CReg) (i : BitVec 13) (s : State) : Result := .next (s.loadCap d (s.c a) i)
/-- STCC (R252). -/
def execStcc (d a : CReg) (i : BitVec 13) (s : State) : Result := .next (s.storeCap (s.c d) (s.c a) i)

/-- AMOSWAP (R225). -/
def execAmoswap (w : AmoWidth) (c : AmoScope) (d b : Reg) (a : CReg) (s : State) : Result :=
  .next (s.atomic 0 w c d b (s.c a))
/-- AMOADD (R225). -/
def execAmoadd (w : AmoWidth) (c : AmoScope) (d b : Reg) (a : CReg) (s : State) : Result :=
  .next (s.atomic 1 w c d b (s.c a))
/-- AMOAND (R225). -/
def execAmoand (w : AmoWidth) (c : AmoScope) (d b : Reg) (a : CReg) (s : State) : Result :=
  .next (s.atomic 2 w c d b (s.c a))
/-- AMOOR (R225). -/
def execAmoor (w : AmoWidth) (c : AmoScope) (d b : Reg) (a : CReg) (s : State) : Result :=
  .next (s.atomic 3 w c d b (s.c a))
/-- AMOXOR (R225). -/
def execAmoxor (w : AmoWidth) (c : AmoScope) (d b : Reg) (a : CReg) (s : State) : Result :=
  .next (s.atomic 4 w c d b (s.c a))
/-- AMOMIN (R225). -/
def execAmomin (w : AmoWidth) (c : AmoScope) (d b : Reg) (a : CReg) (s : State) : Result :=
  .next (s.atomic 5 w c d b (s.c a))
/-- AMOMAX (R225). -/
def execAmomax (w : AmoWidth) (c : AmoScope) (d b : Reg) (a : CReg) (s : State) : Result :=
  .next (s.atomic 6 w c d b (s.c a))
/-- AMOMINU (R225). -/
def execAmominu (w : AmoWidth) (c : AmoScope) (d b : Reg) (a : CReg) (s : State) : Result :=
  .next (s.atomic 7 w c d b (s.c a))
/-- AMOMAXU (R225). -/
def execAmomaxu (w : AmoWidth) (c : AmoScope) (d b : Reg) (a : CReg) (s : State) : Result :=
  .next (s.atomic 8 w c d b (s.c a))
/-- AMOCAS (R225). -/
def execAmocas (w : AmoWidth) (c : AmoScope) (d b : Reg) (a : CReg) (s : State) : Result :=
  .next (s.atomic 9 w c d b (s.c a))

end Sys2Proof.Machine
end

