-- ==== Sys2Proof/Machine/Wait.lean ====
section
/-! DEFINITION. What ends a wait (R212, R213, R239). -/

namespace Sys2Proof.Machine
namespace State

/-- The condition a WAITING thread waits for holds (R213). -/
def waitMet (s : State) (t : Nat) : Bool :=
  match (s.thread t).wait with
  | .outFree n k => s.outFree t n k
  | .inBeat n => !(s.inq (ptidOf t) (unitOf t) n).isEmpty
  | .outEmpty n => (s.outq (ptidOf t) (unitOf t) n).isEmpty
  | .sbar => s.still t
  | .chanFree c => s.maySend t c
  | .chanMsg c => s.mayRecv t c
  | .engineFree => s.unitRequests t < 8
  | .barrier b => s.barrierOpen t b
  | .beaconFree => (s.unit (ptidOf t) (unitOf t)).bcst.length < 4
  | .beaconDone => s.beaconDone t
  | .refill l => (s.layer l).bstate ≠ 2
  | .tlbsync => s.synced t
  | .gstat => s.commandsRecorded t
  | .limiter p k => (s.part p).rate = 0 || 1024 ≤ s.creditNow p k
  | .host => s.hostOpen (s.ctxOf t)
  | .edge k j => s.pathOpen k j
  | .drain => s.unitDrained t
  | .again => true
  | .none | .sleep | .access => false

/-- A wait within an access or a fetch: the access begins again when it ends (R213, R220, R223). -/
def retries : Wait → Bool
  | .refill _ | .limiter .. | .host | .edge .. | .again => true
  | _ => false

/-- A waiting instruction completes (R212). -/
def completeBlocked (s : State) : Instr → State
  | .ssend a n => s.sendBeat n.toNat { data := s.g a }
  | .sseed a n => s.sendBeat n.toNat { data := s.g a, cfg := true }
  | .sload d a n => s.sendCap d (s.c a) n.toNat
  | .srecv d n => s.recvBeat d n.toNat
  | .sdrain n => s.drained n.toNat
  | .sbar => s.streamBarrier
  | .msend a c => s.sendMsg (s.g a) c.toNat
  | .mrecv d c => s.recvMsg d c.toNat
  | .ecopy d a n => s.request 0 (ecopyArg s.onCore (s.g n) d) (s.c d) (s.c a) (s.g n)
  | .egather d a n => s.request 1 (egatherArg (s.g n)) (s.c d) (s.c a) (s.g n)
  | .ecoll d a n => s.request 2 (ecollArg (s.g n)) (s.c d) (s.c a) (s.g n)
  | .bwait b => s.waitBarrier b.toNat
  | .barvw b => s.arriveWait b.toNat
  | .bcst a n => s.broadcastRows (s.c a) (s.g n)
  | .bcfence => s.beaconFence
  | .tlbsync => s.advance
  | .gstat d a => s.retire d (s.gstatWord (s.g a))
  | _ => s.setTh { s.th with st := .ready, wait := .none }

end State

/-- The acting thread's instruction is over, or waits with its word (R212): what it takes to complete n fc on. -/
def State.settle (s : State) (w : Word32) (n : Nat) : State :=
  s.setTh { s.th with busy := s.fc + n, instr := if s.th.st = .waiting then some w else none }

/-- BLOCKING_CONDITION_MET (R212-R214): the waiting instruction of thread t completes and the thread is READY; an
access or a fetch that waited goes on at once, without a new issue (R215); a thread whose streams have drained is YIELDING. -/
def execEvBlockingConditionMet (t : Nat) (s : State) : Result :=
  .next (
    let x := s.thread t
    let s1 := { s with cur := t }
    if x.st = .waiting && !x.frozen && s.waitMet t then
      if x.wait = .drain then s1.yieldThread t x
      else if State.retries x.wait then
        let s2 := s1.setTh { x with st := .ready, wait := .none }
        { s2 with now := .resume t :: s2.now }
      else match x.instr.map fun w => (w, decodeHelm w.toNat) with
      | some (w, .ok i) => (s1.completeBlocked i).settle w 1
      | _ => s1.setTh { x with st := .ready, wait := .none }
    else s)

/-- SLEEP_EXPIRE (R239): the sleep has run out and the thread goes to its next instruction. -/
def execEvSleepExpire (t : Nat) (s : State) : Result :=
  .next (
    let x := s.thread t
    if x.st = .waiting && x.wait = .sleep && !x.frozen && x.wakeAt ≤ s.fc then
      let s1 := ({ s with cur := t }).advance
      s1.setTh { s1.th with instr := none }
    else s)

end Sys2Proof.Machine
end

