-- ==== Sys2Proof/Machine/Dispatch.lean ====
section
/-! DEFINITION. The dispatch: one arm per instruction, each a direct call of its meaning. -/

namespace Sys2Proof.Machine

/-- The meaning of an instruction, element operation, matrix operation or event. -/
def exec (i : Instr) (s : State) : Host.Outcome State Fault Refusal :=
  match i with
  | .add d a b => Sys2Proof.Machine.execAdd d a b s
  | .sub d a b => Sys2Proof.Machine.execSub d a b s
  | .and d a b => Sys2Proof.Machine.execAnd d a b s
  | .or d a b => Sys2Proof.Machine.execOr d a b s
  | .xor d a b => Sys2Proof.Machine.execXor d a b s
  | .andn d a b => Sys2Proof.Machine.execAndn d a b s
  | .sll d a b => Sys2Proof.Machine.execSll d a b s
  | .srl d a b => Sys2Proof.Machine.execSrl d a b s
  | .sra d a b => Sys2Proof.Machine.execSra d a b s
  | .min d a b => Sys2Proof.Machine.execMin d a b s
  | .max d a b => Sys2Proof.Machine.execMax d a b s
  | .minu d a b => Sys2Proof.Machine.execMinu d a b s
  | .maxu d a b => Sys2Proof.Machine.execMaxu d a b s
  | .clz d a => Sys2Proof.Machine.execClz d a s
  | .ctz d a => Sys2Proof.Machine.execCtz d a s
  | .popc d a => Sys2Proof.Machine.execPopc d a s
  | .bilv d a b => Sys2Proof.Machine.execBilv d a b s
  | .bdlv d a => Sys2Proof.Machine.execBdlv d a s
  | .seq d a b => Sys2Proof.Machine.execSeq d a b s
  | .sne d a b => Sys2Proof.Machine.execSne d a b s
  | .slt d a b => Sys2Proof.Machine.execSlt d a b s
  | .sltu d a b => Sys2Proof.Machine.execSltu d a b s
  | .sle d a b => Sys2Proof.Machine.execSle d a b s
  | .sleu d a b => Sys2Proof.Machine.execSleu d a b s
  | .sel d a b => Sys2Proof.Machine.execSel d a b s
  | .mul d a b => Sys2Proof.Machine.execMul d a b s
  | .mulhi d a b => Sys2Proof.Machine.execMulhi d a b s
  | .mulhiu d a b => Sys2Proof.Machine.execMulhiu d a b s
  | .div d a b => Sys2Proof.Machine.execDiv d a b s
  | .divu d a b => Sys2Proof.Machine.execDivu d a b s
  | .rem d a b => Sys2Proof.Machine.execRem d a b s
  | .remu d a b => Sys2Proof.Machine.execRemu d a b s
  | .addi d a m => Sys2Proof.Machine.execAddi d a m s
  | .andi d a m => Sys2Proof.Machine.execAndi d a m s
  | .ori d a m => Sys2Proof.Machine.execOri d a m s
  | .xori d a m => Sys2Proof.Machine.execXori d a m s
  | .slti d a m => Sys2Proof.Machine.execSlti d a m s
  | .sltiu d a m => Sys2Proof.Machine.execSltiu d a m s
  | .lui d m => Sys2Proof.Machine.execLui d m s
  | .slli d a n => Sys2Proof.Machine.execSlli d a n s
  | .srli d a n => Sys2Proof.Machine.execSrli d a n s
  | .srai d a n => Sys2Proof.Machine.execSrai d a n s
  | .bfx d a p l => Sys2Proof.Machine.execBfx d a p l s
  | .bfi d a p l => Sys2Proof.Machine.execBfi d a p l s
  | .beq a b o => Sys2Proof.Machine.execBeq a b o s
  | .bne a b o => Sys2Proof.Machine.execBne a b o s
  | .blt a b o => Sys2Proof.Machine.execBlt a b o s
  | .bge a b o => Sys2Proof.Machine.execBge a b o s
  | .bltu a b o => Sys2Proof.Machine.execBltu a b o s
  | .bgeu a b o => Sys2Proof.Machine.execBgeu a b o s
  | .j o => Sys2Proof.Machine.execJ o s
  | .jal o => Sys2Proof.Machine.execJal o s
  | .cjr a => Sys2Proof.Machine.execCjr a s
  | .cjalr d a => Sys2Proof.Machine.execCjalr d a s
  | .ccall a d => Sys2Proof.Machine.execCcall a d s
  | .ldc t b a m => Sys2Proof.Machine.execLdc t b a m s
  | .stc t b a m => Sys2Proof.Machine.execStc t b a m s
  | .ldcc d a m => Sys2Proof.Machine.execLdcc d a m s
  | .stcc d a m => Sys2Proof.Machine.execStcc d a m s
  | .amoswap w c d b a => Sys2Proof.Machine.execAmoswap w c d b a s
  | .amoadd w c d b a => Sys2Proof.Machine.execAmoadd w c d b a s
  | .amoand w c d b a => Sys2Proof.Machine.execAmoand w c d b a s
  | .amoor w c d b a => Sys2Proof.Machine.execAmoor w c d b a s
  | .amoxor w c d b a => Sys2Proof.Machine.execAmoxor w c d b a s
  | .amomin w c d b a => Sys2Proof.Machine.execAmomin w c d b a s
  | .amomax w c d b a => Sys2Proof.Machine.execAmomax w c d b a s
  | .amominu w c d b a => Sys2Proof.Machine.execAmominu w c d b a s
  | .amomaxu w c d b a => Sys2Proof.Machine.execAmomaxu w c d b a s
  | .amocas w c d b a => Sys2Proof.Machine.execAmocas w c d b a s
  | .csetbounds d a b => Sys2Proof.Machine.execCsetbounds d a b s
  | .csetboundsx d a b => Sys2Proof.Machine.execCsetboundsx d a b s
  | .cincaddr d a b => Sys2Proof.Machine.execCincaddr d a b s
  | .csetaddr d a b => Sys2Proof.Machine.execCsetaddr d a b s
  | .candperm d a b => Sys2Proof.Machine.execCandperm d a b s
  | .cseal d a b => Sys2Proof.Machine.execCseal d a b s
  | .cunseal d a b => Sys2Proof.Machine.execCunseal d a b s
  | .cmove d a => Sys2Proof.Machine.execCmove d a s
  | .cclrtag d a => Sys2Proof.Machine.execCclrtag d a s
  | .cgetaddr b a => Sys2Proof.Machine.execCgetaddr b a s
  | .cgetbase b a => Sys2Proof.Machine.execCgetbase b a s
  | .cgetlen b a => Sys2Proof.Machine.execCgetlen b a s
  | .cgetperm b a => Sys2Proof.Machine.execCgetperm b a s
  | .cgettag b a => Sys2Proof.Machine.execCgettag b a s
  | .cgetseal b a => Sys2Proof.Machine.execCgetseal b a s
  | .ctestsub b a d => Sys2Proof.Machine.execCtestsub b a d s
  | .cfitlen b => Sys2Proof.Machine.execCfitlen b s
  | .cfitexp b => Sys2Proof.Machine.execCfitexp b s
  | .cincaddri d a m => Sys2Proof.Machine.execCincaddri d a m s
  | .csetboundsi d a m => Sys2Proof.Machine.execCsetboundsi d a m s
  | .sload d a n => Sys2Proof.Machine.execSload d a n s
  | .sseed a n => Sys2Proof.Machine.execSseed a n s
  | .ssend a n => Sys2Proof.Machine.execSsend a n s
  | .srecv d n => Sys2Proof.Machine.execSrecv d n s
  | .sdrain n => Sys2Proof.Machine.execSdrain n s
  | .sbar => Sys2Proof.Machine.execSbar s
  | .msend a c => Sys2Proof.Machine.execMsend a c s
  | .mrecv d c => Sys2Proof.Machine.execMrecv d c s
  | .ecopy d a n => Sys2Proof.Machine.execEcopy d a n s
  | .egather d a n => Sys2Proof.Machine.execEgather d a n s
  | .ecoll d a n => Sys2Proof.Machine.execEcoll d a n s
  | .binit c a b => Sys2Proof.Machine.execBinit c a b s
  | .barv b => Sys2Proof.Machine.execBarv b s
  | .bwait b => Sys2Proof.Machine.execBwait b s
  | .btest d b => Sys2Proof.Machine.execBtest d b s
  | .barvw b => Sys2Proof.Machine.execBarvw b s
  | .qpush d a q => Sys2Proof.Machine.execQpush d a q s
  | .qstat d q => Sys2Proof.Machine.execQstat d q s
  | .gplace d a n => Sys2Proof.Machine.execGplace d a n s
  | .gmove d a n => Sys2Proof.Machine.execGmove d a n s
  | .gcut d a => Sys2Proof.Machine.execGcut d a s
  | .gfreeze d a => Sys2Proof.Machine.execGfreeze d a s
  | .gevict d a => Sys2Proof.Machine.execGevict d a s
  | .gresume d a => Sys2Proof.Machine.execGresume d a s
  | .gstat d a => Sys2Proof.Machine.execGstat d a s
  | .bcst a n => Sys2Proof.Machine.execBcst a n s
  | .bcfence => Sys2Proof.Machine.execBcfence s
  | .bslot d => Sys2Proof.Machine.execBslot d s
  | .fence c => Sys2Proof.Machine.execFence c s
  | .syield => Sys2Proof.Machine.execSyield s
  | .trap c => Sys2Proof.Machine.execTrap c s
  | .tret => Sys2Proof.Machine.execTret s
  | .sleep a => Sys2Proof.Machine.execSleep a s
  | .mfk d k => Sys2Proof.Machine.execMfk d k s
  | .mtk a k => Sys2Proof.Machine.execMtk a k s
  | .tlbinvStage1 a => Sys2Proof.Machine.execTlbinvStage1 a s
  | .tlbinvStage2 a => Sys2Proof.Machine.execTlbinvStage2 a s
  | .tlbsync => Sys2Proof.Machine.execTlbsync s
  | .cxstat d a => Sys2Proof.Machine.execCxstat d a s
  | .cxquiesce d a => Sys2Proof.Machine.execCxquiesce d a s
  | .cxresume d a => Sys2Proof.Machine.execCxresume d a s
  | .ldisc m a n => Sys2Proof.Machine.execLdisc m a n s
  | .mxMma w => Sys2Proof.Machine.execMxMma w s
  | .mxMmas w => Sys2Proof.Machine.execMxMmas w s
  | .mxMmab w => Sys2Proof.Machine.execMxMmab w s
  | .mxBload w => Sys2Proof.Machine.execMxBload w s
  | .mxBdrop w => Sys2Proof.Machine.execMxBdrop w s
  | .mxAzero w => Sys2Proof.Machine.execMxAzero w s
  | .mxAload w => Sys2Proof.Machine.execMxAload w s
  | .mxAstore w => Sys2Proof.Machine.execMxAstore w s
  | .mxAstorez w => Sys2Proof.Machine.execMxAstorez w s
  | .mxAadd w => Sys2Proof.Machine.execMxAadd w s
  | .mxAscale w => Sys2Proof.Machine.execMxAscale w s
  | .mxAbias w => Sys2Proof.Machine.execMxAbias w s
  | .mxTrn w => Sys2Proof.Machine.execMxTrn w s
  | .mxRmax w => Sys2Proof.Machine.execMxRmax w s
  | .mxRsum w => Sys2Proof.Machine.execMxRsum w s
  | .mxMark w => Sys2Proof.Machine.execMxMark w s
  | .mxXfence w => Sys2Proof.Machine.execMxXfence w s
  | .mxCntrd w => Sys2Proof.Machine.execMxCntrd w s
  | .evMatrixCommit p => Sys2Proof.Machine.execEvMatrixCommit p s
  | .evGovernorWindow l => Sys2Proof.Machine.execEvGovernorWindow l s
  | .evRegionFire g r => Sys2Proof.Machine.execEvRegionFire g r s
  | .evConfigWordApply p n o => Sys2Proof.Machine.execEvConfigWordApply p n o s
  | .evElementPark p n => Sys2Proof.Machine.execEvElementPark p n s
  | .evMemoryReply p n k => Sys2Proof.Machine.execEvMemoryReply p n k s
  | .evStoreAck p n k => Sys2Proof.Machine.execEvStoreAck p n k s
  | .evRunCompletionBeat p n => Sys2Proof.Machine.execEvRunCompletionBeat p n s
  | .evXlatWalkComplete p n => Sys2Proof.Machine.execEvXlatWalkComplete p n s
  | .evBankTransferComplete p n => Sys2Proof.Machine.execEvBankTransferComplete p n s
  | .evOnlineCut p n => Sys2Proof.Machine.execEvOnlineCut p n s
  | .evBlockingConditionMet t => Sys2Proof.Machine.execEvBlockingConditionMet t s
  | .evSleepExpire t => Sys2Proof.Machine.execEvSleepExpire t s
  | .evHeldMessageEnter c => Sys2Proof.Machine.execEvHeldMessageEnter c s
  | .evEngineTransfer k => Sys2Proof.Machine.execEvEngineTransfer k s
  | .evEcollCombine h => Sys2Proof.Machine.execEvEcollCombine h s
  | .evEngineResponse k => Sys2Proof.Machine.execEvEngineResponse k s
  | .evLastBeatTokenArrive p k n => Sys2Proof.Machine.execEvLastBeatTokenArrive p k n s
  | .evSieveFinish x k => Sys2Proof.Machine.execEvSieveFinish x k s
  | .evSweepDone x => Sys2Proof.Machine.execEvSweepDone x s
  | .evBeaconFrame k => Sys2Proof.Machine.execEvBeaconFrame k s
  | .evBeaconSlot k n => Sys2Proof.Machine.execEvBeaconSlot k n s
  | .evBcstRowRead p u => Sys2Proof.Machine.execEvBcstRowRead p u s
  | .evLayerSleepRequest l => Sys2Proof.Machine.execEvLayerSleepRequest l s
  | .evLayerWakeRequest l => Sys2Proof.Machine.execEvLayerWakeRequest l s
  | .evRefillComplete l => Sys2Proof.Machine.execEvRefillComplete l s
  | .evBuildComplete x => Sys2Proof.Machine.execEvBuildComplete x s
  | .evQuiesceComplete x => Sys2Proof.Machine.execEvQuiesceComplete x s
  | .evMigrationCommit x => Sys2Proof.Machine.execEvMigrationCommit x s
  | .evContextError x c => Sys2Proof.Machine.execEvContextError x c s
  | .evContextRelease x => Sys2Proof.Machine.execEvContextRelease x s
  | .evAdmission => Sys2Proof.Machine.execEvAdmission s
  | .evSeedInject g => Sys2Proof.Machine.execEvSeedInject g s
  | .evImageVerify g => Sys2Proof.Machine.execEvImageVerify g s
  | .evPilotLease g => Sys2Proof.Machine.execEvPilotLease g s
  | .evTileConfigure g => Sys2Proof.Machine.execEvTileConfigure g s
  | .evTileConfigured g p => Sys2Proof.Machine.execEvTileConfigured g p s
  | .evConfigCompleteWave g r => Sys2Proof.Machine.execEvConfigCompleteWave g r s
  | .evConfigAck g k => Sys2Proof.Machine.execEvConfigAck g k s
  | .evStart g => Sys2Proof.Machine.execEvStart g s
  | .evKernelComplete g => Sys2Proof.Machine.execEvKernelComplete g s
  | .evKernelRetire g => Sys2Proof.Machine.execEvKernelRetire g s
  | .evGroupStopRequest g h => Sys2Proof.Machine.execEvGroupStopRequest g h s
  | .evStopComplete g => Sys2Proof.Machine.execEvStopComplete g s
  | .evStopBoundExpire g => Sys2Proof.Machine.execEvStopBoundExpire g s
  | .evGroupResume g => Sys2Proof.Machine.execEvGroupResume g s
  | .evSlackWaterFreeze g h => Sys2Proof.Machine.execEvSlackWaterFreeze g h s
  | .evFreezeRelease g => Sys2Proof.Machine.execEvFreezeRelease g s
  | .evGroupMove g => Sys2Proof.Machine.execEvGroupMove g s
  | .evCompaction g => Sys2Proof.Machine.execEvCompaction g s
  | .evGroupEvict g => Sys2Proof.Machine.execEvGroupEvict g s
  | .evSnapshot g => Sys2Proof.Machine.execEvSnapshot g s
  | .evBarrierArrivalSend p b => Sys2Proof.Machine.execEvBarrierArrivalSend p b s
  | .evBarrierHomeArrival h => Sys2Proof.Machine.execEvBarrierHomeArrival h s
  | .evBarrierHomeInit h => Sys2Proof.Machine.execEvBarrierHomeInit h s
  | .evBarrierCompletionApply p b => Sys2Proof.Machine.execEvBarrierCompletionApply p b s
  | .evBarrierInitReply p b => Sys2Proof.Machine.execEvBarrierInitReply p b s
  | .evPageWalk k => Sys2Proof.Machine.execEvPageWalk k s
  | .evTlbinvBroadcastArrive k r => Sys2Proof.Machine.execEvTlbinvBroadcastArrive k r s
  | .evFaultRecordWrite k => Sys2Proof.Machine.execEvFaultRecordWrite k s
  | .evLimiterRelease p k => Sys2Proof.Machine.execEvLimiterRelease p k s
  | .evCreate => Sys2Proof.Machine.execEvCreate s
  | .evRetire => Sys2Proof.Machine.execEvRetire s
  | .evTiles => Sys2Proof.Machine.execEvTiles s
  | .evMigout => Sys2Proof.Machine.execEvMigout s
  | .evMigin => Sys2Proof.Machine.execEvMigin s
  | .evMigabort => Sys2Proof.Machine.execEvMigabort s
  | .evGrant => Sys2Proof.Machine.execEvGrant s
  | .evReclaim => Sys2Proof.Machine.execEvReclaim s
  | .evAttest => Sys2Proof.Machine.execEvAttest s
  | .evKeyslot => Sys2Proof.Machine.execEvKeyslot s
  | .evFwact => Sys2Proof.Machine.execEvFwact s
  | .evMailboxComplete => Sys2Proof.Machine.execEvMailboxComplete s
  | .evPauseDrainComplete n => Sys2Proof.Machine.execEvPauseDrainComplete n s
  | .evPackageReset => Sys2Proof.Machine.execEvPackageReset s
  | .evUnitReady u => Sys2Proof.Machine.execEvUnitReady u s
  | .evDefectMapVerify => Sys2Proof.Machine.execEvDefectMapVerify s
  | .evIllegalOp w => Sys2Proof.Machine.execEvIllegalOp w s
  | .evBeatAdvance p n => Sys2Proof.Machine.execEvBeatAdvance p n s
  | .evFiringResult p n => Sys2Proof.Machine.execEvFiringResult p n s
  | .evRetriedFlashWrite k => Sys2Proof.Machine.execEvRetriedFlashWrite k s
  | .evBeatInvalid p e c v b => Sys2Proof.Machine.execEvBeatInvalid p e c v b s
  | .evSieveGo x v => Sys2Proof.Machine.execEvSieveGo x v s
  | .evQueueSubmit v o t f r => Sys2Proof.Machine.execEvQueueSubmit v o t f r s
  | .evQcfgWrite q v => Sys2Proof.Machine.execEvQcfgWrite q v s
  | .evAtsInvalidate v a => Sys2Proof.Machine.execEvAtsInvalidate v a s
  | .evFaultqConfig x v => Sys2Proof.Machine.execEvFaultqConfig x v s
  | .evFaultResponseDismiss x v => Sys2Proof.Machine.execEvFaultResponseDismiss x v s
  | .evFaultResponseRetry x v => Sys2Proof.Machine.execEvFaultResponseRetry x v s
  | .evFaultResponseSkip x v => Sys2Proof.Machine.execEvFaultResponseSkip x v s
  | .evFaultResponseAbort x v => Sys2Proof.Machine.execEvFaultResponseAbort x v s
  | .evUnresolvable v => Sys2Proof.Machine.execEvUnresolvable v s
  | .evContain v => Sys2Proof.Machine.execEvContain v s
  | .evTagParityError k l w c => Sys2Proof.Machine.execEvTagParityError k l w c s
  | .evPtCfgWrite p v => Sys2Proof.Machine.execEvPtCfgWrite p v s
  | .evPtWaysWrite p v => Sys2Proof.Machine.execEvPtWaysWrite p v s
  | .evPtRateWrite p v => Sys2Proof.Machine.execEvPtRateWrite p v s
  | .evTilesetWrite p m v => Sys2Proof.Machine.execEvTilesetWrite p m v s
  | .evVfBindWrite n v => Sys2Proof.Machine.execEvVfBindWrite n v s
  | .evLockInterfaceRequest n => Sys2Proof.Machine.execEvLockInterfaceRequest n s
  | .evStartInterfaceRequest n => Sys2Proof.Machine.execEvStartInterfaceRequest n s
  | .evStopInterfaceRequest n => Sys2Proof.Machine.execEvStopInterfaceRequest n s
  | .evFlr n => Sys2Proof.Machine.execEvFlr n s
  | .evIdeIntegrityFailure n => Sys2Proof.Machine.execEvIdeIntegrityFailure n s
  | .evInterfaceConfigChange n => Sys2Proof.Machine.execEvInterfaceConfigChange n s
  | .evBar2Access n o z w t v => Sys2Proof.Machine.execEvBar2Access n o z w t v s
  | .evPause n => Sys2Proof.Machine.execEvPause n s
  | .evResume n => Sys2Proof.Machine.execEvResume n s
  | .evRetrain n => Sys2Proof.Machine.execEvRetrain n s
  | .evDisable n => Sys2Proof.Machine.execEvDisable n s
  | .evEnable n => Sys2Proof.Machine.execEvEnable n s
  | .evTrainingEnd n f => Sys2Proof.Machine.execEvTrainingEnd n f s
  | .evTrainingTimeout n => Sys2Proof.Machine.execEvTrainingTimeout n s
  | .evFlitReceive n q c => Sys2Proof.Machine.execEvFlitReceive n q c s
  | .evFlitReplay n k => Sys2Proof.Machine.execEvFlitReplay n k s
  | .evRhumbRxTimeout n => Sys2Proof.Machine.execEvRhumbRxTimeout n s
  | .evIdleFlit n => Sys2Proof.Machine.execEvIdleFlit n s
  | .evRetryWindow n k w => Sys2Proof.Machine.execEvRetryWindow n k w s
  | .evLaneMark n v => Sys2Proof.Machine.execEvLaneMark n v s
  | .evDeviceReplace g => Sys2Proof.Machine.execEvDeviceReplace g s
  | .evPwLayerBudgetWrite l v => Sys2Proof.Machine.execEvPwLayerBudgetWrite l v s
  | .evThermalThrottle l j => Sys2Proof.Machine.execEvThermalThrottle l j s
  | .evThermalTrip l j => Sys2Proof.Machine.execEvThermalTrip l j s
  | .evRegisterWrite f o t v => Sys2Proof.Machine.execEvRegisterWrite f o t v s
  | .evThrottleRelease l j => Sys2Proof.Machine.execEvThrottleRelease l j s
  | .evIdeStreamKeying n => Sys2Proof.Machine.execEvIdeStreamKeying n s
  | .evSpdmMeasurementRequest n => Sys2Proof.Machine.execEvSpdmMeasurementRequest n s
  | .elMov w => Sys2Proof.Machine.execElMov w s
  | .elAdd w => Sys2Proof.Machine.execElAdd w s
  | .elSub w => Sys2Proof.Machine.execElSub w s
  | .elMul w => Sys2Proof.Machine.execElMul w s
  | .elMulhi w => Sys2Proof.Machine.execElMulhi w s
  | .elDiv w => Sys2Proof.Machine.execElDiv w s
  | .elRem w => Sys2Proof.Machine.execElRem w s
  | .elNeg w => Sys2Proof.Machine.execElNeg w s
  | .elAbs w => Sys2Proof.Machine.execElAbs w s
  | .elMin w => Sys2Proof.Machine.execElMin w s
  | .elMax w => Sys2Proof.Machine.execElMax w s
  | .elAdds w => Sys2Proof.Machine.execElAdds w s
  | .elSubs w => Sys2Proof.Machine.execElSubs w s
  | .elAbsd w => Sys2Proof.Machine.execElAbsd w s
  | .elMad w => Sys2Proof.Machine.execElMad w s
  | .elClamp w => Sys2Proof.Machine.execElClamp w s
  | .elFma w => Sys2Proof.Machine.execElFma w s
  | .elFadd w => Sys2Proof.Machine.execElFadd w s
  | .elFsub w => Sys2Proof.Machine.execElFsub w s
  | .elFmul w => Sys2Proof.Machine.execElFmul w s
  | .elFdiv w => Sys2Proof.Machine.execElFdiv w s
  | .elFsqrt w => Sys2Proof.Machine.execElFsqrt w s
  | .elFmin w => Sys2Proof.Machine.execElFmin w s
  | .elFmax w => Sys2Proof.Machine.execElFmax w s
  | .elFneg w => Sys2Proof.Machine.execElFneg w s
  | .elFabs w => Sys2Proof.Machine.execElFabs w s
  | .elFrcp w => Sys2Proof.Machine.execElFrcp w s
  | .elFrsqrt w => Sys2Proof.Machine.execElFrsqrt w s
  | .elFexp2 w => Sys2Proof.Machine.execElFexp2 w s
  | .elFlog2 w => Sys2Proof.Machine.execElFlog2 w s
  | .elFsinpi w => Sys2Proof.Machine.execElFsinpi w s
  | .elFcospi w => Sys2Proof.Machine.execElFcospi w s
  | .elCmpeq w => Sys2Proof.Machine.execElCmpeq w s
  | .elCmpne w => Sys2Proof.Machine.execElCmpne w s
  | .elCmplt w => Sys2Proof.Machine.execElCmplt w s
  | .elCmple w => Sys2Proof.Machine.execElCmple w s
  | .elCmpun w => Sys2Proof.Machine.execElCmpun w s
  | .elSel w => Sys2Proof.Machine.execElSel w s
  | .elClass w => Sys2Proof.Machine.execElClass w s
  | .elAnd w => Sys2Proof.Machine.execElAnd w s
  | .elOr w => Sys2Proof.Machine.execElOr w s
  | .elXor w => Sys2Proof.Machine.execElXor w s
  | .elNot w => Sys2Proof.Machine.execElNot w s
  | .elShl w => Sys2Proof.Machine.execElShl w s
  | .elShr w => Sys2Proof.Machine.execElShr w s
  | .elSar w => Sys2Proof.Machine.execElSar w s
  | .elRol w => Sys2Proof.Machine.execElRol w s
  | .elClz w => Sys2Proof.Machine.execElClz w s
  | .elCtz w => Sys2Proof.Machine.execElCtz w s
  | .elPopc w => Sys2Proof.Machine.execElPopc w s
  | .elBilv w => Sys2Proof.Machine.execElBilv w s
  | .elBdlv w => Sys2Proof.Machine.execElBdlv w s
  | .elBrev w => Sys2Proof.Machine.execElBrev w s
  | .elBfx w => Sys2Proof.Machine.execElBfx w s
  | .elBfi w => Sys2Proof.Machine.execElBfi w s
  | .elCvt w => Sys2Proof.Machine.execElCvt w s
  | .elCvts w => Sys2Proof.Machine.execElCvts w s
  | .elPack w => Sys2Proof.Machine.execElPack w s
  | .elUnpack w => Sys2Proof.Machine.execElUnpack w s
  | .elQmx w => Sys2Proof.Machine.execElQmx w s
  | .elDqmx w => Sys2Proof.Machine.execElDqmx w s
  | .elBcast w => Sys2Proof.Machine.execElBcast w s
  | .elDot w => Sys2Proof.Machine.execElDot w s
  | .elDota w => Sys2Proof.Machine.execElDota w s
  | .elDott w => Sys2Proof.Machine.execElDott w s
  | .elDotta w => Sys2Proof.Machine.execElDotta w s
  | .elRsum w => Sys2Proof.Machine.execElRsum w s
  | .elRmax w => Sys2Proof.Machine.execElRmax w s
  | .elRmin w => Sys2Proof.Machine.execElRmin w s
  | .elRargmax w => Sys2Proof.Machine.execElRargmax w s
  | .elRcnt w => Sys2Proof.Machine.execElRcnt w s
  | .elSteer w => Sys2Proof.Machine.execElSteer w s
  | .elMerge w => Sys2Proof.Machine.execElMerge w s
  | .elGate w => Sys2Proof.Machine.execElGate w s
  | .elDup w => Sys2Proof.Machine.execElDup w s
  | .elSplit w => Sys2Proof.Machine.execElSplit w s
  | .elFrame w => Sys2Proof.Machine.execElFrame w s
  | .elUnframe w => Sys2Proof.Machine.execElUnframe w s
  | .elSeq w => Sys2Proof.Machine.execElSeq w s
  | .elSeqx w => Sys2Proof.Machine.execElSeqx w s
  | .elConst w => Sys2Proof.Machine.execElConst w s
  | .elZip w => Sys2Proof.Machine.execElZip w s
  | .elUnzip w => Sys2Proof.Machine.execElUnzip w s
  | .elAld w => Sys2Proof.Machine.execElAld w s
  | .elAst w => Sys2Proof.Machine.execElAst w s
  | .elAgth w => Sys2Proof.Machine.execElAgth w s
  | .elAsct w => Sys2Proof.Machine.execElAsct w s
  | .elAamo w => Sys2Proof.Machine.execElAamo w s
  | .elAbnk w => Sys2Proof.Machine.execElAbnk w s
  | .elAxlat w => Sys2Proof.Machine.execElAxlat w s
  | .elAchk w => Sys2Proof.Machine.execElAchk w s
  | .elMrd w => Sys2Proof.Machine.execElMrd w s
  | .elMwr w => Sys2Proof.Machine.execElMwr w s
  | .elMrmw w => Sys2Proof.Machine.execElMrmw w s
  | .elMfifo w => Sys2Proof.Machine.execElMfifo w s
  | .elMdbuf w => Sys2Proof.Machine.execElMdbuf w s
  | .elMcopy w => Sys2Proof.Machine.execElMcopy w s
  | .elMfill w => Sys2Proof.Machine.execElMfill w s
  | .elMlut w => Sys2Proof.Machine.execElMlut w s
  | .elLmap w => Sys2Proof.Machine.execElLmap w s
  | .elLnet w => Sys2Proof.Machine.execElLnet w s
  | .elLpack w => Sys2Proof.Machine.execElLpack w s
  | .elLunpk w => Sys2Proof.Machine.execElLunpk w s
  | .elLdec w => Sys2Proof.Machine.execElLdec w s
  | .elOfrom w => Sys2Proof.Machine.execElOfrom w s
  | .elOto w => Sys2Proof.Machine.execElOto w s
  | .elOadd w => Sys2Proof.Machine.execElOadd w s
  | .elOmul w => Sys2Proof.Machine.execElOmul w s
  | .elOmad w => Sys2Proof.Machine.execElOmad w s
  | .elOcmp w => Sys2Proof.Machine.execElOcmp w s
  | .elOmax w => Sys2Proof.Machine.execElOmax w s
  | .elOmin w => Sys2Proof.Machine.execElOmin w s
  | .elXnode w => Sys2Proof.Machine.execElXnode w s
  | .elXnodeb w => Sys2Proof.Machine.execElXnodeb w s
  | .elXnodes w => Sys2Proof.Machine.execElXnodes w s
  | .elEpass w => Sys2Proof.Machine.execElEpass w s
  | .elEturn w => Sys2Proof.Machine.execElEturn w s
  | .elEroute w => Sys2Proof.Machine.execElEroute w s
  | .elEterm w => Sys2Proof.Machine.execElEterm w s
  | .elHin w => Sys2Proof.Machine.execElHin w s
  | .elHout w => Sys2Proof.Machine.execElHout w s
  | .elHbi w => Sys2Proof.Machine.execElHbi w s
  | .elKgate w => Sys2Proof.Machine.execElKgate w s
  | .elKlast w => Sys2Proof.Machine.execElKlast w s
  | .elKwave w => Sys2Proof.Machine.execElKwave w s
  | .elKbar w => Sys2Proof.Machine.execElKbar w s

end Sys2Proof.Machine
end

