-- ==== Sys2Proof/Machine/Order.lean ====
section
/-! DEFINITION. The order in which the turns of one fc are taken (R11, R191, R215, R264, R428; log 4). -/

namespace Sys2Proof.Machine

/-- The place of an event in the order of R11: 1 hardware, 2 Lodestone, 3 H, 4 Pilot, 5 G, 7 completion. -/
def eventClass : Instr → Nat
  | .evBeatInvalid .. | .evTagParityError .. | .evThermalThrottle .. | .evThrottleRelease .. | .evThermalTrip ..
  | .evIdeIntegrityFailure .. | .evFlr .. | .evContextError .. | .evPackageReset | .evUnitReady .. | .evTrainingEnd ..
  | .evTrainingTimeout .. | .evPauseDrainComplete .. | .evFlitReceive .. | .evFlitReplay .. | .evRhumbRxTimeout ..
  | .evIdleFlit .. | .evRetryWindow .. | .evStopBoundExpire .. => 1
  | .evCreate | .evRetire | .evTiles | .evMigout | .evMigin | .evMigabort | .evGrant | .evReclaim | .evAttest | .evKeyslot
  | .evFwact | .evRetriedFlashWrite .. | .evBuildComplete .. | .evContextRelease .. | .evMigrationCommit ..
  | .evDefectMapVerify .. | .evSpdmMeasurementRequest .. | .evIdeStreamKeying .. | .evLockInterfaceRequest ..
  | .evStartInterfaceRequest .. | .evStopInterfaceRequest .. => 2
  | .evGroupStopRequest _ .hyper | .evSlackWaterFreeze _ .hyper | .evPtCfgWrite .. | .evPtWaysWrite .. | .evPtRateWrite ..
  | .evTilesetWrite .. | .evVfBindWrite .. | .evRegisterWrite .. | .evQcfgWrite .. | .evUnresolvable .. | .evContain ..
  | .evPwLayerBudgetWrite .. | .evLayerSleepRequest .. | .evLayerWakeRequest .. | .evPause .. | .evResume .. | .evRetrain ..
  | .evDisable .. | .evEnable .. | .evLaneMark .. => 3
  | .evGroupStopRequest _ .pilot | .evSlackWaterFreeze _ .pilot | .evStopComplete .. | .evGroupResume .. | .evFreezeRelease ..
  | .evGroupMove .. | .evCompaction .. | .evGroupEvict .. | .evSnapshot .. | .evDeviceReplace .. | .evAdmission
  | .evImageVerify .. | .evPilotLease .. | .evTileConfigure .. | .evSeedInject .. | .evStart .. | .evKernelComplete ..
  | .evKernelRetire .. => 4
  | .evSieveGo .. | .evFaultqConfig .. | .evFaultResponseDismiss .. | .evFaultResponseRetry .. | .evFaultResponseSkip ..
  | .evFaultResponseAbort .. | .evQueueSubmit .. | .evInterfaceConfigChange .. | .evBar2Access ..
  | .evGroupStopRequest _ .guest | .evSlackWaterFreeze _ .guest => 5
  | _ => 7

/-- The address a helm word accesses memory at (R223, R225, R252). -/
def accessedAt (s : State) : Instr → Option Word
  | .ldc _ _ a i | .stc _ _ a i => some (accessAddress (s.c a) i 1)
  | .ldcc _ a i | .stcc _ a i => some (accessAddress (s.c a) i 16)
  | .amoswap _ _ _ _ a | .amoadd _ _ _ _ a | .amoand _ _ _ _ a | .amoor _ _ _ _ a | .amoxor _ _ _ _ a
  | .amomin _ _ _ _ a | .amomax _ _ _ _ a | .amominu _ _ _ _ a | .amomaxu _ _ _ _ a | .amocas _ _ _ _ a => some (s.c a).lo
  | _ => none

namespace State

/-- The port tile of an element's request: the slice of its fused L1 where it has one (R264, R266). -/
def slotPlace (s : State) (p n : Nat) (q : Req) : Nat :=
  let gh := s.handleOf p
  let port := s.portTile gh p q.port
  match s.xlatReq p n q with
  | .ok (ph, _) => s.slicePort gh port ph
  | .error _ => port

/-- The base-die engine of a request. -/
def engineHome (s : State) (k : Nat) : Option Nat :=
  (s.engines.find? (·.id == k)).map fun (e : EngReq) => basePlace (stackOf e.thread)

/-- The port tile or engine from which a request goes to memory (R224, R264). -/
def requestPlace (s : State) : Instr → Option Nat
  | .evMemoryReply p n k | .evStoreAck p n k => ((s.slot p n).run.reqs.find? (·.id == k)).map (s.slotPlace p n)
  | .evEngineTransfer k => s.engineHome k
  | .evEcollCombine h => (((s.home h).collsDone.headD []).head?).bind s.engineHome
  | _ => none

/-- The word a thread issues next: the one it has, or the one at its pc. -/
def nextWord (s : State) (t : Nat) : Option Nat :=
  match (s.thread t).instr with
  | some w => some w.toNat
  | none => match { s with cur := t }.fetchWord with
    | .ok (w, _) => some w
    | .error _ => none

/-- The port tile or base die from which thread t's next word goes to memory, if it is an access (R264). -/
def helmPlace (s : State) (t : Nat) : Option Nat :=
  match (s.nextWord t).map decodeHelm with
  | some (.ok i) => match accessedAt { s with cur := t } i with
    | none => none
    | some a =>
      if isCore t then
        match firmwarePlace a with
        | .memory _ => some (basePlace (stackOf t))
        | _ => none
      else match s.walk (s.helmAsker t) (bits a 0 57) Need.load with
        | .ok (e, _) => some (s.slicePort (s.handleOf (ptidOf t)) (s.helmPort t) (s.physBy e (bits a 0 57)))
        | .error _ => none
  | _ => none

/-- A thread's turn: an access to memory among those of its fc (R264), else its level's class (R11, R428). -/
def threadPlace (s : State) (t : Nat) : Nat × Nat × Nat :=
  match s.helmPlace t with
  | some p => (7, 1, p)
  | none => (if (s.thread t).priv = 2 then 3 else if (s.thread t).priv = 1 then 5 else 6, 0, t)

/-- The class of the event that takes a group's command: its issuer's (R11, R351). -/
def commandClass (s : State) (h sub : Nat) : Nat :=
  match (s.nextCommand h sub none).map (·.holder) with
  | some c => holderClass c
  | none => 4

/-- Where a record stands among those that are written in an fc (R389, R390). -/
def recordKey (r : Record) : Nat × Nat × Nat := (7, 4, recordRank r)

/-- Where a turn stands among those of its fc: its class (R11), and among completions the accesses to memory by PTID
(R264), the records by `recordKey` and the beats by the slot that delivers them (R191) after all others, and last what reaches the homes of barriers, so that
all that reaches one in the fc is there (R356). A Beacon slot is applied before any read of its fc, and
before a frame that begins in it (R280). Threads stand by k.TID PLACE, UNIT and THREAD
(R428), and the host's register writes behind them (R407). -/
def turnKey (s : State) (t : Turn) : Nat × Nat × Nat :=
  match t with
  | .thread k | .resume k => s.threadPlace k
  | .event (.evPilotLease h) => (s.commandClass h 1, 0, 0)
  | .event (.evGroupMove h) => (s.commandClass h 2, 0, 0)
  | .event (.evGroupEvict h) => (s.commandClass h 5, 0, 0)
  | .event (.evGroupResume h) => (s.commandClass h 6, 0, 0)
  | .event (.evBeatAdvance p n) => (7, 2, p * 64 + n)
  | .event (.evBarrierHomeArrival _) | .event (.evBarrierHomeInit _) => (7, 3, 0)
  | .event (.evFaultRecordWrite k) => ((s.raised.find? (·.id == k)).map recordKey).getD (7, 4, 0)
  | .event (.evRegisterWrite ..) => (3, 1, 0)
  | .event (.evBeaconSlot ..) => (1, 0, 0)
  | .event (.evBeaconFrame _) => (1, 1, 0)
  | .event i => match s.requestPlace i with
    | some p => (7, 1, p)
    | none => (eventClass i, 0, 0)
  | .element .. | .matrix .. => (7, 0, 0)

/-- One turn stands before another or beside it. -/
def turnBefore (a b : (Nat × Nat × Nat) × Turn) : Bool :=
  a.1.1 < b.1.1 || (a.1.1 = b.1.1 && (a.1.2.1 < b.1.2.1 || (a.1.2.1 = b.1.2.1 && a.1.2.2 ≤ b.1.2.2)))

/-- Turns in the order in which one fc takes them; equal ones keep their order of arrival (R11). -/
def ordered (s : State) (l : List Turn) : List Turn :=
  (sortBy turnBefore (l.map fun t => (s.turnKey t, t))).map (·.2)

/-- The turns of helm threads in an fc: one thread of each unit issues, and every WAITING thread is looked at
(R212, R215). -/
def helmTurns (s : State) : List Turn :=
  (((s.threads.map fun t => t.1 / 4).eraseDups).filterMap s.chosen).map Turn.thread ++
  (s.threads.filter fun t => t.2.st = .waiting && !t.2.frozen).map fun t =>
    .event (if t.2.wait = .sleep then .evSleepExpire t.1 else .evBlockingConditionMet t.1)

/-- The next fc begins: its turns are those that have come for it (R11). -/
def nextFc (s : State) : State :=
  let s1 := s.tick 1
  { s1 with now := s1.ordered (s1.agenda ++ s1.linkTurns.map Turn.event ++ s1.helmTurns), agenda := [] }

end State
end Sys2Proof.Machine
end

