-- ==== Sys2Proof/Machine/Step.lean ====
section
/-! DEFINITION. One step of the package (log 4). -/

namespace Sys2Proof.Machine

/-- The acting thread's outcome with its instruction over, or waiting with its word (R212, R216). -/
def settled (w : Word32) (n : Nat) : Result → Result
  | .next s => .next (s.settle w n)
  | r => r

/-- The acting thread executes the word it has fetched (R43, R216). -/
def runWord (w : Nat) (s : State) : Result :=
  match decodeHelm w with
  | .ok i => settled (BitVec.ofNat 32 w) (issueTime i s) (exec i s)
  | .error _ => settled (BitVec.ofNat 32 w) 1 (exec (.evIllegalOp (BitVec.ofNat 32 w)) s)

/-- The thread acts, and is the one its unit issued last (R215). -/
def State.issuing (s : State) (t : Nat) : State := { s with cur := t, issued := put s.issued (t / 4) (t % 4) }

/-- The acting thread's instruction: fetch, decode, execute; an access that had to wait goes on with the word it has
(R216, R220). -/
def runThread (s : State) : Result :=
  match s.th.instr with
  | some w => runWord w.toNat s
  | none => match s.fetchWord with
    | .error u => .next (u.setTh { u.th with busy := u.fc + 1 })
    | .ok (w, s1) => runWord w s1

/-- Thread t issues (R215). -/
def issue (t : Nat) (s : State) : Result := runThread (s.issuing t)

/-- After its turn a matrix node whose array is busy is looked at again (R204), and one that has ended an
operation goes on to its next token. -/
def matrixNext (p : Nat) : Result → Result
  | .next t =>
    .next (if (t.tile p).mat.accepted then
        (if (t.tile p).mat.left.isSome && !t.agenda.contains (.matrix p) then { t with agenda := t.agenda ++ [.matrix p] } else t)
      else t.wake p 56)
  | r => r

/-- The matrix node of tile p performs the operation of the token at the head of P (R195). -/
def runMatrix (p : Nat) (s : State) : Result :=
  let s1 : State := { s with curTile := p, curSlot := 56 }
  match s1.headToken with
  | none => .next s
  | some b => match decodeMatrix b.data.toNat with
    | .ok i => if b.poi then .next s else matrixNext p (exec i s1)
    | .error _ => .next s

/-- A turn of the present fc. -/
def runTurn (t : Turn) (s : State) : Result :=
  match t with
  | .thread t => if s.canIssue t then issue t s else .next s
  | .resume t => if (s.thread t).st = .ready then runThread { s with cur := t } else .next s
  | .element p n => fireSlot s p n
  | .matrix p => runMatrix p s
  | .event i => exec i s

/-- One step: the first turn of the present fc, or the next fc begins. A package whose clocks are stopped does nothing
but reset (R433). -/
def step (s : State) : Result :=
  if s.stopped then
    let turns := s.now ++ s.agenda
    if turns.contains (.event .evPackageReset) then
      exec .evPackageReset { s with now := [], agenda := turns.erase (.event .evPackageReset) }
    else .fault .clocksStopped
  else
    match s.now with
    | t :: rest => runTurn t { s with now := rest }
    | [] => .next s.nextFc

/-! ## A word put where the next step fetches (log 12) -/

/-- The address of the placed word: its home is stack 0, where the thread stands that fetches it (R22). -/
def placedAt : Nat := 0x4000
/-- The tile of a placed element word or tile thread: logical (0, 0)'s tile, the first of stack 0, layer 0. -/
def placedTile : Nat := 9

/-- Whether a helm word is one that a control core does not run (R43). -/
def tileOnly (w : Nat) : Bool :=
  let major := w / 2 ^ 26
  let sub := w / 2 ^ 8 % 2 ^ 8
  major = 0x21 || major = 0x24 || (major = 0x23 && (sub = 2 || sub = 3)) || (major = 0x27 && (sub = 1 || sub = 2))

/-- A slot of the class that an element opcode configures (R19, R50). -/
def placedSlot (op : Nat) : Nat :=
  if op < 0x60 then 0 else if op < 0x80 then 40 else if op < 0x90 then 32 else if op < 0xA0 then 48
  else if op < 0xB0 then 52 else if op < 0xC0 then 56 else if op < 0xC8 then 60 else if op < 0xCC then 57 else 59

namespace State

/-- The state with a word in memory where firmware space and an untranslated context read it. -/
def withWord (s : State) (w : Nat) : State :=
  s.setMemory { s.mem with cells := setBytes s.mem.cells (deviceKey none placedAt) (toBytes 4 w) }

/-- Thread t READY at the placed word, next to issue. -/
def withThread (s : State) (t : Nat) (lv : BitVec 2) : State :=
  { s.setThread t { s.thread t with pcc := (fwcap.withPerms 0x2933).setAddr (wd placedAt), st := .ready, frozen := false,
                                    hasCode := true, priv := lv, inTrap := false, pageAbort := none,
                                    instr := none, busy := 0 } with
    now := [.thread t], agenda := [] }

/-- The placed tile owned by context 1, which is ACTIVE. -/
def withOwner (s : State) : State :=
  (s.setContext 1 { s.context 1 with st := 3, epoch := 1 }).setTile placedTile
    { s.tile placedTile with owner := some 1 }

/-- A slot of the placed tile ARMED with an element word, next to fire. -/
def withElement (s : State) (n w : Nat) (port : List Arrived) (turn : Turn) : State :=
  let t := s.tile placedTile
  let x : Slot := { look {} t.slots n with st := .armed, held := false, word := BitVec.ofNat 32 w, owner := some 1, portP := port }
  { s.setTile placedTile { t with slots := put t.slots n x, configured := true } with
    now := [turn], agenda := [] }

/-- The state in which the next step runs the table word w of nbits bits (log 12): a helm word on control core 0 of
stack 0, or, where control cores do not run it, on a tile's thread 0; a matrix token at the head of an xnode's P port;
an element word in an ARMED slot. -/
def withFetchWord (s : State) (nbits w : Nat) : State :=
  if nbits = 64 then
    s.withOwner.withElement 56 0xB003FFFF [{ beat := { data := wd w, kind := .data } }] (.matrix placedTile)
  else if isHelmWord w then
    if tileOnly w then (s.withOwner.withWord w).withThread (threadKey placedTile 0 0) 1
    else (s.withWord w).withThread 16384 2
  else
    let n := placedSlot (w / 2 ^ 24)
    s.withOwner.withElement n w [] (.element placedTile n)

end State
end Sys2Proof.Machine
end

