-- ==== Sys2Proof/Safety.lean ====
section
/-! DEFINITION. What a safe run keeps, and the frames in which the statements say what an instruction
leaves unchanged. -/

namespace Sys2Proof.Machine

/-- What a sound state keeps: memory in its canonical form. -/
def State.sound (s : State) : Prop := s.memWf = true

/-- A value as a general register holds it: g0 reads zero (R34). -/
def written (d : Reg) (v : Word) : Word := if d = 0 then 0 else v

/-- A capability as a capability register holds it once written: c0 discards it (R34). -/
def writtenC (s : State) (d : CReg) (v : Cap) : Cap := if d = 0 then s.c 0 else v

/-- t differs from s in no field but the table of threads. -/
def onlyThreads (s t : State) : Prop := { t with threads := s.threads } = s

/-- No thread but the acting one differs. -/
def othersKept (s t : State) : Prop := t.cur = s.cur ∧ ∀ k, k ≠ s.cur → t.thread k = s.thread k

/-- Every byte of memory reads as before. -/
def bytesKept (s t : State) : Prop := ∀ k, getByte t.mem.cells k = getByte s.mem.cells k

/-- Every byte of memory outside n bytes from key k reads as before. -/
def bytesKeptBut (s t : State) (k n : Nat) : Prop :=
  ∀ j, j < k ∨ k + n ≤ j → getByte t.mem.cells j = getByte s.mem.cells j

/-- A thread changed only in its general registers, the address of its pc, and its readiness. -/
def keepsButG (x y : Thread) : Prop :=
  { y with g := x.g, pcc := { y.pcc with lo := x.pcc.lo }, st := x.st, wait := x.wait, arrived := x.arrived } = x

/-- A thread changed only in its capability registers, the address of its pc, and its readiness. -/
def keepsButC (x y : Thread) : Prop :=
  { y with c := x.c, pcc := { y.pcc with lo := x.pcc.lo }, st := x.st, wait := x.wait, arrived := x.arrived } = x

/-- General registers but d, and every other register of every thread, are unchanged; the next instruction is
the one that follows. -/
def regsKept (s t : State) (d : Reg) : Prop :=
  othersKept s t ∧ keepsButG s.th t.th ∧ (∀ r, r ≠ d → t.g r = s.g r) ∧ t.pc = s.pc + 4

/-- The same for an instruction that writes capability register d. -/
def capsKept (s t : State) (d : CReg) : Prop :=
  othersKept s t ∧ keepsButC s.th t.th ∧ (∀ r, r ≠ d → t.c r = s.c r) ∧ t.pc = s.pc + 4

/-- The frame of an instruction that writes general register d and nothing beside: registers, special registers,
every other part of the machine, every byte of memory. -/
def gFrame (s t : State) (d : Reg) : Prop := regsKept s t d ∧ onlyThreads s t ∧ bytesKept s t

/-- The frame of an instruction that writes capability register d and nothing beside. -/
def cFrame (s t : State) (d : CReg) : Prop := capsKept s t d ∧ onlyThreads s t ∧ bytesKept s t

/-- No register of any thread is written and the next instruction is the one that follows. -/
def passes (s t : State) : Prop := regsKept s t 0

/-- A thread takes control elsewhere: nothing differs but its pc. -/
def goesTo (s t : State) (x : Cap) : Prop :=
  othersKept s t ∧ onlyThreads s t ∧ bytesKept s t ∧ t.th = { s.th with pcc := x }

/-- The acting thread waits for w with no effect (R212, R213): nothing differs but its state, what it waits for
and its place in the order of waiting. -/
def waitsFor (s t : State) (w : Wait) : Prop :=
  othersKept s t ∧ { t with threads := s.threads, ids := s.ids } = s ∧ bytesKept s t ∧ t.th.st = .waiting ∧ t.th.wait = w ∧
    { t.th with st := s.th.st, wait := s.th.wait, waitSince := s.th.waitSince, arrived := s.th.arrived } = s.th

end Sys2Proof.Machine
end

