-- ==== Sys2Proof/Certificates/Slice0/Obligations.lean ====
section
/-! DEFINITION. The statements for the provers, in the order of the opcode table, then what holds of every step. -/

/-! ## Results of the helm thread's register instructions (R217-R219) -/

namespace Sys2Proof.Claims
open Sys2Proof Sys2Proof.Machine

/-- Instruction i completes: general register d holds v, and nothing else differs but the pc. -/
def gives (i : Instr) (s : State) (d : Reg) (v : Word) : Prop :=
  ∃ t, exec i s = .next t ∧ t.g d = written d v ∧ gFrame s t d

/-- Instruction i completes: capability register d holds v, and nothing else differs but the pc. -/
def givesC (i : Instr) (s : State) (d : CReg) (v : Cap) : Prop :=
  ∃ t, exec i s = .next t ∧ t.c d = writtenC s d v ∧ cFrame s t d

/-- Quotient of R114 for operands read as integers in a width whose least value is low; ones is its pattern of all ones. -/
def quotient (ones low a b : Int) : Int :=
  if b = 0 then ones else if a = low ∧ b = -1 then low else Int.tdiv a b

/-- Remainder of R114. -/
def remainder (low a b : Int) : Int :=
  if b = 0 then a else if a = low ∧ b = -1 then 0 else Int.tmod a b

/-- R217's table: the register an instruction writes and what the value satisfies, from the operands' bits. -/
def integerResult (s : State) : Instr → Option (Reg × (Word → Prop))
  | .add d a b => some (d, fun v => v.toNat = ((s.g a).toNat + (s.g b).toNat) % 2 ^ 64)
  | .sub d a b => some (d, fun v => v.toNat = ((s.g a).toNat + (2 ^ 64 - (s.g b).toNat)) % 2 ^ 64)
  | .and d a b => some (d, fun v => ∀ j < 64, v.getLsbD j = ((s.g a).getLsbD j && (s.g b).getLsbD j))
  | .or d a b => some (d, fun v => ∀ j < 64, v.getLsbD j = ((s.g a).getLsbD j || (s.g b).getLsbD j))
  | .xor d a b => some (d, fun v => ∀ j < 64, v.getLsbD j = ((s.g a).getLsbD j != (s.g b).getLsbD j))
  | .andn d a b => some (d, fun v => ∀ j < 64, v.getLsbD j = ((s.g a).getLsbD j && !(s.g b).getLsbD j))
  | .sll d a b => some (d, fun v => v.toNat = (s.g a).toNat * 2 ^ ((s.g b).toNat % 64) % 2 ^ 64)
  | .srl d a b => some (d, fun v => v.toNat = (s.g a).toNat / 2 ^ ((s.g b).toNat % 64))
  | .sra d a b => some (d, fun v => v.toInt = (s.g a).toInt / 2 ^ ((s.g b).toNat % 64))
  | .min d a b => some (d, fun v => v = s.g a ∧ (s.g a).toInt ≤ (s.g b).toInt ∨ v = s.g b ∧ (s.g b).toInt ≤ (s.g a).toInt)
  | .max d a b => some (d, fun v => v = s.g a ∧ (s.g b).toInt ≤ (s.g a).toInt ∨ v = s.g b ∧ (s.g a).toInt ≤ (s.g b).toInt)
  | .minu d a b => some (d, fun v => v = s.g a ∧ (s.g a).toNat ≤ (s.g b).toNat ∨ v = s.g b ∧ (s.g b).toNat ≤ (s.g a).toNat)
  | .maxu d a b => some (d, fun v => v = s.g a ∧ (s.g b).toNat ≤ (s.g a).toNat ∨ v = s.g b ∧ (s.g a).toNat ≤ (s.g b).toNat)
  | .clz d a => some (d, fun v => v.toNat ≤ 64 ∧ (∀ j < 64, 64 - v.toNat ≤ j → (s.g a).getLsbD j = false) ∧
      (v.toNat < 64 → (s.g a).getLsbD (63 - v.toNat) = true))
  | .ctz d a => some (d, fun v => v.toNat ≤ 64 ∧ (∀ j < v.toNat, (s.g a).getLsbD j = false) ∧
      (v.toNat < 64 → (s.g a).getLsbD v.toNat = true))
  | .popc d a => some (d, fun v => v.toNat = ((List.range 64).filter fun j => (s.g a).getLsbD j).length)
  | .bilv d a b => some (d, fun v => ∀ j < 32, v.getLsbD (2 * j) = (s.g a).getLsbD j ∧
      v.getLsbD (2 * j + 1) = (s.g b).getLsbD j)
  | .bdlv d a => some (d, fun v => ∀ j < 32, v.getLsbD j = (s.g a).getLsbD (2 * j) ∧
      v.getLsbD (32 + j) = (s.g a).getLsbD (2 * j + 1))
  | .seq d a b => some (d, fun v => v = if s.g a = s.g b then 1 else 0)
  | .sne d a b => some (d, fun v => v = if s.g a = s.g b then 0 else 1)
  | .slt d a b => some (d, fun v => v = if (s.g a).toInt < (s.g b).toInt then 1 else 0)
  | .sltu d a b => some (d, fun v => v = if (s.g a).toNat < (s.g b).toNat then 1 else 0)
  | .sle d a b => some (d, fun v => v = if (s.g a).toInt ≤ (s.g b).toInt then 1 else 0)
  | .sleu d a b => some (d, fun v => v = if (s.g a).toNat ≤ (s.g b).toNat then 1 else 0)
  | .sel d a b => some (d, fun v => v = if s.g d = 0 then s.g b else s.g a)
  | .mul d a b => some (d, fun v => v.toNat = (s.g a).toNat * (s.g b).toNat % 2 ^ 64)
  | .mulhi d a b => some (d, fun v => v.toInt = (s.g a).toInt * (s.g b).toInt / 2 ^ 64)
  | .mulhiu d a b => some (d, fun v => v.toNat = (s.g a).toNat * (s.g b).toNat / 2 ^ 64)
  | .div d a b => some (d, fun v => v.toInt = quotient (-1) (-2 ^ 63) (s.g a).toInt (s.g b).toInt)
  | .divu d a b => some (d, fun v => v.toNat = if (s.g b).toNat = 0 then 2 ^ 64 - 1 else (s.g a).toNat / (s.g b).toNat)
  | .rem d a b => some (d, fun v => v.toInt = remainder (-2 ^ 63) (s.g a).toInt (s.g b).toInt)
  | .remu d a b => some (d, fun v => v.toNat = (s.g a).toNat % (s.g b).toNat)
  | _ => none

/-- R218's table: the register an immediate instruction writes and the value. -/
def immediateResult (s : State) : Instr → Option (Reg × (Word → Prop))
  | .addi d a i => some (d, fun v => v = s.g a + BitVec.ofInt 64 i.toInt)
  | .andi d a i => some (d, fun v => ∀ j < 64, v.getLsbD j = ((s.g a).getLsbD j && i.getLsbD j))
  | .ori d a i => some (d, fun v => ∀ j < 64, v.getLsbD j = ((s.g a).getLsbD j || i.getLsbD j))
  | .xori d a i => some (d, fun v => ∀ j < 64, v.getLsbD j = ((s.g a).getLsbD j != i.getLsbD j))
  | .slti d a i => some (d, fun v => v = if (s.g a).toInt < i.toInt then 1 else 0)
  | .sltiu d a i => some (d, fun v => v = if (s.g a).toNat < i.toNat then 1 else 0)
  | .lui d i => some (d, fun v => v = BitVec.ofInt 64 (i.toInt * 2 ^ 16))
  | .slli d a n => some (d, fun v => v.toNat = (s.g a).toNat * 2 ^ n.toNat % 2 ^ 64)
  | .srli d a n => some (d, fun v => v.toNat = (s.g a).toNat / 2 ^ n.toNat)
  | .srai d a n => some (d, fun v => v.toInt = (s.g a).toInt / 2 ^ n.toNat)
  | _ => none

end Sys2Proof.Claims

open Sys2Proof Sys2Proof.Machine Sys2Proof.Claims

/-- R217: every integer, bit, compare, multiply and divide instruction of majors 0x01 to 0x03 completes in every state with
the value of its row in g[d]; a write to g0 is discarded; nothing else changes. -/
def Obligations.IntegerResults : Prop :=
  ∀ (s : State) (i : Instr) (d : Reg) (P : Word → Prop), integerResult s i = some (d, P) → ∃ v, P v ∧ gives i s d v

/-- R218: every immediate instruction completes with the value of its row in g[d], and nothing else changes. -/
def Obligations.ImmediateResults : Prop :=
  ∀ (s : State) (i : Instr) (d : Reg) (P : Word → Prop), immediateResult s i = some (d, P) → ∃ v, P v ∧ gives i s d v

/-- R219: BFX writes the field zero-extended, BFI writes the old g[d] with the field replaced; the field is the len bits from
pos, and len - 1 is what the word holds (R39). -/
def Obligations.BitFieldResults : Prop :=
  ∀ (s : State) (d a : Reg) (p l : BitVec 6), p.toNat + l.toNat + 1 ≤ 64 →
    (∃ v, (∀ j < 64, v.getLsbD j = (decide (j ≤ l.toNat) && (s.g a).getLsbD (p.toNat + j))) ∧ gives (.bfx d a p l) s d v) ∧
    (∃ v, (∀ j < 64, v.getLsbD j =
        if p.toNat ≤ j ∧ j ≤ p.toNat + l.toNat then (s.g a).getLsbD (j - p.toNat) else (s.g d).getLsbD j) ∧
      gives (.bfi d a p l) s d v) ∧
    decodeHelm (0x38000000 + d.val * 2 ^ 21 + a.val * 2 ^ 16 + p.toNat * 2 ^ 6 + l.toNat) = .ok (.bfx d a p l) ∧
    decodeHelm (0x3C000000 + d.val * 2 ^ 21 + a.val * 2 ^ 16 + p.toNat * 2 ^ 6 + l.toNat) = .ok (.bfi d a p l)

/-! ## Control flow (R33, R220-R222) -/

namespace Sys2Proof.Claims
open Sys2Proof Sys2Proof.Machine

/-- Control passes to capability x and nothing else differs; i completes so. -/
def goes (i : Instr) (s : State) (x : Cap) : Prop := ∃ t, exec i s = .next t ∧ goesTo s t x

/-- i takes the CAP trap with detail f and EVAL a and has no other effect. -/
def capTraps (i : Instr) (s : State) (f : CapFault) (a : Word) : Prop := exec i s = .next (s.trapCap f a)

/-- R221: whether a branch is taken, and its target (R33: the address of the branch and four times its offset). -/
def branchOf (s : State) : Instr → Option (Prop × Word)
  | .beq a b o => some (s.g a = s.g b, s.pc + BitVec.ofInt 64 (4 * o.toInt))
  | .bne a b o => some (s.g a ≠ s.g b, s.pc + BitVec.ofInt 64 (4 * o.toInt))
  | .blt a b o => some ((s.g a).toInt < (s.g b).toInt, s.pc + BitVec.ofInt 64 (4 * o.toInt))
  | .bge a b o => some ((s.g b).toInt ≤ (s.g a).toInt, s.pc + BitVec.ofInt 64 (4 * o.toInt))
  | .bltu a b o => some ((s.g a).toNat < (s.g b).toNat, s.pc + BitVec.ofInt 64 (4 * o.toInt))
  | .bgeu a b o => some ((s.g b).toNat ≤ (s.g a).toNat, s.pc + BitVec.ofInt 64 (4 * o.toInt))
  | .j o => some (True, s.pc + BitVec.ofInt 64 (4 * o.toInt))
  | _ => none

/-- FetchCheck of R220 written out: CapCheck's causes in their order (R8), then the alignment of the target. -/
def fetchFault (low : Bool) (c : Cap) (t : Word) : Option CapFault :=
  if c.tag = false then some .tag
  else if c.sealType ≠ 0 then some .seal
  else if (low = true ∧ c.perms.testBit 13 = true) ∨ c.perms.testBit 4 = false then some .perm
  else if canonical t = false ∨ t.toNat % 2 ^ 57 < c.base ∨ c.top < t.toNat % 2 ^ 57 + 4 then some .bounds
  else if t.toNat % 4 ≠ 0 then some .align
  else none

/-- CCALL's checks in the order TAG, SEAL, PERM, BOUNDS, ALIGN (R222). -/
def callFault (low : Bool) (x y : Cap) : Option CapFault :=
  if x.tag = false ∨ y.tag = false then some .tag
  else if x.sealType = 0 ∨ y.sealType = 0 ∨ x.sealType ≠ y.sealType then some .seal
  else if x.perms.testBit 4 = false ∨ y.perms.testBit 4 = true then some .perm
  else fetchFault low (x.withSeal 0) x.lo

end Sys2Proof.Claims

/-- R221, R220: a branch not taken goes to the next word and checks nothing; one taken, and J, passes control to its target
under the present pcc where FetchCheck succeeds, and traps CAP with EVAL the target where it fails; JAL links pcc with the next
address in c15, or traps and links nothing. -/
def Obligations.Branches : Prop :=
  (∀ (s : State) (i : Instr) (P : Prop) (t : Word), branchOf s i = some (P, t) →
    (¬P → ∃ u, exec i s = .next u ∧ gFrame s u 0) ∧
    (P → (fetchFault s.low s.th.pcc t = none → goes i s { s.th.pcc with lo := t }) ∧
      (∀ f, fetchFault s.low s.th.pcc t = some f → capTraps i s f t))) ∧
  (∀ (s : State) (o : BitVec 26) (t : Word), t = s.pc + BitVec.ofInt 64 (4 * o.toInt) →
    (fetchFault s.low s.th.pcc t = none → ∃ u, exec (.jal o) s = .next u ∧
      othersKept s u ∧ onlyThreads s u ∧ bytesKept s u ∧
      u.th = { s.th with pcc := { s.th.pcc with lo := t }, c := s.th.c.set 15 (s.th.pcc.setAddr (s.pc + 4)) }) ∧
    (∀ f, fetchFault s.low s.th.pcc t = some f → capTraps (.jal o) s f t))

/-- R222: CJR makes c[a] the pcc; CJALR also links the old pcc with the next address in c[d], reading c[a] before c[d] is
written; CCALL puts the unsealed c[d] in c14 and the unsealed c[a] in pcc. Each traps CAP with the first failing detail and has
no other effect where its requirement fails. -/
def Obligations.CapabilityJumps : Prop :=
  ∀ (s : State) (a d : CReg),
    (∀ f, fetchFault s.low (s.c a) (s.c a).lo = some f →
      capTraps (.cjr a) s f (s.c a).lo ∧ capTraps (.cjalr d a) s f (s.c a).lo) ∧
    (fetchFault s.low (s.c a) (s.c a).lo = none →
      goes (.cjr a) s (s.c a) ∧
      ∃ u, exec (.cjalr d a) s = .next u ∧ othersKept s u ∧ onlyThreads s u ∧ bytesKept s u ∧
        u.th = { s.th with pcc := s.c a, c := if d = 0 then s.th.c else s.th.c.set d (s.th.pcc.setAddr (s.pc + 4)) }) ∧
    (∀ f, callFault s.low (s.c a) (s.c d) = some f → capTraps (.ccall a d) s f (s.c a).lo) ∧
    (callFault s.low (s.c a) (s.c d) = none →
      ∃ u, exec (.ccall a d) s = .next u ∧ othersKept s u ∧ onlyThreads s u ∧ bytesKept s u ∧
        u.th = { s.th with pcc := (s.c a).withSeal 0, c := s.th.c.set 14 ((s.c d).withSeal 0) })

/-! ## Capabilities (R241-R251) -/

namespace Sys2Proof.Claims
open Sys2Proof Sys2Proof.Machine

/-- R248's Result column: the register and the result bits of a derivation. -/
def derivedBits (s : State) : Instr → Option (CReg × (Cap → Prop))
  | .csetbounds d a b => some (d, fun r => r = (s.c a).setBounds (s.g b).toNat false)
  | .csetboundsx d a b => some (d, fun r => r = (s.c a).setBounds (s.g b).toNat true)
  | .csetboundsi d a i => some (d, fun r => r = (s.c a).setBounds i.toNat false)
  | .cincaddr d a b => some (d, fun r => r = (s.c a).setAddr ((s.c a).lo + s.g b))
  | .cincaddri d a i => some (d, fun r => r = (s.c a).setAddr ((s.c a).lo + BitVec.ofInt 64 i.toInt))
  | .csetaddr d a b => some (d, fun r => r = (s.c a).setAddr (s.g b))
  | .candperm d a b => some (d, fun r => r.lo = (s.c a).lo ∧
      (∀ j < 64, r.hi.getLsbD j = ((s.c a).hi.getLsbD j && (decide (j < 42 ∨ 58 ≤ j) || (decide (j < 56) && (s.g b).getLsbD (j - 42))))) ∧
      r.tag = ((s.c a).tag && decide ((s.c a).sealType = 0)))
  | .cseal d a b => some (d, fun r => r.lo = (s.c a).lo ∧
      (∀ j < 64, r.hi.getLsbD j = if 34 ≤ j ∧ j < 42 then (s.c b).lo.getLsbD (j - 34) else (s.c a).hi.getLsbD j) ∧
      (r.tag = true ↔ (s.c a).tag = true ∧ (s.c a).sealType = 0 ∧ capCheck s.low (s.c b) (s.c b).lo 1 0x200 = none ∧
        1 ≤ (s.c b).lo.toNat ∧ (s.c b).lo.toNat ≤ 255))
  | .cunseal d a b => some (d, fun r => r.lo = (s.c a).lo ∧
      (∀ j < 64, r.hi.getLsbD j = if 34 ≤ j ∧ j < 42 then false
        else if j = 53 then (s.c a).hi.getLsbD 53 && (s.c b).hi.getLsbD 53 else (s.c a).hi.getLsbD j) ∧
      (r.tag = true ↔ (s.c a).tag = true ∧ (s.c a).sealType ≠ 0 ∧
        capCheck s.low (s.c b) (BitVec.ofNat 64 (s.c a).sealType) 1 0x400 = none))
  | .cmove d a => some (d, fun r => r = s.c a)
  | .cclrtag d a => some (d, fun r => r = { s.c a with tag := false })
  | _ => none

/-- R251's table: the register an inspection writes and the value. -/
def inspection (s : State) : Instr → Option (Reg × (Word → Prop))
  | .cgetaddr b a => some (b, fun v => v = (s.c a).lo)
  | .cgetbase b a => some (b, fun v => v.toNat = (s.c a).base)
  | .cgetlen b a => some (b, fun v => v.toNat = (s.c a).top - (s.c a).base ∧ v.toNat ≤ 2 ^ 57)
  | .cgetperm b a => some (b, fun v => v.toNat = (s.c a).hi.toNat / 2 ^ 42 % 2 ^ 16)
  | .cgettag b a => some (b, fun v => v = if (s.c a).tag then 1 else 0)
  | .cgetseal b a => some (b, fun v => v.toNat = (s.c a).hi.toNat / 2 ^ 34 % 2 ^ 8)
  | .ctestsub b a d => some (b, fun v => (v = 1 ∨ v = 0) ∧ (v = 1 ↔ (s.c d).tag = (s.c a).tag ∧ (s.c a).base ≤ (s.c d).base ∧
      (s.c d).top ≤ (s.c a).top ∧ ∀ j < 16, (s.c d).perms.testBit j = true → (s.c a).perms.testBit j = true))
  | .cfitlen b => some (b, fun v => Nat.min (s.g b).toNat (2 ^ 57) ≤ v.toNat ∧
      ∃ e ≤ 44, v.toNat % 2 ^ e = 0 ∧ v.toNat ≤ (2 ^ 14 - 1) * 2 ^ e ∧ v.toNat < Nat.min (s.g b).toNat (2 ^ 57) + 2 ^ e ∧
        ∀ e' < e, (2 ^ 14 - 1) * 2 ^ e' < roundUp (Nat.min (s.g b).toNat (2 ^ 57)) e')
  | .cfitexp b => some (b, fun v => v.toNat ≤ 44 ∧
      roundUp (Nat.min (s.g b).toNat (2 ^ 57)) v.toNat ≤ (2 ^ 14 - 1) * 2 ^ v.toNat ∧
      ∀ e < v.toNat, (2 ^ 14 - 1) * 2 ^ e < roundUp (Nat.min (s.g b).toNat (2 ^ 57)) e)
  | _ => none

end Sys2Proof.Claims

/-- R249: where len or the end passes 2^57, or the address is not canonical, SetBounds clears the tag and changes nothing
else; else, under the least exponent of 0 to 44 that fits, it gives the bounds rounded outward and keeps the address and every
other field, and its tag stands only of a tagged, unsealed source whose bounds hold the rounded ones, which must be exact where
exactness is asked. -/
def Sys2Proof.Claims.BoundsOfSetBounds : Prop :=
  ∀ (c : Cap) (len : Nat) (exact : Bool),
    (2 ^ 57 < len ∨ 2 ^ 57 < c.va + len ∨ canonical c.lo = false → c.setBounds len exact = { c with tag := false }) ∧
    (len ≤ 2 ^ 57 → c.va + len ≤ 2 ^ 57 → canonical c.lo = true → ∃ e ≤ 44, ∃ r, r = c.setBounds len exact ∧
      roundUp (c.va + len) e - roundDown c.va e ≤ (2 ^ 14 - 1) * 2 ^ e ∧
      (∀ e' < e, (2 ^ 14 - 1) * 2 ^ e' < roundUp (c.va + len) e' - roundDown c.va e') ∧
      r.lo = c.lo ∧ r.exp = e ∧ r.base14 = roundDown c.va e / 2 ^ e % 2 ^ 14 ∧
      r.top14 = roundUp (c.va + len) e / 2 ^ e % 2 ^ 14 ∧ r.hi.toNat / 2 ^ 34 = c.hi.toNat / 2 ^ 34 ∧
      r.base = roundDown c.va e ∧ r.top = roundUp (c.va + len) e ∧
      (r.tag = true ↔ c.tag = true ∧ c.sealType = 0 ∧ c.base ≤ roundDown c.va e ∧ roundUp (c.va + len) e ≤ c.top ∧
        (exact = true → roundDown c.va e = c.va ∧ roundUp (c.va + len) e = c.va + len)))

/-- R250, R244: SetAddr moves the address and keeps every other bit; the tag survives only of a tagged, unsealed capability for
which the address is representable, and then, where R243's clamp does not apply, Decode gives the same base and top. -/
def Sys2Proof.Claims.SetAddrKeepsBounds : Prop :=
  ∀ (c : Cap) (v : Word), (c.setAddr v).lo = v ∧ (c.setAddr v).hi = c.hi ∧
    ((c.setAddr v).tag = true ↔ c.tag = true ∧ c.sealType = 0 ∧ canonical v = true ∧
      c.base ≤ v.toNat % 2 ^ 57 ∧ v.toNat % 2 ^ 57 < c.base + 2 ^ (min c.exp 44 + 14)) ∧
    ((c.setAddr v).tag = true → c.decode ≠ (0, 0) ∨ (c.base14 = 0 ∧ c.top14 = 0) → (c.setAddr v).decode = c.decode)

/-- R248: every derivation completes, in every state and whatever capabilities and values it is given, with its result bits and
tag in c[d] (a write to c0 is discarded, R34), and nothing else changes; R249: what SetBounds gives; R244, R250: what SetAddr
gives. -/
def Obligations.CapabilityDerivations : Prop :=
  (∀ (s : State) (i : Instr) (d : CReg) (P : Cap → Prop), derivedBits s i = some (d, P) → ∃ v, P v ∧ givesC i s d v) ∧
  Sys2Proof.Claims.BoundsOfSetBounds ∧ Sys2Proof.Claims.SetAddrKeepsBounds

/-- R251: every inspection completes with its value in g[b], and nothing else changes. R248: no derivation traps on any property of
a capability: each completes in every state and leaves everything but c[d] and the pc as it was. -/
def Obligations.Inspections : Prop :=
  (∀ (s : State) (i : Instr) (d : Reg) (P : Word → Prop), inspection s i = some (d, P) → ∃ v, P v ∧ gives i s d v) ∧
  (∀ (s : State) (i : Instr) (d : CReg) (P : Cap → Prop), derivedBits s i = some (d, P) →
    ∃ t, exec i s = .next t ∧ cFrame s t d)

/-! ## Loads, stores and atomics of the helm thread (R223-R225, R252) -/

namespace Sys2Proof.Claims
open Sys2Proof Sys2Proof.Machine

/-- Where the acting thread's access of n bytes at address a stands, and the state once it is translated; none where it faults,
waits, or reaches a register, the Sieve block or the beacon window (R223, R257, R285, R424). -/
def place (s : State) (a : Word) (n : Nat) (need : Need) : Option (Phys × State) :=
  if s.onCore then
    match State.firmwarePlace a with
    | .memory p => some (p, s)
    | _ => none
  else if s.touchesSieve s.ctx (a.toNat % 2 ^ 57) n || s.touchesWindow s.ctx (a.toNat % 2 ^ 57) n then none
  else match s.helmTranslate a need with
    | .ok r => some r
    | .error _ => none

/-- LDISC has not marked a line (R278). -/
def unmarked (s : State) (line : Nat) : Prop := ∀ h, find s.mem.dirty line = some h → h.mark = false

/-- Its memory channel lets an access through, the line's seal agrees with it, and neither the line nor one that a fill of it
may displace bears a mark of LDISC (R24, R278, R304, R395). -/
def openLine (s : State) (p : Phys) : Prop :=
  s.otherTenant p = none ∧ s.sealGood p = true ∧ unmarked s (p.key / 64) ∧
  (p.host = true ∨ s.l2Holds p = true ∨ ∀ e ∈ s.sameSet (p.key / 64), unmarked s e.1)

/-- An open line that is not poisoned (R304). -/
def goodLine (s : State) (p : Phys) : Prop := openLine s p ∧ s.poisonedAt p = false

/-- The L1 line that serves a tile thread's load (R265, R266); whether its port tile still holds the line it has is a free value
(log 31). -/
def servedBy (s : State) (p : Phys) : Option L1Line :=
  if s.onCore = false ∧ s.l1Serves (s.slicePort s.curGroup (s.helmPort s.cur) p) p = true then
    s.l1At (s.slicePort s.curGroup (s.helmPort s.cur) p) p
  else none

/-- What a load of n bytes reads: the bytes, the granule's tag, the poison, from the L1 line that serves it or from memory. -/
def lineRead (s : State) (p : Phys) (n : Nat) : List Byte × Bool × Bool :=
  match servedBy s p with
  | some l => ((l.bytes.drop (p.key % 64)).take n, decide (n = 16) && l.tags.getLsbD (p.key % 64 / 16), l.poi)
  | none => (getBytes s.mem.cells p.key n, decide (n = 16) && s.tagAt p, s.poisonedAt p)

/-- A load takes its line as it is: from the L1, or an open one from memory. -/
def readable (s : State) (p : Phys) : Prop := (servedBy s p).isSome = true ∨ openLine s p

/-- A control core's request finds its path open (R22, R414). -/
def coreOpen (s : State) (p : Phys) : Prop := s.onCore = true ∧ s.pathOpen (stackOf s.cur) p.home = true

/-- A tile thread's request leaves its port tile, which is ready where the group's Chart names it: its limiter, interface and path
let it go (R22, R398, R405, R414, R429). -/
def leaves (s : State) (p : Phys) : Prop :=
  s.mayIssue (stackOf s.cur) p = true ∧
    let q := s.slicePort s.curGroup (s.helmPort s.cur) p
    ((∃ e ∈ (s.group s.curGroup).ports, e.2 = q) → q ∈ (s.layer (layerOfTile q)).ports)

/-- Nothing holds a load: the L1 serves it, or its port tile, limiter, interface and path let it go; and no sweep filters it. -/
def freeLoad (s : State) (p : Phys) : Prop :=
  coreOpen s p ∨ s.onCore = false ∧ (leaves s p ∨ (servedBy s p).isSome = true) ∧ s.checkOn s.ctx = false

/-- Nothing holds the request: a tile thread's port tile, limiter, interface and path let it go and no sweep filters it (R22, R260,
R398, R405, R414, R429). -/
def unheld (s : State) (p : Phys) : Prop :=
  coreOpen s p ∨ s.onCore = false ∧ leaves s p ∧ s.checkOn s.ctx = false

/-- The first failing cause of an access of n bytes at a by capability c, in the order of R8 and R223: TAG, SEAL, PERM,
BOUNDS, ALIGN. PERM is also the cause where a range is closed to the access: the registers and the Sieve block without SYSTEM,
a beacon window to anything but a load (R257, R285, R424). The Sieve block asks for no alignment (R257). -/
def accessCause (s : State) (c : Cap) (a : Word) (n perms : Nat) (store : Bool) : Option CapFault :=
  if c.tag = false then some .tag
  else if c.sealType ≠ 0 then some .seal
  else if (s.low = true ∧ c.perms.testBit 13 = true) ∨ c.perms &&& perms ≠ perms ∨
      (if s.onCore then inRegisters a && !c.perms.testBit 13 else s.denied s.ctx c a n store) = true then some .perm
  else if canonical a = false ∨ a.toNat % 2 ^ 57 < c.base ∨ c.top < a.toNat % 2 ^ 57 + n then some .bounds
  else if a.toNat % n ≠ 0 ∧ ¬(s.onCore = false ∧ s.touchesSieve s.ctx (a.toNat % 2 ^ 57) n = true) then some .align
  else none
where
  /-- The register range of a control core (R424). -/
  inRegisters (a : Word) : Bool := decide (0x0080000000000000 ≤ a.toNat ∧ a.toNat < 0x0080000001000000)

/-- Bytes of a load's type, and whether it sign-extends (R40). -/
def loadType : LoadType → Nat × Bool
  | .n8 => (1, false)
  | .n16 => (2, false)
  | .n32 => (4, false)
  | .n64 => (8, false)
  | .i8 => (1, true)
  | .i16 => (2, true)
  | .i32 => (4, true)

/-- Bytes of a store's type (R40). -/
def storeType : StoreType → Nat
  | .n8 => 1
  | .n16 => 2
  | .n32 => 4
  | .n64 => 8

/-- What a load of n bytes that hold x gives: x zero-extended, or sign-extended (R223). -/
def extended (n : Nat) (signed : Bool) (x : Nat) (v : Word) : Prop :=
  if signed then v.toInt = if x < 2 ^ (8 * n - 1) then (x : Int) else (x : Int) - 2 ^ (8 * n) else v.toNat = x

/-- An access with offset imm13 in units of u bytes (R223, R252). -/
def offsetBy (c : Cap) (i : BitVec 13) (u : Int) : Word := c.lo + BitVec.ofInt 64 (u * i.toInt)

/-- On a control core nothing but memory, the table of threads, what the L2 slices hold and the credit that a write-back takes
differs. -/
def coreFrame (s t : State) : Prop := s.onCore = true →
  { t with threads := s.threads, mem := s.mem, l2 := s.l2, parts := s.parts, fresh := s.fresh } = s

/-- What a store of bs at p leaves: those bytes, every other byte and every other granule's tag as they were, the granule's
tag as given. -/
def stores (s t : State) (p : Phys) (bs : List Byte) (tag : Bool) : Prop :=
  getBytes t.mem.cells p.key bs.length = bs ∧ bytesKeptBut s t p.key bs.length ∧ t.tagAt p = tag ∧
  ∀ g, g < p.key / 16 ∨ p.key + bs.length ≤ 16 * g → t.mem.tags.contains g = s.mem.tags.contains g

/-- R225's table: an atomic's width, scope, registers, capability, and the value it stores from the old value, the operand
and g[d]'s low bits; none where a CAS fails. -/
def atomicOf : Instr → Option (AmoWidth × Reg × Reg × CReg × (Nat → Nat → Nat → Nat → Option Nat))
  | .amoswap w _ d b a => some (w, d, b, a, fun _ _ v _ => some v)
  | .amoadd w _ d b a => some (w, d, b, a, fun n old v _ => some ((old + v) % 2 ^ (8 * n)))
  | .amoand w _ d b a => some (w, d, b, a, fun _ old v _ => some (old &&& v))
  | .amoor w _ d b a => some (w, d, b, a, fun _ old v _ => some (old ||| v))
  | .amoxor w _ d b a => some (w, d, b, a, fun _ old v _ => some (old ^^^ v))
  | .amomin w _ d b a => some (w, d, b, a, fun n old v _ => some (if signedOf n v < signedOf n old then v else old))
  | .amomax w _ d b a => some (w, d, b, a, fun n old v _ => some (if signedOf n old < signedOf n v then v else old))
  | .amominu w _ d b a => some (w, d, b, a, fun _ old v _ => some (min old v))
  | .amomaxu w _ d b a => some (w, d, b, a, fun _ old v _ => some (max old v))
  | .amocas w _ d b a => some (w, d, b, a, fun _ old v e => if old = e then some v else none)
  | _ => none
where
  /-- An n-byte pattern as a signed integer. -/
  signedOf (n x : Nat) : Int := if x < 2 ^ (8 * n - 1) then (x : Int) else (x : Int) - 2 ^ (8 * n)

/-- The bytes of an atomic (R225). -/
def atomicBytes : AmoWidth → Nat
  | .n64 => 8
  | .n32 => 4

/-- The capability, address, size, needed permissions and kind of each access instruction (R223, R225, R252). -/
def accessOf (s : State) : Instr → Option (Cap × Word × Nat × Nat × Bool)
  | .ldc t _ a i => some (s.c a, offsetBy (s.c a) i 1, (loadType t).1, 0x1, false)
  | .stc t _ a i => some (s.c a, offsetBy (s.c a) i 1, storeType t, 0x2, true)
  | .ldcc _ a i => some (s.c a, offsetBy (s.c a) i 16, 16, 0x1, false)
  | .stcc d a i => some (s.c a, offsetBy (s.c a) i 16, 16,
      0x2 + (if (s.c d).tag then 0x8 else 0) + (if (s.c d).tag && !(s.c d).perms.testBit 11 then 0x1000 else 0), true)
  | i => (atomicOf i).map fun x => (s.c x.2.2.2.1, (s.c x.2.2.2.1).lo, atomicBytes x.1, 0x103, true)

end Sys2Proof.Claims

/-- R223, R225, R252: an access whose check fails traps CAP with the first failing cause as detail and its address as EVAL, and
accesses nothing. -/
def Obligations.AccessTraps : Prop :=
  ∀ (s : State) (i : Instr) (c : Cap) (a : Word) (n perms : Nat) (store : Bool) (f : CapFault),
    accessOf s i = some (c, a, n, perms, store) → accessCause s c a n perms store = some f → capTraps i s f a

/-- R223, R252, R265: a load that passes its check, with nothing that holds it, gives the bytes at its address, of memory or of
the L1 line that serves it, zero- or sign-extended in g[b], or the 16 bytes and the granule's tag, kept with LOAD_CAP, in c[d]; it
changes no other register and no byte beyond what its translation does; of a poisoned line it traps POISON and writes no
register. -/
def Obligations.Loads : Prop :=
  ∀ (s s1 : State) (a : CReg) (i : BitVec 13) (p : Phys),
    (∀ (t : LoadType) (b : Reg), accessCause s (s.c a) (offsetBy (s.c a) i 1) (loadType t).1 0x1 false = none →
      place s (offsetBy (s.c a) i 1) (loadType t).1 Need.load = some (p, s1) → freeLoad s1 p → readable s1 p →
      ((lineRead s1 p (loadType t).1).2.2 = false → ∃ u v, exec (.ldc t b a i) s = .next u ∧ u.g b = written b v ∧
        extended (loadType t).1 (loadType t).2 (fromBytes (lineRead s1 p (loadType t).1).1) v ∧
        regsKept s u b ∧ bytesKept s1 u ∧ coreFrame s u) ∧
      ((lineRead s1 p (loadType t).1).2.2 = true →
        ∃ u : State, exec (.ldc t b a i) s = .next (u.trap 5 0 (offsetBy (s.c a) i 1)) ∧ u.threads = s.threads ∧ u.cur = s.cur)) ∧
    (∀ d : CReg, accessCause s (s.c a) (offsetBy (s.c a) i 16) 16 0x1 false = none →
      place s (offsetBy (s.c a) i 16) 16 Need.load = some (p, s1) → freeLoad s1 p → readable s1 p →
      ((lineRead s1 p 16).2.2 = false → ∃ u, exec (.ldcc d a i) s = .next u ∧
        u.c d = writtenC s d { lo := BitVec.ofNat 64 (fromBytes ((lineRead s1 p 16).1.take 8)),
                               hi := BitVec.ofNat 64 (fromBytes ((lineRead s1 p 16).1.drop 8)),
                               tag := (lineRead s1 p 16).2.1 && (s.c a).perms.testBit 2 } ∧
        capsKept s u d ∧ bytesKept s1 u ∧ coreFrame s u) ∧
      ((lineRead s1 p 16).2.2 = true →
        ∃ u : State, exec (.ldcc d a i) s = .next (u.trap 5 0 (offsetBy (s.c a) i 16)) ∧ u.threads = s.threads ∧ u.cur = s.cur))

/-- R223, R252: a store that passes its check puts g[b]'s low bytes, or c[d]'s 16 bytes, at the place of its address and no
other byte; STC clears the granule's tag, STCC sets it as c[d]'s where the page grants capability stores; no register changes. -/
def Obligations.Stores : Prop :=
  ∀ (s s1 : State) (a : CReg) (i : BitVec 13) (p : Phys), s1.memWf = true →
    (∀ (t : StoreType) (b : Reg), accessCause s (s.c a) (offsetBy (s.c a) i 1) (storeType t) 0x2 true = none →
      place s (offsetBy (s.c a) i 1) (storeType t) Need.store = some (p, s1) → unheld s1 p → goodLine s1 p →
      ∃ u, exec (.stc t b a i) s = .next u ∧ stores s1 u p (toBytes (storeType t) (s.g b).toNat) false ∧
        regsKept s u 0 ∧ coreFrame s u) ∧
    (∀ (d : CReg) (perms : Nat), accessOf s (.stcc d a i) = some (s.c a, offsetBy (s.c a) i 16, 16, perms, true) →
      accessCause s (s.c a) (offsetBy (s.c a) i 16) 16 perms true = none →
      place s (offsetBy (s.c a) i 16) 16 Need.store = some (p, s1) → unheld s1 p → goodLine s1 p → p.host = false →
      ∃ u, exec (.stcc d a i) s = .next u ∧
        stores s1 u p (toBytes 8 (s.c d).lo.toNat ++ toBytes 8 (s.c d).hi.toNat) ((s.c d).tag && p.cs) ∧
        regsKept s u 0 ∧ coreFrame s u)

/-- R225: an atomic that passes its check gives the old value, zero-extended, in g[d] and stores its operation's value at its
place, clearing the granule's tag; a CAS that fails writes no byte and keeps the tag; nothing else of memory changes and no
other register. -/
def Obligations.Atomics : Prop :=
  ∀ (s s1 : State) (i : Instr) (w : AmoWidth) (d b : Reg) (a : CReg) (f : Nat → Nat → Nat → Nat → Option Nat) (p : Phys)
    (n old : Nat), atomicOf i = some (w, d, b, a, f) → n = atomicBytes w → s1.memWf = true →
    accessCause s (s.c a) (s.c a).lo n 0x103 true = none → place s (s.c a).lo n Need.both = some (p, s1) → unheld s1 p →
    goodLine s1 p → old = fromBytes (getBytes s1.mem.cells p.key n) →
    ∃ u, exec i s = .next u ∧ u.g d = written d (BitVec.ofNat 64 old) ∧ regsKept s u d ∧
      match f n old ((s.g b).toNat % 2 ^ (8 * n)) ((s.g d).toNat % 2 ^ (8 * n)) with
      | some x => stores s1 u p (toBytes n x) false
      | none => bytesKept s1 u ∧ u.mem.tags = s1.mem.tags

/-- R257, R285, R424: an 8-byte load or store reaches a device register on a control core, or a register of the context's Sieve
block, of which an unaligned one reaches none; accesses of other sizes, capability accesses and atomics load zero there and store
nothing; with no sweep active a load of the beacon window reads
the layer's buffer; a control core's access to no place traps PAGE. -/
def Obligations.RegisterAccesses : Prop :=
  (∀ (s : State) (i : Instr) (c : Cap) (x : Word) (n perms : Nat) (store : Bool), accessOf s i = some (c, x, n, perms, store) →
    accessCause s c x n perms store = none → s.onCore = true → State.firmwarePlace x = .nowhere →
    exec i s = .next (s.trap 4 1 x)) ∧
  (∀ (s : State) (i : Instr) (c : Cap) (x : Word) (n perms : Nat) (store : Bool), accessOf s i = some (c, x, n, perms, store) →
    accessCause s c x n perms store = none →
    ((∃ o, s.onCore = true ∧ State.firmwarePlace x = .register o) ∨
      s.onCore = false ∧ s.touchesSieve s.ctx (x.toNat % 2 ^ 57) n = true) →
    (∀ t b a o, i = .ldc t b a o → t ≠ .n64 → gives i s b 0) ∧
    (∀ t b a o, i = .stc t b a o → t ≠ .n64 → ∃ u, exec i s = .next u ∧ gFrame s u 0) ∧
    (∀ d a o, i = .ldcc d a o → givesC i s d {}) ∧
    (∀ d a o, i = .stcc d a o → ∃ u, exec i s = .next u ∧ gFrame s u 0) ∧
    (∀ w d b a f, atomicOf i = some (w, d, b, a, f) → gives i s d 0)) ∧
  (∀ (s : State) (b : Reg) (a : CReg) (i : BitVec 13) (x : Word), x = offsetBy (s.c a) i 1 →
    (accessCause s (s.c a) x 8 0x1 false = none →
      (∀ o, s.onCore = true → State.firmwarePlace x = .register o → gives (.ldc .n64 b a i) s b (s.regRead o)) ∧
      (s.onCore = false → s.touchesSieve s.ctx (x.toNat % 2 ^ 57) 8 = true → gives (.ldc .n64 b a i) s b
        (if x.toNat % 8 = 0 ∧ (s.context s.ctx).roottab + 256 ≤ x.toNat % 2 ^ 57 then
          (s.context s.ctx).sieve.read (x.toNat % 2 ^ 57 - ((s.context s.ctx).roottab + 256)) else 0))) ∧
    (accessCause s (s.c a) x 8 0x2 true = none →
      (∀ o, s.onCore = true → State.firmwarePlace x = .register o →
        exec (.stc .n64 b a i) s = .next (s.regWrite o (s.g b)).advance) ∧
      (s.onCore = false → s.touchesSieve s.ctx (x.toNat % 2 ^ 57) 8 = true → exec (.stc .n64 b a i) s = .next
        (if x.toNat % 8 = 0 ∧ (s.context s.ctx).roottab + 256 ≤ x.toNat % 2 ^ 57 then
          (s.writeSieve s.ctx (x.toNat % 2 ^ 57 - ((s.context s.ctx).roottab + 256)) (s.g b)).advance else s.advance)))) ∧
  (∀ (s : State) (t : LoadType) (b : Reg) (a : CReg) (i : BitVec 13) (x : Word) (n l o : Nat), x = offsetBy (s.c a) i 1 →
    n = (loadType t).1 → l = layerOfTile (ptidOf s.cur) → o = s.windowByte s.ctx (x.toNat % 2 ^ 57) →
    accessCause s (s.c a) x n 0x1 false = none → s.onCore = false → s.touchesSieve s.ctx (x.toNat % 2 ^ 57) n = false →
    s.touchesWindow s.ctx (x.toNat % 2 ^ 57) n = true → (s.layer l).bstate ≠ 2 →
    (s.layer l).buf.poison.contains (o / 64) = false → s.checkOn s.ctx = false →
    ∃ v, extended n (loadType t).2 (fromBytes (getBytes (s.layer l).buf.cells o n)) v ∧ gives (.ldc t b a i) s b v)

/-! ## Streams, channels, engines, barriers, the Beacon's instructions, queues (R227-R233, R291-R295, R317, R318, R355-R361) -/

namespace Sys2Proof.Claims
open Sys2Proof Sys2Proof.Machine

/-- A thread at its next instruction: the address after, READY, waiting for nothing (R212). -/
def advanced (x : Thread) : Thread :=
  { x with pcc := { x.pcc with lo := x.pcc.lo + 4 }, st := .ready, wait := .none, arrived := false }

/-- The acting thread with registers x yields (R214): it is YIELDING, on a tile once its unit's outbound streams have drained, and
waits for that before. -/
def yielded (s : State) (x : Thread) : Thread :=
  if s.onCore = true ∨ s.unitDrained s.cur = true then { x with st := .yielding, wait := .none, instr := none }
  else { x with st := .waiting, wait := .drain, instr := none }

/-- The acting thread is x, no other thread differs and every byte of memory reads as before. -/
def becomes (s t : State) (x : Thread) : Prop := t.cur = s.cur ∧ t.th = x ∧ othersKept s t ∧ bytesKept s t

/-- What SSEND, SSEED and SLOAD send: the stream, the register written and the beats (R227). -/
def sentBy (s : State) : Instr → Option (Nat × Reg × List Beat)
  | .ssend a n => some (n.toNat, 0, [{ data := s.g a }])
  | .sseed a n => some (n.toNat, 0, [{ data := s.g a, cfg := true }])
  | .sload d a n => some (n.toNat, d,
      [{ data := (s.c a).lo, kind := .caplo, tag := (s.c a).tag }, { data := (s.c a).hi, kind := .caphi }])
  | _ => none

/-- SLOAD's requirement: a tagged capability has STREAM (R227). -/
def streamable (s : State) : Instr → Prop
  | .sload _ a _ => (s.c a).tag = true → (s.c a).perms.testBit 6 = true
  | _ => True

/-- The error counter of group h counts n times more, saturating, once the group has been ARMED (R392). -/
def countsErrors (s t : State) (h n : Nat) : Prop :=
  (find s.groups h).isSome = true → (s.group h).st ≠ .leased → (s.group h).st ≠ .configuring → (t.group h).gerr.toNat = min ((s.group h).gerr.toNat + n) (2 ^ 32 - 1)

/-- The error counter of group h counts once more, saturating (R392). -/
def countsError (s t : State) (h : Nat) : Prop := countsErrors s t h 1

/-- The tile, unit and context of the acting thread of a compute tile. -/
def here (s : State) : Nat := ptidOf s.cur
/-- Its unit. -/
def hereUnit (s : State) : Nat := unitOf s.cur

/-- The request of an engine instruction: kind, capabilities, request word (R231). -/
def requestOf (s : State) : Instr → Option (Nat × Cap × Cap × Word)
  | .ecopy d a n => some (0, s.c d, s.c a, s.g n)
  | .egather d a n => some (1, s.c d, s.c a, s.g n)
  | .ecoll d a n => some (2, s.c d, s.c a, s.g n)
  | _ => none

/-- Bits lo to lo + n - 1 of a word. -/
def field (w : Word) (lo n : Nat) : Nat := w.toNat / 2 ^ lo % 2 ^ n

/-- A request word breaks R231's field rules. -/
def badRequest (s : State) : Instr → Prop
  | .ecopy d _ n =>
    (64 ≤ field (s.g n) 0 8 ∧ field (s.g n) 0 8 ≠ 0xFF) ∨ field (s.g n) 60 4 ≠ 0 ∨ field (s.g n) 16 24 = 0 ∨
      (field (s.g n) 40 1 = 1 ∧ (s.onCore = true ∨ d ≠ 0 ∨ 65536 < field (s.g n) 44 16 + field (s.g n) 16 24))
  | .egather _ _ n =>
    (64 ≤ field (s.g n) 0 8 ∧ field (s.g n) 0 8 ≠ 0xFF) ∨ field (s.g n) 53 11 ≠ 0 ∨ 4 < field (s.g n) 16 3 ∨
      field (s.g n) 22 16 % 4 ≠ 0 ∨ 65536 < field (s.g n) 22 16 + 4 * (field (s.g n) 38 15 + 1)
  | .ecoll _ _ n =>
    (64 ≤ field (s.g n) 0 8 ∧ field (s.g n) 0 8 ≠ 0xFF) ∨ field (s.g n) 28 4 ≠ 0 ∨ field (s.g n) 56 8 ≠ 0 ∨
      8 ≤ field (s.g n) 24 4 ∨ field (s.g n) 32 24 = 0
  | _ => False

/-- The code QPUSH gives for a record with DESIG[15] = desig, in the order of R317. -/
def pushAnswer (s : State) (q : Nat) (desig : Bool) : Nat :=
  if s.onCore = false ∧ ¬((s.queue q).bound = true ∧ (s.queue q).ctx = s.ctx) then 2
  else if (s.queue q).st ≠ 1 ∧ (s.queue q).st ≠ 2 then 3
  else if desig = true ∧ s.onCore = false ∧ s.th.priv = 0 then 4
  else if 16 ≤ (s.queue q).records.length then 1
  else 0

/-- What a blocking instruction waits for, whether it is a yield check there, and when its condition is unmet (R213). -/
def blockOf (s : State) : Instr → Option (Wait × Bool × Prop)
  | .ssend _ n => some (.outFree n.toNat 1, true, s.onCore = false ∧ 16 ≤ (s.outq (here s) (hereUnit s) n.toNat).length)
  | .sseed _ n => some (.outFree n.toNat 1, true, s.onCore = false ∧ 16 ≤ (s.outq (here s) (hereUnit s) n.toNat).length)
  | .sload d a n => some (.outFree n.toNat 2, true, s.onCore = false ∧ streamable s (.sload d a n) ∧
      15 ≤ (s.outq (here s) (hereUnit s) n.toNat).length)
  | .srecv _ n => some (.inBeat n.toNat, true, s.onCore = false ∧ s.inq (here s) (hereUnit s) n.toNat = [])
  | .sdrain n => some (.outEmpty n.toNat, true, s.onCore = false ∧ s.outq (here s) (hereUnit s) n.toNat ≠ [])
  | .sbar => some (.sbar, true, s.onCore = false ∧ s.still s.cur = false)
  | .msend _ n => some (.chanFree (s.chanAt s.cur n.toNat), true, s.maySend s.cur (s.chanAt s.cur n.toNat) = false)
  | .mrecv _ n => some (.chanMsg (s.chanAt s.cur n.toNat), true, s.mayRecv s.cur (s.chanAt s.cur n.toNat) = false)
  | .ecopy d a n => some (.engineFree, true, ¬badRequest s (.ecopy d a n) ∧ s.requestFault 0 (s.c d) (s.c a) (s.g n) = none ∧
      8 ≤ s.unitRequests s.cur)
  | .egather d a n => some (.engineFree, true, s.onCore = false ∧ ¬badRequest s (.egather d a n) ∧
      s.requestFault 1 (s.c d) (s.c a) (s.g n) = none ∧ 8 ≤ s.unitRequests s.cur)
  | .ecoll d a n => some (.engineFree, true, s.onCore = false ∧ ¬badRequest s (.ecoll d a n) ∧
      s.requestFault 2 (s.c d) (s.c a) (s.g n) = none ∧ 8 ≤ s.unitRequests s.cur)
  | .bwait b => some (.barrier b.toNat, true, s.onCore = false ∧ s.barrierOpen s.cur b.toNat = false)
  | .bcst a n => some (.beaconFree, true, s.onCore = false ∧ State.bcstArg (s.g n) = false ∧
      s.bcstFault (s.c a) (field (s.g n) 32 11 + 1) = none ∧ 4 ≤ (s.unit (here s) (hereUnit s)).bcst.length)
  | .bcfence => some (.beaconDone, true, s.onCore = false ∧ s.beaconDone s.cur = false)
  | .tlbsync => some (.tlbsync, true, s.low = false ∧ ∃ i ∈ s.invals, i.thread = s.cur)
  | .gstat _ _ => some (.gstat, false, s.commandsRecorded s.cur = false)
  | _ => none

end Sys2Proof.Claims

/-- R213, R212, R214: a blocking instruction whose condition is unmet has no effect: at a yield check with a stop request pending
the thread is YIELDING at the instruction, on a tile once its unit's outbound streams have drained and WAITING for that before; else
it is WAITING for the condition. Nothing else differs. -/
def Obligations.Blocking : Prop :=
  ∀ (s : State) (i : Instr) (w : Wait) (check : Bool) (P : Prop), blockOf s i = some (w, check, P) → P →
    (check = true → s.th.stopReq = true → ∃ t, exec i s = .next t ∧ othersKept s t ∧ onlyThreads s t ∧ bytesKept s t ∧
      t.th = yielded s s.th) ∧
    (check = false ∨ s.th.stopReq = false → ∃ t, exec i s = .next t ∧ waitsFor s t w)

/-- R227: with room in the outbound queue of its stream SSEND places one DATA beat, SSEED one configuration word, SLOAD a
capability's pair and then its free entries in g[d]; on a stream that nothing maps the beats are discarded and each is counted in
the group's error counter. SLOAD of a tagged capability without STREAM traps CAP, PERM. -/
def Sys2Proof.Claims.StreamSends : Prop :=
  ∀ (s : State) (i : Instr) (n : Nat) (d : Reg) (bs : List Beat), s.onCore = false → sentBy s i = some (n, d, bs) →
    (∀ (d' : Reg) (a : CReg) (n' : BitVec 6), i = .sload d' a n' → ¬streamable s i → capTraps i s .perm (s.c a).lo) ∧
    (streamable s i → (s.outq (here s) (hereUnit s) n).length + bs.length ≤ 16 →
      (s.outMapped (here s) (hereUnit s) n = true → ∃ t, exec i s = .next t ∧ regsKept s t d ∧ bytesKept s t ∧
        t.outq (here s) (hereUnit s) n = s.outq (here s) (hereUnit s) n ++ bs ∧
        (∀ m, m ≠ n → t.outq (here s) (hereUnit s) m = s.outq (here s) (hereUnit s) m) ∧
        t.g d = written d (BitVec.ofNat 64 (16 - ((s.outq (here s) (hereUnit s) n).length + bs.length)))) ∧
      (s.outMapped (here s) (hereUnit s) n = false → ∃ t, exec i s = .next t ∧ regsKept s t d ∧ bytesKept s t ∧
        (∀ m, t.outq (here s) (hereUnit s) m = s.outq (here s) (hereUnit s) m) ∧
        countsErrors s t (s.handleOf (here s)) bs.length ∧
        t.g d = written d (BitVec.ofNat 64 (16 - (s.outq (here s) (hereUnit s) n).length))))

/-- R227, R209, R228: SRECV takes the oldest beat of its inbound queue, g[d] takes its data, or 0 of a poisoned beat, and k.RXSB its
CFG, KIND, TAG and POI; SDRAIN completes with no effect once its queue is empty, SBAR once R228 holds. -/
def Sys2Proof.Claims.StreamReceives : Prop :=
  ∀ (s : State) (d : Reg) (n : BitVec 6), s.onCore = false →
    (∀ (b : Beat) (bs : List Beat), s.inq (here s) (hereUnit s) n.toNat = b :: bs →
      ∃ t x, exec (.srecv d n) s = .next t ∧ t.inq (here s) (hereUnit s) n.toNat = bs ∧
        (∀ m, m ≠ n.toNat → t.inq (here s) (hereUnit s) m = s.inq (here s) (hereUnit s) m) ∧
        field x 7 57 = b2n b.cfg ∧ field x 4 3 = b.kind.code ∧ field x 3 1 = b2n b.tag ∧ field x 2 1 = b2n b.poi ∧ field x 0 2 = 0 ∧
        becomes s t { advanced s.th with rxsb := x, g := if d = 0 then s.th.g else s.th.g.set d (if b.poi then 0 else b.data) }) ∧
    (s.outq (here s) (hereUnit s) n.toNat = [] → ∃ t, exec (.sdrain n) s = .next t ∧ gFrame s t 0) ∧
    (s.still s.cur = true → ∃ t, exec .sbar s = .next t ∧ gFrame s t 0)

/-- Sending to a stream port and receiving from one. -/
def Obligations.Streams : Prop := Sys2Proof.Claims.StreamSends ∧ Sys2Proof.Claims.StreamReceives

/-- R230: MSEND, when its turn has come, puts g[a] behind its channel's messages; MRECV, when a message is next for it, takes that
message into g[d]: the oldest where no receiver waits. A channel with room, with nothing held and no sender waiting gives a sender
its turn. No other channel changes. -/
def Obligations.Messages : Prop :=
  ∀ (s : State) (a : Reg) (n : BitVec 8) (c : ChanId), c = s.chanAt s.cur n.toNat →
    ((s.chan c).msgs.length < 16 → (s.chan c).held = [] → s.waiters (.chanFree c) = [] → s.maySend s.cur c = true) ∧
    (s.waiters (.chanMsg c) = [] → (s.chan c).msgs ≠ [] → s.mayRecv s.cur c = true ∧ s.ahead s.cur c = 0) ∧
    (s.maySend s.cur c = true → ∃ t, exec (.msend a n) s = .next t ∧ regsKept s t 0 ∧ bytesKept s t ∧
      t.chan c = { s.chan c with msgs := (s.chan c).msgs ++ [s.g a] } ∧ ∀ k, k ≠ c → t.chan k = s.chan k) ∧
    (s.mayRecv s.cur c = true → ∃ t, exec (.mrecv a n) s = .next t ∧ regsKept s t a ∧ bytesKept s t ∧
      t.g a = written a ((s.chan c).msgs.getD (s.ahead s.cur c) 0) ∧
      t.chan c = { s.chan c with msgs := (s.chan c).msgs.eraseIdx (s.ahead s.cur c) } ∧ ∀ k, k ≠ c → t.chan k = s.chan k)

/-- R231: an engine request whose word breaks its form's rules traps ENGARG; one whose capabilities fail traps CAP; else, with a free
entry in the unit's queue, it is posted as the newest request and no register changes. ECOLL is also the thread's arrival at its
barrier (R232). -/
def Obligations.EngineRequests : Prop :=
  ∀ (s : State) (i : Instr) (k : Nat) (d a : Cap) (w : Word), requestOf s i = some (k, d, a, w) → (s.onCore = true → k = 0) →
    (badRequest s i → exec i s = .next (s.trap 6 0 w)) ∧
    (¬badRequest s i → (∀ f x, s.requestFault k d a w = some (f, x) → capTraps i s f x) ∧
      (s.requestFault k d a w = none → s.unitRequests s.cur < 8 →
        ∃ t, exec i s = .next t ∧
          t.engines = s.engines ++ [{ id := s.ids, kind := k, thread := s.cur,
                                      gh := if s.onCore then 0 else s.handleOf (here s), place := placeOf s.cur, ctx := s.ctx, src := a,
                                      dst := d, word := w, user := s.low }] ∧
          (k ≠ 2 → t.agenda = s.agenda ++ [.event (.evEngineTransfer s.ids)] ∧ becomes s t (advanced s.th)) ∧
          (k = 2 → (s.barrier (here s) (field w 16 8)).valid = true →
            (t.tile (here s)).leaving = (s.tile (here s)).leaving ++ [(field w 16 8, some s.ids)] ∧
            becomes s t { advanced s.th with
              ap := setMem s.th.ap (field w 16 8) (s.barrier (here s) (field w 16 8)).pv })))

/-- R358, R359, R361: BINIT writes the record and sends its init to the home, which it reaches after the hops between, or applies the reply at once at TILE scope; BARV takes
note of the phase and its arrival leaves, or is counted as an error at a record that is not VALID; BWAIT completes when the phase
has turned and takes note of it; BARVW makes its arrival once and then waits so; BTEST gives the record's status. -/
def Obligations.Barriers : Prop :=
  ∀ (s : State) (b : BitVec 8) (n : Nat) (x : Barrier), s.onCore = false → n = b.toNat → x = s.barrier (here s) n →
    (∀ (c : BarScope) (a : Reg), c.code ≠ 2 → ∃ t, exec (.binit c a b) s = .next t ∧ becomes s t (advanced s.th) ∧
      t.barrier (here s) n = { x with valid := true, pend := true, scope := BitVec.ofNat 3 c.code, exp := (s.g a).setWidth 16 } ∧
      ∀ h, h = s.homeAt (here s) n (BitVec.ofNat 3 c.code) →
        (t.home h).inbox = enterInbox (s.fc + s.homeHops h (here s), .init (here s) ((s.g a).setWidth 16)) (s.home h).inbox) ∧
    (∀ (c : BarScope) (a : Reg), c.code = 2 → s.th.st ≠ .waiting → ∃ t, exec (.binit c a b) s = .next t ∧
      (t.home (.tile (here s) n)).isOpen = true ∧
      ((s.home (.tile (here s) n)).inbox = [] → (s.home (.tile (here s) n)).arr = 0 ∨ (s.home (.tile (here s) n)).isOpen = false →
        (t.home (.tile (here s) n)).exp = (s.g a).setWidth 16 ∧ (t.home (.tile (here s) n)).arr = 0) ∧
      t.barrier (here s) n = { x with valid := true, pend := false, scope := 2, exp := (s.g a).setWidth 16,
                                      pv := (t.home (.tile (here s) n)).ph } ∧
      (∀ m < 8, t.apBit (here s * 8 + m) n = (t.home (.tile (here s) n)).ph) ∧ t.pc = s.pc + 4 ∧ bytesKept s t) ∧
    (x.valid = true → ∃ t, exec (.barv b) s = .next t ∧ (t.tile (here s)).leaving = (s.tile (here s)).leaving ++ [(n, none)] ∧
      becomes s t { advanced s.th with ap := setMem s.th.ap n x.pv }) ∧
    (x.valid = false → ∃ t, exec (.barv b) s = .next t ∧ (t.tile (here s)).leaving = (s.tile (here s)).leaving ∧
      countsError s t (s.handleOf (here s)) ∧ becomes s t (advanced s.th)) ∧
    (x.valid = true → x.pend = false → x.pv ≠ s.apBit s.cur n →
      (∃ t, exec (.bwait b) s = .next t ∧ becomes s t { advanced s.th with ap := setMem s.th.ap n x.pv }) ∧
      (s.th.arrived = true → ∃ t, exec (.barvw b) s = .next t ∧
        becomes s t { advanced s.th with ap := setMem s.th.ap n x.pv })) ∧
    (x.valid = true → s.th.arrived = false → s.th.stopReq = false → ∃ t, exec (.barvw b) s = .next t ∧
      (t.tile (here s)).leaving = (s.tile (here s)).leaving ++ [(n, none)] ∧ t.th.st = .waiting ∧ t.th.wait = .barrier n ∧
      t.th.arrived = true ∧ t.th.ap = setMem s.th.ap n x.pv ∧ t.pc = s.pc) ∧
    (∀ d : Reg, ∃ v, gives (.btest d b) s d v ∧ field v 0 1 = b2n x.pv ∧ field v 1 1 = b2n (x.pv != s.apBit s.cur n) ∧
      field v 6 1 = b2n x.pend ∧ field v 7 1 = b2n x.valid ∧ field v 32 16 = x.exp.toNat ∧ field v 2 1 = 0 ∧
      field v 16 16 = (if x.valid = true ∧ x.scope = 2 then (s.home (.tile (here s) n)).arr % 2 ^ 16 else 0) ∧
      (x.valid = true → field v 3 3 = x.scope.toNat))

/-- R291, R294, R295: BCST with bad request bits traps ENGARG, with a failing capability CAP, and else joins its unit's queue of
four; BCFENCE completes when every payload of the thread is applied; BSLOT gives the context's runs and PEND, and 0 on a control
core. -/
def Sys2Proof.Claims.BeaconInstructions : Prop :=
  (∀ (s : State) (a : CReg) (n : Reg), s.onCore = false →
    (field (s.g n) 43 21 ≠ 0 ∨ field (s.g n) 19 13 ≠ 0 ∨ field (s.g n) 0 6 ≠ 0 ∨
        65536 < field (s.g n) 0 16 + 64 * (field (s.g n) 32 11 + 1) → exec (.bcst a n) s = .next (s.trap 6 0 (s.g n))) ∧
    (State.bcstArg (s.g n) = false →
      (∀ f, s.bcstFault (s.c a) (field (s.g n) 32 11 + 1) = some f → capTraps (.bcst a n) s f (s.c a).lo) ∧
      (s.bcstFault (s.c a) (field (s.g n) 32 11 + 1) = none → (s.unit (here s) (hereUnit s)).bcst.length < 4 →
        ∃ t, exec (.bcst a n) s = .next t ∧ becomes s t (advanced s.th) ∧
          (t.unit (here s) (hereUnit s)).bcst = (s.unit (here s) (hereUnit s)).bcst ++
            [{ thread := s.cur, ctx := s.ctx, bank := field (s.g n) 16 3, off := field (s.g n) 0 16,
               row := s.windowByte s.ctx ((s.c a).lo.toNat % 2 ^ 57) / 64, left := field (s.g n) 32 11 + 1,
               storeCap := (s.c a).perms.testBit 3, storeLocal := (s.c a).perms.testBit 12,
               cap := s.c a, seq := s.ids }])) ∧
    (s.beaconDone s.cur = true → ∃ t, exec .bcfence s = .next t ∧ becomes s t (advanced s.th))) ∧
  (∀ (s : State) (d : Reg), s.onCore = true → gives (.bslot d) s d 0) ∧
  (∀ (s : State) (d : Reg), s.onCore = false → gives (.bslot d) s d (s.slotWord s.ctx (stackOf s.cur)))

/-- R317, R318: QPUSH that passes its check reads the 64 bytes at its address and answers R317's code, queueing the record only with
code 0; QSTAT gives the queue's status word, or below H 0 for a queue not bound to the thread's context. -/
def Sys2Proof.Claims.QueueInstructions : Prop :=
  ∀ (s : State) (d : Reg) (a : CReg) (b : BitVec 8) (q : Nat), q = b.toNat →
    (∀ f, accessCause s (s.c a) (s.c a).lo 64 0x21 false = some f → capTraps (.qpush d a b) s f (s.c a).lo) ∧
    (∀ (s1 : State) (p : Phys) (r : Nat), accessCause s (s.c a) (s.c a).lo 64 0x21 false = none →
      place s (s.c a).lo 64 Need.load = some (p, s1) → freeLoad s1 p → readable s1 p → (lineRead s1 p 64).2.2 = false →
      r = fromBytes (lineRead s1 p 64).1 →
      ∃ t, exec (.qpush d a b) s = .next t ∧ regsKept s t d ∧ bytesKept s1 t ∧
        t.g d = written d (BitVec.ofNat 64 (pushAnswer s q (r.testBit (8 * 56 + 15)))) ∧
        t.queue q = (if pushAnswer s q (r.testBit (8 * 56 + 15)) = 0
          then { s.queue q with records := (s.queue q).records ++ [BitVec.ofNat 512 r] } else s.queue q) ∧
        ∀ k, k ≠ q → t.queue k = s.queue k) ∧
    ((s.th.priv = 2 ∨ (s.queue q).bound = true ∧ (s.queue q).ctx = s.ctx) → gives (.qstat d b) s d (s.queueStatus q)) ∧
    (s.th.priv ≠ 2 → ¬((s.queue q).bound = true ∧ (s.queue q).ctx = s.ctx) → gives (.qstat d b) s d 0)

/-- The beacon instructions and those of the device's queues. -/
def Obligations.BeaconAndQueues : Prop := Sys2Proof.Claims.BeaconInstructions ∧ Sys2Proof.Claims.QueueInstructions

/-! ## Group commands, system instructions, traps (R226, R235-R240, R278, R310, R311, R353, R354, R375, R376) -/

namespace Sys2Proof.Claims
open Sys2Proof Sys2Proof.Machine

/-- The handle, operand, sub-code, result register and whether RUN must be 0, of a group command (R353). -/
def commandOf (s : State) : Instr → Option (Word × Word × Nat × Reg × Bool)
  | .gplace d a n => some (s.g a, s.g n, 1, d, false)
  | .gmove d a n => some (s.g a, s.g n, 2, d, true)
  | .gcut d a => some (s.g a, 0, 3, d, true)
  | .gfreeze d a => some (s.g a, 0, 4, d, true)
  | .gevict d a => some (s.g a, 0, 5, d, true)
  | .gresume d a => some (s.g a, 0, 6, d, true)
  | _ => none

/-- R353's codes in their order: a must-be-zero bit; the unit's two unrecorded commands; a handle of no group that lives, or of
another context's from a tile. -/
def commandAnswer (s : State) (h w : Word) (zeroRun : Bool) : Nat :=
  if field h 40 24 ≠ 0 ∨ field w 16 48 ≠ 0 ∨ field w 11 3 ≠ 0 ∨ (zeroRun = true ∧ field w 15 1 ≠ 0) then 1
  else if 2 ≤ s.unrecorded (fun t => t / 4 == s.cur / 4) then 2
  else match find s.groups h.toNat with
    | some g => if g.st = .retired ∨ (s.onCore = false ∧ g.ctx ≠ s.ctx) then 3 else 0
    | none => 3

/-- R209's table: the value a k register reads for the acting thread. -/
def kValue (s : State) : KReg → Word → Prop
  | .status, v => field v 0 2 = s.th.priv.toNat ∧ field v 2 2 = 0 ∧ field v 4 1 = b2n s.onCore ∧ field v 5 1 = b2n s.th.inTrap ∧
      field v 6 1 = b2n s.th.stopReq ∧ field v 7 1 = b2n s.th.scrub ∧ field v 8 56 = 0
  | .tid, v => s.cur < 16448 → s.ctx < 128 → field v 0 11 = placeOf s.cur ∧ field v 11 1 = (if s.onCore then 0 else unitOf s.cur) ∧
      field v 12 2 = s.cur % 4 ∧ field v 14 1 = 0 ∧ field v 15 1 = b2n s.onCore ∧ field v 16 7 = s.ctx ∧ field v 23 41 = 0
  | .cycle, v => v.toNat = s.fc % 2 ^ 64
  | .rxsb, v => v = s.th.rxsb
  | .tvec, v => v = s.th.tvec
  | .epc, v => v = s.th.epc
  | .ecause, v => v = s.th.ecause
  | .eval, v => v = s.th.eval
  | .ylim, v => v.toNat = s.ylim % 2 ^ 64
  | .snapint, v => v.toNat = if s.onCore then 0 else (s.context s.ctx).snapint.toNat
  | .faultq, v => v = if s.onCore then 0 else BitVec.ofNat 64 (b2n (s.context s.ctx).fq.badResp * 2 ^ 61 +
      b2n (s.context s.ctx).fq.host * 2 ^ 60 + (s.context s.ctx).fq.base + (s.context s.ctx).fq.log2n * 2 ^ 8 +
      (s.context s.ctx).fq.nch)
  | .govstall, v => v = if s.onCore then 0 else (s.tile (ptidOf s.cur)).govStall

/-- The least level that reads a k register, and the least that may name it in MTK (R209). -/
def kLevels : KReg → Nat × Nat
  | .status => (0, 0)
  | .tid => (0, 0)
  | .cycle => (0, 0)
  | .rxsb => (0, 0)
  | .tvec => (1, 1)
  | .epc => (1, 1)
  | .ecause => (1, 1)
  | .eval => (1, 1)
  | .ylim => (0, 2)
  | .snapint => (0, 2)
  | .faultq => (1, 1)
  | .govstall => (0, 0)

/-- EPRIV after a write of v to ECAUSE: kept where v's is 3, or 2 below H (R235). -/
def epriv (s : State) (v : Word) : Nat :=
  if field v 16 2 = 3 ∨ (field v 16 2 = 2 ∧ s.onCore = false) then field s.th.ecause 16 2 else field v 16 2

/-- What MTK of v leaves of a k register of the thread (R209, R235); the others are not the thread's own. -/
def kWritten (s : State) (v : Word) : KReg → Thread
  | .tvec => { s.th with tvec := v }
  | .epc => { s.th with epc := v }
  | .eval => { s.th with eval := v }
  | .ecause => { s.th with ecause := BitVec.ofNat 64 (epriv s v * 2 ^ 16 + field v 0 16) }
  | _ => s.th

/-- The instructions a control core does not run (R43). -/
def tileOnlyInstr : Instr → Prop
  | .sload .. => True
  | .sseed .. => True
  | .ssend .. => True
  | .srecv .. => True
  | .sdrain .. => True
  | .sbar => True
  | .egather .. => True
  | .ecoll .. => True
  | .binit .. => True
  | .barv .. => True
  | .bwait .. => True
  | .btest .. => True
  | .barvw .. => True
  | .bcst .. => True
  | .bcfence => True
  | _ => False

/-- The level an instruction needs (R37, R41, R207, R209): 0 U, 1 G, 2 H. -/
def levelOf : Instr → Nat
  | .gplace .. => 1
  | .gmove .. => 1
  | .gcut .. => 1
  | .gfreeze .. => 1
  | .gevict .. => 1
  | .gresume .. => 1
  | .tret => 1
  | .tlbinvStage1 .. => 1
  | .tlbsync => 1
  | .tlbinvStage2 .. => 2
  | .cxstat .. => 2
  | .cxquiesce .. => 2
  | .cxresume .. => 2
  | .mfk _ k => (kLevels k).1
  | .mtk _ k => (kLevels k).2
  | _ => 0

end Sys2Proof.Claims

/-- R353, R351: a group command of a thread above U completes with R353's code in g[d]; only with code 0 does it join its group's
commands, issued by G from a tile and by H from a control core; no other register changes. -/
def Sys2Proof.Claims.GroupCommands : Prop :=
  ∀ (s : State) (i : Instr) (h w : Word) (sub : Nat) (d : Reg) (z : Bool), commandOf s i = some (h, w, sub, d, z) → s.low = false →
    (commandAnswer s h w z ≠ 0 → gives i s d (BitVec.ofNat 64 (commandAnswer s h w z))) ∧
    (commandAnswer s h w z = 0 → ∃ t, exec i s = .next t ∧ t.g d = written d 0 ∧ regsKept s t d ∧ bytesKept s t ∧
      (t.group h.toNat).commands = (s.group h.toNat).commands ++
        [{ sub := sub, holder := if s.onCore then .hyper else .guest, word := w, thread := s.cur }])

/-- R353, R354: GPLACE, GMOVE, GCUT, GFREEZE, GEVICT and GRESUME complete in every state for a thread above U, whatever handle and
operand they are given, and GSTAT once the Pilot has recorded the thread's commands: each writes g[d], changes no other register and
no byte of memory, and goes on to the next instruction. -/
def Sys2Proof.Claims.GroupCommandsComplete : Prop :=
  ∀ (s : State) (d a n : Reg),
    (s.low = false →
      (∃ t, exec (.gplace d a n) s = .next t ∧ regsKept s t d ∧ bytesKept s t ∧
        t.g d = written d (BitVec.ofNat 64 (commandAnswer s (s.g a) (s.g n) false))) ∧
      (∃ t, exec (.gmove d a n) s = .next t ∧ regsKept s t d ∧ bytesKept s t ∧
        t.g d = written d (BitVec.ofNat 64 (commandAnswer s (s.g a) (s.g n) true))) ∧
      (∃ t, exec (.gcut d a) s = .next t ∧ regsKept s t d ∧ bytesKept s t ∧
        t.g d = written d (BitVec.ofNat 64 (commandAnswer s (s.g a) 0 true))) ∧
      (∃ t, exec (.gfreeze d a) s = .next t ∧ regsKept s t d ∧ bytesKept s t ∧
        t.g d = written d (BitVec.ofNat 64 (commandAnswer s (s.g a) 0 true))) ∧
      (∃ t, exec (.gevict d a) s = .next t ∧ regsKept s t d ∧ bytesKept s t ∧
        t.g d = written d (BitVec.ofNat 64 (commandAnswer s (s.g a) 0 true))) ∧
      (∃ t, exec (.gresume d a) s = .next t ∧ regsKept s t d ∧ bytesKept s t ∧
        t.g d = written d (BitVec.ofNat 64 (commandAnswer s (s.g a) 0 true)))) ∧
    (s.commandsRecorded s.cur = true → ∃ v, gives (.gstat d a) s d v)

/-- R354: GSTAT, once the Pilot has recorded the thread's commands, gives a group's status word by its fields; a handle that is
malformed, of an unbound queue or of another context's for a tile thread gives STATE 15 alone; a RETIRED group, listed or forgotten,
STATE 11. -/
def Sys2Proof.Claims.GroupStatus : Prop :=
  ∀ (s : State) (d a : Reg) (q : Nat), q = field (s.g a) 32 8 → s.commandsRecorded s.cur = true →
    ((field (s.g a) 40 24 ≠ 0 ∨ (s.queue q).bound = false ∨ (s.onCore = false ∧ (s.queue q).ctx ≠ s.ctx)) →
      gives (.gstat d a) s d 15) ∧
    (field (s.g a) 40 24 = 0 → (s.queue q).bound = true → (s.onCore = true ∨ (s.queue q).ctx = s.ctx) →
      find s.groups (s.g a).toNat = none →
      gives (.gstat d a) s d (if ((s.queue q).lseq.toNat + 2 ^ 32 - field (s.g a) 0 32) % 2 ^ 32 < 2 ^ 31 then 11 else 15)) ∧
    (∀ g, field (s.g a) 40 24 = 0 → (s.queue q).bound = true → (s.onCore = true ∨ (s.queue q).ctx = s.ctx) →
      find s.groups (s.g a).toNat = some g → (s.onCore = true ∨ g.ctx = s.ctx) →
      (g.st = .retired → gives (.gstat d a) s d 11) ∧
      (g.st ≠ .retired → g.origin < 2 ^ 11 → g.lcmd < 8 → g.lres < 256 → ∃ v, gives (.gstat d a) s d v ∧
        field v 0 4 = g.st.code ∧ field v 4 1 = b2n g.snapskip ∧ field v 5 11 = 0 ∧ field v 16 8 = g.lres ∧ field v 24 3 = g.lcmd ∧
        field v 27 1 = b2n g.overrun ∧ field v 28 1 = b2n g.straddle ∧ field v 29 11 = g.origin ∧
        field v 40 8 = g.snapep.toNat ∧ field v 48 16 = g.cpc.toNat))

/-- The group commands and the read of a group's status: what each does, and that each completes. -/
def Obligations.Groups : Prop :=
  Sys2Proof.Claims.GroupCommands ∧ Sys2Proof.Claims.GroupStatus ∧ Sys2Proof.Claims.GroupCommandsComplete

/-- R226, R238, R239, R214, R376: FENCE and TLBSYNC complete with no effect on a register or a byte; SYIELD completes, first applying a
pending scrub, and yields after itself on a stop request, once the unit's outbound streams have drained; SLEEP of 0 completes, of n keeps the thread waiting for Min(n, 2^32 - 1)
fc, and yields after itself on a stop request. -/
def Sys2Proof.Claims.FencesAndYields : Prop :=
  ∀ (s : State) (c : Scope) (a : Reg),
    (∃ t, exec (.fence c) s = .next t ∧ becomes s t (advanced s.th)) ∧
    (s.low = false → (∀ i ∈ s.invals, i.thread ≠ s.cur) → ∃ t, exec .tlbsync s = .next t ∧ gFrame s t 0) ∧
    (s.th.scrub = false → s.th.stopReq = false → ∃ t, exec .syield s = .next t ∧ gFrame s t 0) ∧
    (s.th.scrub = false → s.th.stopReq = true → ∃ t, exec .syield s = .next t ∧ onlyThreads s t ∧
      becomes s t (yielded s (advanced s.th))) ∧
    (s.th.scrub = true → ∃ t, exec .syield s = .next t ∧ onlyThreads s t ∧ t.th.scrub = false ∧
      (∀ r, t.g r = s.g r) ∧ (∀ r, t.c r = if (s.c r).tag && s.revoked s.ctx (s.c r) then { s.c r with tag := false } else s.c r) ∧
      t.th.st = (if s.th.stopReq = true then (yielded s s.th).st else .ready) ∧ t.pc = s.pc + 4 ∧ othersKept s t) ∧
    (s.th.stopReq = false → s.g a = 0 → ∃ t, exec (.sleep a) s = .next t ∧ gFrame s t 0) ∧
    (s.th.stopReq = false → s.g a ≠ 0 → s.th.st = .ready → ∃ t, exec (.sleep a) s = .next t ∧ bytesKept s t ∧ othersKept s t ∧
      t.th = { s.th with st := .waiting, wait := .sleep, waitSince := s.fc,
                         wakeAt := s.fc + min (s.g a).toNat (2 ^ 32 - 1) }) ∧
    (s.th.stopReq = true → ∃ t, exec (.sleep a) s = .next t ∧ onlyThreads s t ∧ becomes s t (yielded s (advanced s.th)))

/-- R278: LDISC with a bad length traps ENGARG, with a failing capability CAP, and has no effect; else every line of its range is
dealt with in turn and the thread goes on; through a capability the sweep has revoked it changes memory by no more than the reads of
the map do. A line that its slice does not hold for the context is not touched; of a clean one no byte changes; a dirty one is
dropped to its HBM contents by .discard, or marked by .lastuse with its bytes kept; one that its slice no longer holds was written back, or dropped if it was marked; no other byte changes. Whether a line is
still held is a free value (log 8). -/
def Sys2Proof.Claims.LineDiscards : Prop :=
  (∀ (s : State) (m : LdiscMode) (a : CReg) (n : Reg) (len : Nat), len = (s.g n).toNat →
    (len = 0 ∨ 2 ^ 24 < len ∨ len % 64 ≠ 0 → exec (.ldisc m a n) s = .next (s.trap 6 0 (s.g n))) ∧
    (len ≠ 0 → len ≤ 2 ^ 24 → len % 64 = 0 →
      (∀ f, s.accessFault (s.c a) (s.c a).lo len permStore 64 true = some f → capTraps (.ldisc m a n) s f (s.c a).lo) ∧
      (s.accessFault (s.c a) (s.c a).lo len permStore 64 true = none →
        (s.onCore = false → s.filtered s.ctx (s.c a) = true → ∃ t, exec (.ldisc m a n) s = .next t ∧
          t.mem = (s.filterReads s.ctx (stackOf s.cur) (State.portSource (s.helmPort s.cur) s.curGroup) (s.c a)).mem ∧
          t.cur = s.cur ∧ t.th = advanced s.th ∧ othersKept s t) ∧
        (s.onCore = true ∨ s.filtered s.ctx (s.c a) = false →
          ∀ s1, s.ldiscLines m (s.c a).lo (len / 64) = .ok s1 → ∃ t, exec (.ldisc m a n) s = .next t ∧ t.mem = s1.mem ∧
            t.cur = s.cur ∧ t.th = advanced s.th ∧ othersKept s t)))) ∧
  (∀ (s : State) (m : LdiscMode) (p : Phys) (j : Nat), s.memWf = true → j / 64 ≠ p.key / 64 →
    (∀ h, find s.mem.dirty (p.key / 64) = some h → h.bytes.length = 64) →
    getByte (s.ldiscLine p m).mem.cells j = getByte s.mem.cells j) ∧
  (∀ (s : State) (m : LdiscMode) (p : Phys), s.l2Holds p = false → s.ldiscLine p m = s) ∧
  (∀ (s : State) (m : LdiscMode) (p : Phys), find s.mem.dirty (p.key / 64) = none →
    (s.ldiscLine p m).mem.cells = s.mem.cells ∧ (s.ldiscLine p m).mem.tags = s.mem.tags) ∧
  (∀ (s : State) (m : LdiscMode) (p : Phys) (h : L2Line), find s.mem.dirty (p.key / 64) = some h → h.mark = false →
    Config.lineHeld (p.key / 64) s.fresh = false → (s.ldiscLine p m).mem.cells = s.mem.cells ∧
      (s.ldiscLine p m).mem.tags = s.mem.tags) ∧
  (∀ (s : State) (p : Phys) (h : L2Line), s.memWf = true → find s.mem.dirty (p.key / 64) = some h → h.bytes.length = 64 →
    s.l2Holds p = true →
    (h.mark = true → Config.lineHeld (p.key / 64) s.fresh = false → ∀ m,
      getBytes (s.ldiscLine p m).mem.cells (p.key / 64 * 64) 64 = h.bytes) ∧
    (Config.lineHeld (p.key / 64) s.fresh = true →
      getBytes (s.ldiscLine p .discard).mem.cells (p.key / 64 * 64) 64 = h.bytes ∧
      (s.ldiscLine p .lastuse).mem.cells = s.mem.cells ∧
      find (s.ldiscLine p .lastuse).mem.dirty (p.key / 64) = some { h with mark := true }))

/-- R375: TLBINV names the operand's context on a control core and its own elsewhere; with the context EMPTY it has no effect, else a
broadcast of its stage, ALL and PAGE waits for every translator of the context; no register changes. -/
def Sys2Proof.Claims.TranslationInvalidations : Prop :=
  ∀ (s : State) (i : Instr) (a : Reg) (st2 : Bool) (x : Nat),
    (i = .tlbinvStage1 a ∧ st2 = false ∧ s.low = false ∨ i = .tlbinvStage2 a ∧ st2 = true ∧ s.onCore = true ∧ 2 ≤ s.th.priv.toNat) →
    x = (if s.onCore then field (s.g a) 0 7 else s.ctx) →
    ((s.context x).st = 0 → ∃ t, exec i s = .next t ∧ gFrame s t 0) ∧
    ((s.context x).st ≠ 0 → ∃ t, exec i s = .next t ∧ becomes s t (advanced s.th) ∧
      t.invals = s.invals ++ [{ id := s.ids, thread := s.cur, ctx := x, st2 := st2, all := decide (field (s.g a) 11 1 = 1),
                                page := field (s.g a) 12 45, waiting := s.translators x }])

/-- Fences, yields, line discards and translation invalidations. -/
def Obligations.Fences : Prop := Sys2Proof.Claims.FencesAndYields ∧ Sys2Proof.Claims.LineDiscards ∧ Sys2Proof.Claims.TranslationInvalidations

/-- R240, R209, R235: MFK at or above a register's read level gives its value; MTK at or above its write level writes it, keeping
EPRIV of ECAUSE where R235 discards the write, YLIM only within its range, and discards the write of a register with no write level;
nothing else changes. -/
def Obligations.SpecialRegisters : Prop :=
  ∀ (s : State) (d : Reg) (k : KReg),
    ((kLevels k).1 ≤ s.th.priv.toNat → ∃ v, kValue s k v ∧ gives (.mfk d k) s d v) ∧
    ((kLevels k).2 ≤ s.th.priv.toNat → k ≠ .faultq →
      ∃ t, exec (.mtk d k) s = .next t ∧ becomes s t (advanced (kWritten s (s.g d) k)) ∧
        t.ylim = (if k = .ylim ∧ 1000 ≤ (s.g d).toNat ∧ (s.g d).toNat < 2 ^ 32 then (s.g d).toNat else s.ylim) ∧
        { t with threads := s.threads, ylim := s.ylim } = s) ∧
    ((kLevels .faultq).2 ≤ s.th.priv.toNat → s.onCore = true → ∃ t, exec (.mtk d .faultq) s = .next t ∧ gFrame s t 0) ∧
    ((kLevels .faultq).2 ≤ s.th.priv.toNat → s.onCore = false →
      exec (.mtk d .faultq) s = .next (s.writeFaultq s.ctx (s.g d)).advance)

/-- R310, R311, R300: at H on a control core CXSTAT gives a context's status by its fields, 15 for a number out of range; CXQUIESCE takes a
MEASURED or ACTIVE context to QUIESCING and CXRESUME a FROZEN one to ACTIVE, each with 0 in g[d], with 2 in any other state and 1 for
a number out of range and then nothing else changes. -/
def Obligations.ContextCommands : Prop :=
  ∀ (s : State) (d a : Reg) (x : Nat), s.onCore = true → 2 ≤ s.th.priv.toNat → x = (s.g a).toNat →
    (128 ≤ x → gives (.cxstat d a) s d 15 ∧ gives (.cxquiesce d a) s d 1 ∧ gives (.cxresume d a) s d 1) ∧
    (x < 128 →
      ((s.context x).st < 16 → (s.context x).part < 32 → ((s.context x).iface.getD 0) < 64 → (s.ownedTiles x).length < 1024 →
        ∃ v, gives (.cxstat d a) s d v ∧ field v 0 4 = (s.context x).st ∧ field v 4 3 = 0 ∧
          field v 7 1 = b2n (s.context x).drainLate ∧ field v 14 1 = b2n (s.context x).iface.isSome ∧
          field v 15 6 = (s.context x).iface.getD 0 ∧ field v 21 5 = (s.context x).part ∧
          field v 26 8 = min (s.placedGroups x).length 255 ∧ field v 34 10 = (s.ownedTiles x).length) ∧
      ((s.context x).st = 2 ∨ (s.context x).st = 3 → ∃ t, exec (.cxquiesce d a) s = .next t ∧ t.g d = written d 0 ∧
        regsKept s t d ∧ bytesKept s t ∧ (t.context x).st = 4 ∧ ∀ y, y ≠ x → t.context y = s.context y) ∧
      ((s.context x).st ≠ 2 → (s.context x).st ≠ 3 → gives (.cxquiesce d a) s d 2) ∧
      ((s.context x).st = 5 → ∃ t, exec (.cxresume d a) s = .next t ∧ t.g d = written d 0 ∧ regsKept s t d ∧ bytesKept s t ∧
        (t.context x).st = 3 ∧ ∀ y, y ≠ x → t.context y = s.context y) ∧
      ((s.context x).st ≠ 5 → gives (.cxresume d a) s d 2))

/-- R236: TakeTrap of a thread in its handler, or with a null trap-entry capability, makes it TRAPPED; else it saves pcc, the address,
the value and the cause with the level, raises the level to G, or H on a control core, sets INTRAP and goes to the entry capability's
base plus TVEC; no other register of any thread and no byte changes. -/
def Obligations.TrapEntry : Prop :=
  ∀ (s : State) (t cause detail : Nat) (val addr : Word) (x : Thread) (te : Cap), x = s.thread t → cause < 256 → detail < 256 →
    te = (if isCore t then s.fwEntry else (s.context (s.ctxOf t)).tecap) →
    (x.inTrap = true ∨ te = {} → ((s.takeTrapOf t cause detail val addr).thread t) =
        { x with st := .trapped, wait := .none, savedAt := addr, pageAbort := none, instr := none }) ∧
    (x.inTrap = false → te ≠ {} → onlyThreads s (s.takeTrapOf t cause detail val addr) ∧
      (s.takeTrapOf t cause detail val addr).thread t =
        { x with epcc := x.pcc, epc := addr, eval := val,
                 ecause := BitVec.ofNat 64 (x.priv.toNat * 2 ^ 16 + detail * 2 ^ 8 + cause),
                 priv := if isCore t then 2 else 1, inTrap := true, pcc := te.setAddr (BitVec.ofNat 64 te.base + x.tvec),
                 st := .ready, wait := .none, arrived := false, pageAbort := none, instr := none }) ∧
    (∀ k, k ≠ t → (s.takeTrapOf t cause detail val addr).thread k = s.thread k) ∧
    bytesKept s (s.takeTrapOf t cause detail val addr)

/-- R237, R212, R214: TRAP 0 halts the thread, or yields at itself on a stop request, once the unit's streams have drained; TRAP of another code traps SOFT, detail the code,
saving the next instruction's address; TRET above U, in a handler, restores pcc at EPC and the saved level and clears INTRAP; with
INTRAP 0 it is illegal, and at U it traps PRIVILEGE. -/
def Obligations.TrapsAndReturns : Prop :=
  ∀ (s : State),
    (s.th.stopReq = false → ∃ t, exec (.trap 0) s = .next t ∧ becomes s t { s.th with st := .halted } ∧
      { t with threads := s.threads, groups := s.groups } = s ∧
      ∀ h, t.group h = { s.group h with haltAt := (t.group h).haltAt }) ∧
    (s.th.stopReq = true → ∃ t, exec (.trap 0) s = .next t ∧ onlyThreads s t ∧ becomes s t (yielded s s.th)) ∧
    (∀ c : BitVec 8, c ≠ 0 → exec (.trap c) s = .next (s.takeTrapOf s.cur 0x10 c.toNat 0 (s.pc + 4))) ∧
    (s.low = false → s.th.inTrap = true → ∃ t, exec .tret s = .next t ∧ onlyThreads s t ∧
      becomes s t { s.th with pcc := s.th.epcc.setAddr s.th.epc, priv := BitVec.ofNat 2 (field s.th.ecause 16 2), inTrap := false,
                              st := .ready, wait := .none }) ∧
    (s.low = false → s.th.inTrap = false → exec .tret s = .next (s.trap 1 0 0xA0000400)) ∧
    (s.low = true → exec .tret s = .next (s.trap 2 0 0xA0000400))

/-- R43, R207: on a control core a stream, barrier, gather, collective or broadcast instruction traps ILLEGAL_OP with its word as
EVAL; elsewhere an instruction above the thread's level traps PRIVILEGE with its word as EVAL. Neither has another effect. -/
def Obligations.IllegalAndPrivileged : Prop :=
  ∀ (s : State) (i : Instr) (w : Nat), encodeHelm i = some w →
    (s.onCore = true → tileOnlyInstr i → exec i s = .next (s.trap 1 0 (BitVec.ofNat 64 w))) ∧
    (s.th.priv.toNat < levelOf i → exec i s = .next (s.trap 2 0 (BitVec.ofNat 64 w)))

/-! ## Word elements that fire in their region (R100, R101, R107-R126) -/

namespace Sys2Proof.Claims
open Sys2Proof Sys2Proof.Machine

/-- A region-timed word operation: its code, its word's fields, the ports it reads and its latency (R110). -/
structure Firing where
  op : Nat
  args : ElemArgs
  ports : List Nat
  lat : Nat

/-- R110's table of the region-timed word operations, and const (R139). -/
def firingOf : Instr → Option Firing
  | .elMov a => some ⟨0x00, a, [0], 1⟩
  | .elAdd a => some ⟨0x01, a, [0, 1], 1⟩
  | .elSub a => some ⟨0x02, a, [0, 1], 1⟩
  | .elMul a => some ⟨0x03, a, [0, 1], 3⟩
  | .elMulhi a => some ⟨0x04, a, [0, 1], 3⟩
  | .elDiv a => some ⟨0x05, a, [0, 1], 18⟩
  | .elRem a => some ⟨0x06, a, [0, 1], 18⟩
  | .elNeg a => some ⟨0x07, a, [0], 1⟩
  | .elAbs a => some ⟨0x08, a, [0], 1⟩
  | .elMin a => some ⟨0x09, a, [0, 1], 1⟩
  | .elMax a => some ⟨0x0A, a, [0, 1], 1⟩
  | .elAdds a => some ⟨0x0B, a, [0, 1], 1⟩
  | .elSubs a => some ⟨0x0C, a, [0, 1], 1⟩
  | .elAbsd a => some ⟨0x0D, a, [0, 1], 1⟩
  | .elMad a => some ⟨0x0E, a, [0, 1, 2], 3⟩
  | .elClamp a => some ⟨0x0F, a, [0, 1, 2], 1⟩
  | .elFma a => some ⟨0x10, a, [0, 1, 2], 4⟩
  | .elFadd a => some ⟨0x11, a, [0, 1], 4⟩
  | .elFsub a => some ⟨0x12, a, [0, 1], 4⟩
  | .elFmul a => some ⟨0x13, a, [0, 1], 4⟩
  | .elFdiv a => some ⟨0x14, a, [0, 1], 14⟩
  | .elFsqrt a => some ⟨0x15, a, [0], 14⟩
  | .elFmin a => some ⟨0x16, a, [0, 1], 1⟩
  | .elFmax a => some ⟨0x17, a, [0, 1], 1⟩
  | .elFneg a => some ⟨0x18, a, [0], 1⟩
  | .elFabs a => some ⟨0x19, a, [0], 1⟩
  | .elFrcp a => some ⟨0x1A, a, [0], 10⟩
  | .elFrsqrt a => some ⟨0x1B, a, [0], 10⟩
  | .elFexp2 a => some ⟨0x1C, a, [0], 16⟩
  | .elFlog2 a => some ⟨0x1D, a, [0], 16⟩
  | .elFsinpi a => some ⟨0x1E, a, [0], 16⟩
  | .elFcospi a => some ⟨0x1F, a, [0], 16⟩
  | .elCmpeq a => some ⟨0x20, a, [0, 1], 1⟩
  | .elCmpne a => some ⟨0x21, a, [0, 1], 1⟩
  | .elCmplt a => some ⟨0x22, a, [0, 1], 1⟩
  | .elCmple a => some ⟨0x23, a, [0, 1], 1⟩
  | .elCmpun a => some ⟨0x24, a, [0, 1], 1⟩
  | .elSel a => some ⟨0x25, a, [0, 1, 3], 1⟩
  | .elClass a => some ⟨0x26, a, [0], 1⟩
  | .elAnd a => some ⟨0x28, a, [0, 1], 1⟩
  | .elOr a => some ⟨0x29, a, [0, 1], 1⟩
  | .elXor a => some ⟨0x2A, a, [0, 1], 1⟩
  | .elNot a => some ⟨0x2B, a, [0], 1⟩
  | .elShl a => some ⟨0x2C, a, [0, 1], 1⟩
  | .elShr a => some ⟨0x2D, a, [0, 1], 1⟩
  | .elSar a => some ⟨0x2E, a, [0, 1], 1⟩
  | .elRol a => some ⟨0x2F, a, [0, 1], 1⟩
  | .elClz a => some ⟨0x30, a, [0], 1⟩
  | .elCtz a => some ⟨0x31, a, [0], 1⟩
  | .elPopc a => some ⟨0x32, a, [0], 1⟩
  | .elBilv a => some ⟨0x33, a, [0, 1], 1⟩
  | .elBdlv a => some ⟨0x34, a, [0], 1⟩
  | .elBrev a => some ⟨0x35, a, [0], 1⟩
  | .elBfx a => some ⟨0x36, a, [0], 1⟩
  | .elBfi a => some ⟨0x37, a, [0, 1], 1⟩
  | .elCvt a => some ⟨0x38, a, [0], 2⟩
  | .elCvts a => some ⟨0x39, a, [0], 2⟩
  | .elPack a => some ⟨0x3A, a, [0, 1], 2⟩
  | .elUnpack a => some ⟨0x3B, a, [0], 2⟩
  | .elBcast a => some ⟨0x3E, a, [0], 1⟩
  | .elDot a => some ⟨0x40, a, [0, 1], 3⟩
  | .elDott a => some ⟨0x42, a, [0, 1], 3⟩
  | _ => none

/-- The ports of a firing that a slot reads: those SRC does not replace by a constant (R106, R107). -/
def Firing.used (f : Firing) (x : Slot) : List Nat := f.ports.filter fun o => x.src o = 0

/-- Operand k's beat of port o: the port's beat k, or the constant SRC names (R107, R109). -/
def operand (x : Slot) (o k : Nat) : Beat :=
  if x.src o = 0 then ((x.port o).getD k {}).beat else { data := x.const (x.src o - 1) }

/-- The acting slot bears the operation's word and may fire (R101): it is live, no configuration word stands at a port, every
port it reads has a beat for each copy, its result queue has room. -/
def canFire (s : State) (f : Firing) : Prop :=
  (s.el.st = .armed ∨ s.el.st = .gated) ∧ s.el.held = false ∧ s.el.word = BitVec.ofNat 32 (f.op * 2 ^ 24 + f.args.bits) ∧
  (∀ o < 4, ((s.el.port o).headD {}).beat.cfg = false) ∧ State.hasRoom s.el f.lat = true ∧
  ∀ o ∈ f.used s.el, s.el.copies ≤ (avail (s.el.port o)).length ∧ ∀ k < s.el.copies, ((s.el.port o).getD k {}).beat.cfg = false

/-- Of the groups, that of the acting tile alone may differ, in its error counter, its actors' counters and the fc of its last
move. -/
def groupsKept (s t : State) : Prop :=
  ∀ h, ∃ e r l a, t.group h = { s.group h with gerr := e, errRaised := r, lastMove := l, actors := a } ∧
    (h ≠ s.handleOf s.curTile → t.group h = s.group h)

/-- Nothing of the machine differs but the tiles and what `groupsKept` names; records may have been raised and events have been
posted. -/
def nothingElse (s t : State) : Prop :=
  groupsKept s t ∧ s.agenda <+: t.agenda ∧ s.raised <+: t.raised ∧
  { t with tiles := s.tiles, groups := s.groups, agenda := s.agenda, raised := s.raised, ids := s.ids } = s

/-- Nothing differs but one slot and what `groupsKept` and `nothingElse` name. -/
def onlyHere (s t : State) : Prop :=
  (∀ p n, p ≠ s.curTile ∨ n ≠ s.curSlot → t.slot p n = s.slot p n) ∧
  (∀ p, { t.tile p with slots := [] } = { s.tile p with slots := [] }) ∧ nothingElse s t

/-- A result issued for a consumer. -/
def issued (dest : BitVec 9) (due : Nat) (b : Beat) : List Issued := if dest = 0x1FF then [] else [{ due, dest, beat := b }]

/-- A firing as R100, R101 and R109 give it: every port it read has lost a beat for each copy, and the copies' results stand in
the pipeline in order, for CX and then CY, to emerge after the latency; nothing else of the slot differs but its generators. -/
def fired (s t : State) (f : Firing) (bx cy : Nat → Beat) : Prop :=
  onlyHere s t ∧
  (∀ o < 4, t.el.port o = if o ∈ f.used s.el then (s.el.port o).drop s.el.copies else s.el.port o) ∧
  t.el.pipe = s.el.pipe ++ (List.range s.el.copies).flatMap (fun k =>
    issued s.el.cx (s.fc + f.lat) (bx k) ++ issued s.el.cy (s.fc + f.lat) (cy k)) ∧
  { t.el with portA := s.el.portA, portB := s.el.portB, portC := s.el.portC, portP := s.el.portP, pipe := s.el.pipe,
              gens := s.el.gens } = s.el

/-- The operand beats of copy k are ordinary: none poisoned, none a LOOPEND. -/
def ordinary (x : Slot) (f : Firing) (k : Nat) : Prop :=
  ∀ o ∈ f.ports, (operand x o k).poi = false ∧ (operand x o k).kind ≠ .loopend

/-- The KIND of a result (R111): the first read port's beat's, DATA for a capability beat or where every operand is a
constant. -/
def framing (x : Slot) (f : Firing) (k : Nat) : Kind :=
  match f.used x with
  | [] => .data
  | o :: _ => match (operand x o k).kind with
    | .caplo => .data
    | .caphi => .data
    | q => q

/-- FLAGOUT is set (R108). -/
def flagOut (x : Slot) : Bool := x.param 0x14 0 == 1

/-- What the results of copy k are where the operation gives vx to CX, vy to CY and the flag word fl (R108, R111). -/
def sends (x : Slot) (f : Firing) (k : Nat) (bx cy : Beat) (vx vy fl : Nat) : Prop :=
  bx = { data := BitVec.ofNat 64 vx, kind := framing x f k } ∧
  cy = if flagOut x then { data := BitVec.ofNat 64 fl } else { data := BitVec.ofNat 64 vy, kind := framing x f k }

/-- The generator of a copy after n roundings: it steps once for each in mode SR and for none in another (R89). -/
def stepped (x : Slot) (n : Nat) (g : BitVec 32) : BitVec 32 := if x.round = .sr then stepGen^[n] g else g

/-- What a computation answers: the values for CX and CY, the flag word, and how often it rounds. -/
structure Reply where
  vx : Nat
  vy : Nat
  fl : Nat
  rounds : Nat

/-- An instruction fires: from a state in which it can, with ordinary operands, it completes, and every copy's results satisfy P
over the formats, the copy's generator and the operands' data; its generator has stepped once for each rounding. -/
def fires (P : Env → BitVec 32 → List Nat → Reply → Prop) (i : Instr) (s : State) : Prop :=
  ∀ f, firingOf i = some f → canFire s f → (∀ k < s.el.copies, ordinary s.el f k) →
    ∃ t bx cy, exec i s = .next t ∧ fired s t f bx cy ∧ ∀ k < s.el.copies, ∃ q : Reply,
      sends s.el f k (bx k) (cy k) q.vx q.vy q.fl ∧ t.el.gen k = stepped s.el q.rounds (s.el.gen k) ∧
      P ((s.tile s.curTile).env s.el) (s.el.gen k) (f.ports.map fun o => (operand s.el o k).data.toNat) q

/-- Lane j of v, of width w (R74). -/
def lane (w v j : Nat) : Nat := v / 2 ^ (w * j) % 2 ^ w

/-- Each result lane satisfies R over the operands' lanes, with bit j of the flag word as lane j's flag; both consumers take the
same value and nothing rounds. -/
def byLane (R : Fmt → List Nat → Nat → Bool → Prop) : Env → BitVec 32 → List Nat → Reply → Prop := fun e _ v q =>
  q.vx = q.vy ∧ q.vx < 2 ^ 64 ∧ q.fl < 2 ^ (64 / e.fmt.w) ∧ q.rounds = 0 ∧
  ∀ j < 64 / e.fmt.w, R e.fmt (v.map fun d => lane e.fmt.w d j) (lane e.fmt.w q.vx j) (q.fl.testBit j)

/-- A lane read as an integer of its format (R112). -/
def intOf (m : Fmt) (p : Nat) : Int := if m.signed = true ∧ 2 ^ (m.w - 1) ≤ p then (p : Int) - 2 ^ m.w else p

/-- The least and the greatest integer of a format. -/
def bottom (m : Fmt) : Int := if m.signed then -2 ^ (m.w - 1) else 0
/-- The greatest. -/
def ceiling (m : Fmt) : Int := if m.signed then 2 ^ (m.w - 1) - 1 else 2 ^ m.w - 1

/-- Integer x modulo 2^w as a lane, no flag (R112, R113). -/
def wraps (m : Fmt) (x : Int) (r : Nat) (fl : Bool) : Prop := (r : Int) = x % 2 ^ m.w ∧ fl = false

/-- Integer x clamped to the format, with the flag that tells so (R112, R113). -/
def clamps (m : Fmt) (x : Int) (r : Nat) (fl : Bool) : Prop :=
  intOf m r = max (bottom m) (min (ceiling m) x) ∧ (fl = true ↔ x < bottom m ∨ ceiling m < x)

/-- Operand i of a lane, as an integer. -/
def at_ (m : Fmt) (v : List Nat) (i : Nat) : Int := intOf m (v.getD i 0)

/-- R113, R114: what each integer operation's result lane and flag are. -/
def integerLane : Instr → Option (Fmt → List Nat → Nat → Bool → Prop)
  | .elAdd _ => some fun m v => wraps m (at_ m v 0 + at_ m v 1)
  | .elSub _ => some fun m v => wraps m (at_ m v 0 - at_ m v 1)
  | .elMul _ => some fun m v => wraps m (at_ m v 0 * at_ m v 1)
  | .elMulhi _ => some fun m v => wraps m (at_ m v 0 * at_ m v 1 / 2 ^ m.w)
  | .elDiv _ => some fun m v r fl =>
      (r : Int) = (if at_ m v 1 = 0 then 2 ^ m.w - 1
        else if m.signed = true ∧ at_ m v 0 = bottom m ∧ at_ m v 1 = -1 then bottom m
        else Int.tdiv (at_ m v 0) (at_ m v 1)) % 2 ^ m.w ∧
      (fl = true ↔ at_ m v 1 = 0 ∨ (m.signed = true ∧ at_ m v 0 = bottom m ∧ at_ m v 1 = -1))
  | .elRem _ => some fun m v r fl =>
      (r : Int) = (if at_ m v 1 = 0 then at_ m v 0
        else if m.signed = true ∧ at_ m v 0 = bottom m ∧ at_ m v 1 = -1 then 0
        else Int.tmod (at_ m v 0) (at_ m v 1)) % 2 ^ m.w ∧
      (fl = true ↔ at_ m v 1 = 0 ∨ (m.signed = true ∧ at_ m v 0 = bottom m ∧ at_ m v 1 = -1))
  | .elNeg _ => some fun m v => wraps m (-at_ m v 0)
  | .elAbs _ => some fun m v => wraps m |at_ m v 0|
  | .elMin _ => some fun m v => wraps m (min (at_ m v 0) (at_ m v 1))
  | .elMax _ => some fun m v => wraps m (max (at_ m v 0) (at_ m v 1))
  | .elAdds _ => some fun m v => clamps m (at_ m v 0 + at_ m v 1)
  | .elSubs _ => some fun m v => clamps m (at_ m v 0 - at_ m v 1)
  | .elAbsd _ => some fun m v => wraps m |at_ m v 0 - at_ m v 1|
  | .elMad _ => some fun m v => wraps m (at_ m v 0 * at_ m v 1 + at_ m v 2)
  | .elClamp _ => some fun m v => wraps m (min (max (at_ m v 0) (at_ m v 1)) (at_ m v 2))
  | _ => none

/-- Bits of a lane by index. -/
def bitsAre (w r : Nat) (f : Nat → Bool) (fl : Bool) : Prop := (∀ j < w, r.testBit j = f j) ∧ fl = false

/-- The shift amount: the operand lane modulo its width (R120). -/
def amount (m : Fmt) (v : List Nat) : Nat := v.getD 1 0 % m.w

/-- BF's pos and len - 1 (R106). -/
def bfPos (x : Slot) : Nat := x.param 0x13 0 / 64
/-- len - 1. -/
def bfLen (x : Slot) : Nat := x.param 0x13 0 % 64

/-- The formats R110 admits for an operation: sel also takes the floating ones. -/
def bitFormat (m : Fmt) : Instr → Prop
  | .elSel _ => m.kind = .int ∨ m.kind = .bits ∨ m.kind = .float ∨ m.kind = .e
  | _ => m.kind = .int ∨ m.kind = .bits

/-- The field of bfx and bfi lies within the lane (R106). -/
def fieldFits (x : Slot) (m : Fmt) : Instr → Prop
  | .elBfx _ => bfPos x + bfLen x < m.w
  | .elBfi _ => bfPos x + bfLen x < m.w
  | _ => True

/-- R118, R120, R121: the bit operations by lane; x is the slot, for the field of bfx and bfi. -/
def bitLane (x : Slot) : Instr → Option (Fmt → List Nat → Nat → Bool → Prop)
  | .elSel _ => some fun m v r fl => r = (if v.getD 2 0 = 0 then v.getD 1 0 else v.getD 0 0) % 2 ^ m.w ∧ fl = false
  | .elShl _ => some fun m v r fl => r = v.getD 0 0 * 2 ^ amount m v % 2 ^ m.w ∧ fl = false
  | .elShr _ => some fun m v r fl => r = v.getD 0 0 / 2 ^ amount m v ∧ fl = false
  | .elSar _ => some fun m v r => bitsAre m.w r fun j =>
      if j + amount m v < m.w then (v.getD 0 0).testBit (j + amount m v) else (v.getD 0 0).testBit (m.w - 1)
  | .elRol _ => some fun m v r => bitsAre m.w r fun j => (v.getD 0 0).testBit ((j + m.w - amount m v) % m.w)
  | .elClz _ => some fun m v r fl => r ≤ m.w ∧ (∀ j < m.w, m.w ≤ j + r → (v.getD 0 0).testBit j = false) ∧
      (r < m.w → (v.getD 0 0).testBit (m.w - 1 - r) = true) ∧ fl = false
  | .elCtz _ => some fun m v r fl => r ≤ m.w ∧ (∀ j < r, (v.getD 0 0).testBit j = false) ∧
      (r < m.w → (v.getD 0 0).testBit r = true) ∧ fl = false
  | .elPopc _ => some fun m v r fl => r = ((List.range m.w).filter fun j => (v.getD 0 0).testBit j).length ∧ fl = false
  | .elBilv _ => some fun m v r => bitsAre m.w r fun j =>
      if j % 2 = 0 then (v.getD 0 0).testBit (j / 2) else (v.getD 1 0).testBit (j / 2)
  | .elBdlv _ => some fun m v r => bitsAre m.w r fun j =>
      if j < m.w / 2 then (v.getD 0 0).testBit (2 * j) else (v.getD 0 0).testBit (2 * (j - m.w / 2) + 1)
  | .elBrev _ => some fun m v r => bitsAre m.w r fun j => (v.getD 0 0).testBit (m.w - 1 - j)
  | .elBfx _ => some fun m v r => bitsAre m.w r fun j =>
      if j ≤ bfLen x then (v.getD 0 0).testBit (bfPos x + j)
      else m.signed && (v.getD 0 0).testBit (bfPos x + bfLen x)
  | .elBfi _ => some fun m v r => bitsAre m.w r fun j =>
      if bfPos x ≤ j ∧ j ≤ bfPos x + bfLen x then (v.getD 1 0).testBit (j - bfPos x) else (v.getD 0 0).testBit j
  | _ => none

/-- mov, and, or, xor, not: the whole beat, with no flag (R113, R120). -/
def wholeOf : Instr → Option (List Nat → Nat)
  | .elMov _ => some fun v => v.getD 0 0
  | .elAnd _ => some fun v => v.getD 0 0 &&& v.getD 1 0
  | .elOr _ => some fun v => v.getD 0 0 ||| v.getD 1 0
  | .elXor _ => some fun v => v.getD 0 0 ^^^ v.getD 1 0
  | .elNot _ => some fun v => 2 ^ 64 - 1 - v.getD 0 0
  | _ => none

end Sys2Proof.Claims

/-- R113, R114, R110: an integer element operation that can fire, in an integer format, takes its operands and issues, after its
latency, the result of every lane, with the lanes' flags to CY under FLAGOUT. -/
def Obligations.ElementIntegers : Prop :=
  ∀ (s : State) (i : Instr) (R : Fmt → List Nat → Nat → Bool → Prop), integerLane i = some R →
    ((s.tile s.curTile).fmt s.el.fsel).kind = .int → fires (byLane R) i s

/-- R120, R121, R118, R113: mov, the logic operations on whole beats, and sel, the shifts and the bit operations by lane, fire
likewise; the field of bfx and bfi lies within the lane. -/
def Obligations.ElementBits : Prop :=
  ∀ (s : State) (i : Instr),
    (∀ g, wholeOf i = some g → fires (fun _ _ v q => q = { vx := g v, vy := g v, fl := 0, rounds := 0 }) i s) ∧
    (∀ R, bitLane s.el i = some R → bitFormat ((s.tile s.curTile).fmt s.el.fsel) i →
      fieldFits s.el ((s.tile s.curTile).fmt s.el.fsel) i → fires (byLane R) i s)

/-! ## Floating-point elements and conversions (R76-R78, R87-R90, R115-R119, R122-R126, R139) -/

namespace Sys2Proof.Claims
open Sys2Proof Sys2Proof.Machine

/-- A value of a floating format: NaN, an infinity, a signed zero, or a nonzero real. -/
inductive Val where
  | nan
  | inf (neg : Bool)
  | zero (neg : Bool)
  | real (q : ℚ)

/-- What the code of a format stands for. -/
def Val.of : FVal → Val
  | .nan _ => .nan
  | .inf n => .inf n
  | .zero n => .zero n
  | .fin z k => .real ((z : ℚ) * (2 : ℚ) ^ k)

/-- What an exact value stands for. -/
def Val.ofExact : Exact → Val
  | .nan => .nan
  | .inf n => .inf n
  | .zero n => .zero n
  | .dyadic z k => .real ((z : ℚ) * (2 : ℚ) ^ k)
  | .quot neg n d => .real ((if neg then -1 else 1) * (n : ℚ) / d)

/-- The sign of a value. -/
def Val.neg : Val → Bool
  | .nan => false
  | .inf n => n
  | .zero n => n
  | .real q => decide (q < 0)

/-- A nonzero real, or the zero of the given sign. -/
def Val.realOr (sign : Bool) (q : ℚ) : Val := if q = 0 then .zero sign else .real q

/-- a + b with R77's zeros: an exact zero sum of other than like-signed zeros is +0, in mode NI -0. -/
def Val.add (mode : RMode) : Val → Val → Val
  | .nan, _ => .nan
  | _, .nan => .nan
  | .inf x, .inf y => if x = y then .inf x else .nan
  | .inf x, _ => .inf x
  | _, .inf y => .inf y
  | .zero x, .zero y => if x = y then .zero x else .zero (decide (mode = .ni))
  | .zero _, .real q => .real q
  | .real q, .zero _ => .real q
  | .real p, .real q => Val.realOr (decide (mode = .ni)) (p + q)

/-- a times b (R77, R115). -/
def Val.mul : Val → Val → Val
  | .nan, _ => .nan
  | _, .nan => .nan
  | .inf _, .zero _ => .nan
  | .zero _, .inf _ => .nan
  | .inf x, b => .inf (x != b.neg)
  | a, .inf y => .inf (a.neg != y)
  | .real p, .real q => .real (p * q)
  | a, b => .zero (a.neg != b.neg)

/-- a / b (R115). -/
def Val.div : Val → Val → Val
  | .nan, _ => .nan
  | _, .nan => .nan
  | .inf _, .inf _ => .nan
  | .zero _, .zero _ => .nan
  | .inf x, b => .inf (x != b.neg)
  | a, .inf y => .zero (a.neg != y)
  | a, .zero y => .inf (a.neg != y)
  | .zero x, b => .zero (x != b.neg)
  | .real p, .real q => .real (p / q)

/-- A value with its sign flipped. -/
def Val.minus : Val → Val
  | .nan => .nan
  | .inf n => .inf !n
  | .zero n => .zero !n
  | .real q => .real (-q)

/-- The place of a value in the order of R118, where both zeros are equal; none for NaN. -/
def Val.place : Val → Option (ℤ × ℚ)
  | .nan => none
  | .inf n => some (if n then -1 else 1, 0)
  | .zero _ => some (0, 0)
  | .real q => some (0, q)

/-- a is less than b. -/
def Val.less (a b : Val) : Prop := ∃ x y, a.place = some x ∧ b.place = some y ∧ (x.1 < y.1 ∨ x.1 = y.1 ∧ x.2 < y.2)

/-- Operand i of a lane as a value, under DAZ (R78). -/
def valAt (m : Fmt) (v : List Nat) (i : Nat) : Val := Val.of (m.fl.decode m.b.daz (v.getD i 0))

/-- R115, R117: what the arithmetic operations round: the exact value over the operands' values. -/
def exactOf (mode : RMode) : Instr → Option (Fmt → List Nat → Val)
  | .elFma _ => some fun m v => Val.add mode (Val.mul (valAt m v 0) (valAt m v 1)) (valAt m v 2)
  | .elFadd _ => some fun m v => Val.add mode (valAt m v 0) (valAt m v 1)
  | .elFsub _ => some fun m v => Val.add mode (valAt m v 0) (valAt m v 1).minus
  | .elFmul _ => some fun m v => Val.mul (valAt m v 0) (valAt m v 1)
  | .elFdiv _ => some fun m v => Val.div (valAt m v 0) (valAt m v 1)
  | .elFrcp _ => some fun m v => Val.div (.real 1) (valAt m v 0)
  | _ => none

/-- The roots and the functions of R117, by the model's own exact values (log 6). -/
def functionOf : Instr → Option (FVal → Exact)
  | .elFsqrt _ => some FVal.sqrt
  | .elFrsqrt _ => some FVal.rsqrt
  | .elFexp2 _ => some FVal.exp2
  | .elFlog2 _ => some FVal.log2
  | .elFsinpi _ => some FVal.sinpi
  | .elFcospi _ => some FVal.cospi
  | _ => none

/-- What mode SR adds for the j-th result of a beat (R89). -/
def drawn (x : Slot) (g : BitVec 32) (j : Nat) : Nat := (stepped x (j + 1) g).toNat

/-- Every lane is Round of its exact value in the element's mode; every result steps the generator once in mode SR. -/
def rounded (R : Fmt → List Nat → Exact → Prop) : Env → BitVec 32 → List Nat → Reply → Prop := fun e g v q =>
  q.vx = q.vy ∧ q.vx < 2 ^ 64 ∧ q.fl = 0 ∧ q.rounds = 64 / e.fmt.w ∧
  ∀ j < 64 / e.fmt.w, ∃ x, R e.fmt (v.map fun d => lane e.fmt.w d j) x ∧
    lane e.fmt.w q.vx j = e.fmt.fl.roundExact e.fmt.b e.x.round (drawn e.x g j) x

/-- A code whose exponent field is zero. -/
def tiny (m : Fmt) (c : Nat) : Bool := decide (c / 2 ^ m.fl.f % 2 ^ m.fl.e = 0)

/-- The code with all but its sign cleared. -/
def signOnly (m : Fmt) (c : Nat) : Nat := c / 2 ^ (m.fl.e + m.fl.f) * 2 ^ (m.fl.e + m.fl.f)

/-- A code as it is read under DAZ, and as a result is flushed under FTZ (R78). -/
def readCode (m : Fmt) (c : Nat) : Nat := if m.b.daz && tiny m c then signOnly m c else c
/-- A result under FTZ. -/
def flushCode (m : Fmt) (c : Nat) : Nat := if m.b.ftz && tiny m c then signOnly m c else c

/-- R116: r is minimumNumber (or, for greater, maximumNumber) of two codes; -0 counts as less than +0. -/
def picks (greater : Bool) (m : Fmt) (a b r : Nat) : Prop :=
  match Val.of (m.fl.decode false a), Val.of (m.fl.decode false b) with
  | .nan, .nan => r = m.fl.nanCode
  | .nan, _ => r = b
  | _, .nan => r = a
  | .zero x, .zero y => r = if x = greater then b else if y = greater then a else a
  | x, y => if greater then (x.less y → r = b) ∧ (y.less x → r = a) ∧ (¬x.less y → ¬y.less x → r = a ∧ r = b)
      else (x.less y → r = a) ∧ (y.less x → r = b) ∧ (¬x.less y → ¬y.less x → r = a ∧ r = b)

/-- R116, R118, R119: the floating operations that do not round, by lane. -/
def floatLane : Instr → Option (Fmt → List Nat → Nat → Bool → Prop)
  | .elFmin _ => some fun m v r fl => fl = false ∧
      ∃ x, picks false m (readCode m (v.getD 0 0)) (readCode m (v.getD 1 0)) x ∧ r = flushCode m x
  | .elFmax _ => some fun m v r fl => fl = false ∧
      ∃ x, picks true m (readCode m (v.getD 0 0)) (readCode m (v.getD 1 0)) x ∧ r = flushCode m x
  | .elFneg _ => some fun m v r fl => fl = false ∧
      match Val.of (m.fl.decode false (readCode m (v.getD 0 0))) with
      | .nan => r = m.fl.nanCode
      | _ => r = flushCode m (readCode m (v.getD 0 0) ^^^ 2 ^ (m.w - 1))
  | .elFabs _ => some fun m v r fl => fl = false ∧
      match Val.of (m.fl.decode false (readCode m (v.getD 0 0))) with
      | .nan => r = m.fl.nanCode
      | _ => r = flushCode m (readCode m (v.getD 0 0) % 2 ^ (m.w - 1))
  | .elCmpeq _ => some fun m v r fl => fl = false ∧ (r = 0 ∨ r = 2 ^ m.w - 1) ∧
      (r ≠ 0 ↔ ∃ p, (valAt m v 0).place = some p ∧ (valAt m v 1).place = some p)
  | .elCmpne _ => some fun m v r fl => fl = false ∧ (r = 0 ∨ r = 2 ^ m.w - 1) ∧
      (r = 0 ↔ ∃ p, (valAt m v 0).place = some p ∧ (valAt m v 1).place = some p)
  | .elCmplt _ => some fun m v r fl => fl = false ∧ (r = 0 ∨ r = 2 ^ m.w - 1) ∧ (r ≠ 0 ↔ (valAt m v 0).less (valAt m v 1))
  | .elCmple _ => some fun m v r fl => fl = false ∧ (r = 0 ∨ r = 2 ^ m.w - 1) ∧ (r ≠ 0 ↔ (valAt m v 0).less (valAt m v 1) ∨
      ∃ p, (valAt m v 0).place = some p ∧ (valAt m v 1).place = some p)
  | .elCmpun _ => some fun m v r fl => fl = false ∧ (r = 0 ∨ r = 2 ^ m.w - 1) ∧
      (r ≠ 0 ↔ (valAt m v 0).place = none ∨ (valAt m v 1).place = none)
  | .elClass _ => some fun m v r fl => fl = false ∧ r = 2 ^ (classOf m (v.getD 0 0))
  | _ => none
where
  /-- R119's bit of a code, under DAZ. -/
  classOf (m : Fmt) (c : Nat) : Nat :=
    match m.fl.decode m.b.daz c with
    | .nan q => if q then 1 else 0
    | .inf n => if n then 2 else 9
    | .zero n => if n then 5 else 6
    | .fin z _ => if tiny m c then (if z < 0 then 4 else 7) else if z < 0 then 3 else 8

/-- R118 on integers, and equality of bit patterns: the compares of the formats that are no floating ones. -/
def compareLane : Instr → Option (Fmt → List Nat → Nat → Bool → Prop)
  | .elCmpeq _ => some fun m v r fl => fl = false ∧ r = if at_ m v 0 = at_ m v 1 then 2 ^ m.w - 1 else 0
  | .elCmpne _ => some fun m v r fl => fl = false ∧ r = if at_ m v 0 = at_ m v 1 then 0 else 2 ^ m.w - 1
  | .elCmplt _ => some fun m v r fl => fl = false ∧ r = if at_ m v 0 < at_ m v 1 then 2 ^ m.w - 1 else 0
  | .elCmple _ => some fun m v r fl => fl = false ∧ r = if at_ m v 0 ≤ at_ m v 1 then 2 ^ m.w - 1 else 0
  | _ => none

/-- R90: what converting lane c of format a to format b in a mode gives, and the flag of saturation or of a NaN made an integer;
`force` tells that every overflow saturates (cvts). -/
def converts (a b : Fmt) (force : Bool) (mode : RMode) (rnd c r : Nat) (fl : Bool) : Prop :=
  if a.kind = .bits ∨ b.kind = .bits then r = c % 2 ^ b.w ∧ fl = false
  else if a.kind = .int ∧ b.kind = .int then r < 2 ^ b.w ∧ clamps b (intOf a c) r fl
  else if a.kind = .int then ∃ x, Val.ofExact x = Val.realOr false (intOf a c) ∧
    r = b.fl.roundExact { b.b with sat := b.b.sat || force } mode rnd x
  else match a.fl.decode a.b.daz c with
    | .nan _ => if b.kind = .int then r = 0 ∧ fl = true else r = b.fl.nanCode ∧ fl = false
    | .inf n => if b.kind = .int then intOf b r = (if n then bottom b else ceiling b) ∧ r < 2 ^ b.w ∧ fl = true
        else r = b.fl.roundExact { b.b with sat := b.b.sat || force } mode rnd (.inf n) ∧ fl = decide (b.fl.nan ≠ .ieee)
    | .zero n => if b.kind = .int then r = 0 ∧ fl = false else r = b.fl.signBit n ∧ fl = false
    | .fin z k => if b.kind = .int then r < 2 ^ b.w ∧ clamps b (roundInt mode rnd z k) r fl
        else r = b.fl.roundExact { b.b with sat := b.b.sat || force } mode rnd (.dyadic z k)

/-- A conversion of formats whose values are all exact in the target neither rounds nor steps (R90); `n` results are written. -/
def roundsOf (e : Env) (n : Nat) : Nat := if exactPair e.fmt e.out then 0 else n

/-- Lane c converts to r as the j-th result of its beat. -/
def convertsAt (e : Env) (g : BitVec 32) (force : Bool) (j c r : Nat) (fl : Bool) : Prop :=
  if exactPair e.fmt e.out then converts e.fmt e.out force .ne 0 c r fl
  else converts e.fmt e.out force e.x.round (drawn e.x g j) c r fl

/-- R122, R123, R125, R126: the conversions, bcast and the dot products. -/
def conversion (x : Slot) : Instr → Option (Env → BitVec 32 → List Nat → Reply → Prop)
  | .elCvt _ => some fun e g v q => q.vx = q.vy ∧ q.vx < 2 ^ 64 ∧ q.fl = 0 ∧ q.rounds = roundsOf e (64 / max e.fmt.w e.out.w) ∧
      ∀ j < 64 / e.out.w, if j < 64 / max e.fmt.w e.out.w
        then ∃ fl, convertsAt e g false j (lane e.fmt.w (v.getD 0 0) j) (lane e.out.w q.vx j) fl
        else lane e.out.w q.vx j = 0
  | .elCvts _ => some fun e g v q => q.vx = q.vy ∧ q.vx < 2 ^ 64 ∧ q.fl < 2 ^ (64 / max e.fmt.w e.out.w) ∧
      q.rounds = roundsOf e (64 / max e.fmt.w e.out.w) ∧
      ∀ j < 64 / e.out.w, if j < 64 / max e.fmt.w e.out.w
        then convertsAt e g true j (lane e.fmt.w (v.getD 0 0) j) (lane e.out.w q.vx j) (q.fl.testBit j)
        else lane e.out.w q.vx j = 0
  | .elPack _ => some fun e g v q => q.vx = q.vy ∧ q.vx < 2 ^ 64 ∧ q.fl = 0 ∧ q.rounds = roundsOf e (64 / e.out.w) ∧
      ∀ j < 64 / e.out.w, ∃ fl, convertsAt e g false j
        (if j < 64 / e.fmt.w then lane e.fmt.w (v.getD 0 0) j else lane e.fmt.w (v.getD 1 0) (j - 64 / e.fmt.w))
        (lane e.out.w q.vx j) fl
  | .elUnpack _ => some fun e g v q => q.vx < 2 ^ 64 ∧ q.vy < 2 ^ 64 ∧ q.fl = 0 ∧ q.rounds = roundsOf e (64 / e.fmt.w) ∧
      ∀ j < 64 / e.out.w,
        (∃ fl, convertsAt e g false j (lane e.fmt.w (v.getD 0 0) j) (lane e.out.w q.vx j) fl) ∧
        ∃ fl, convertsAt e g false (64 / e.out.w + j) (lane e.fmt.w (v.getD 0 0) (64 / e.out.w + j)) (lane e.out.w q.vy j) fl
  | .elBcast _ => some fun e _ v q => q.vx = q.vy ∧ q.vx < 2 ^ 64 ∧ q.fl = 0 ∧ q.rounds = 0 ∧
      ∀ j < 64 / e.fmt.w, lane e.fmt.w q.vx j = spread e.fmt (lane e.fmt.w (v.getD 0 0) (x.param 0x15 0))
  | .elDot _ => some fun e _ v q => q.vx = q.vy ∧ q.vx < 2 ^ e.out.w ∧ q.fl < 2 ∧ q.rounds = 0 ∧
      clamps e.out ((List.range (64 / e.fmt.w)).map fun j =>
        intOf e.fmt (lane e.fmt.w (v.getD 0 0) j) * intOf e.fmt (lane e.fmt.w (v.getD 1 0) j)).sum q.vx (q.fl.testBit 0)
  | .elDott _ => some fun e _ v q => (∀ o < 2, ∀ j < 8, lane 8 (v.getD o 0) j < 243) →
      q.vx = q.vy ∧ q.vx < 2 ^ e.out.w ∧ q.fl < 2 ∧ q.rounds = 0 ∧
      clamps e.out ((List.range 8).flatMap fun j => (List.range 5).map fun i =>
        trit (lane 8 (v.getD 0 0) j) i * trit (lane 8 (v.getD 1 0) j) i).sum q.vx (q.fl.testBit 0)
  | _ => none
where
  /-- A lane as bcast sends it: of a floating format as DAZ reads it and FTZ flushes it, a NaN canonical (R78, R125). -/
  spread (m : Fmt) (c : Nat) : Nat :=
    if m.kind = .float ∨ m.kind = .e then
      match Val.of (m.fl.decode false (readCode m c)) with
      | .nan => m.fl.nanCode
      | _ => flushCode m (readCode m c)
    else c
  /-- Trit i of a byte of .t3 (R81). -/
  trit (p i : Nat) : Int := ((p / 3 ^ i % 3 : Nat) : Int) - 1

/-- R110, R106: the formats an operation of `conversion` admits. -/
def convertible (e : Env) : Instr → Prop
  | .elCvt _ => plain e.fmt ∧ plain e.out
  | .elCvts _ => (plain e.fmt ∧ e.fmt.kind ≠ .bits) ∧ plain e.out ∧ e.out.kind ≠ .bits
  | .elPack _ => (e.fmt.kind = .int ∨ e.fmt.kind = .float) ∧ plain e.out ∧ 2 * e.out.w = e.fmt.w
  | .elUnpack _ => (plain e.fmt ∧ e.fmt.kind ≠ .bits) ∧ plain e.out ∧ e.out.w = 2 * e.fmt.w ∧ flagOut e.x = false
  | .elBcast _ => plain e.fmt
  | .elDot _ => e.fmt.kind = .int ∧ e.fmt.w ≤ 16 ∧ e.out.kind = .int
  | .elDott _ => e.fmt.kind = .t3 ∧ e.out.kind = .int
  | _ => False
where
  /-- Sets I, F, E and B. -/
  plain (m : Fmt) : Prop := m.kind = .int ∨ m.kind = .float ∨ m.kind = .e ∨ m.kind = .bits

end Sys2Proof.Claims

/-- R115, R117, R77, R89: fma, fadd, fsub, fmul, fdiv and frcp issue Round, in the element's mode, of the exact value of every lane,
special cases as R77 and R115 give them, rounding once; fsqrt and the functions of R117 issue Round of the model's exact value. -/
def Obligations.FloatingArithmetic : Prop :=
  ∀ (s : State) (i : Instr), ((s.tile s.curTile).fmt s.el.fsel).kind = .float →
    (∀ f, exactOf s.el.round i = some f → fires (rounded fun m v x => Val.ofExact x = f m v) i s) ∧
    (∀ f, functionOf i = some f → fires (rounded fun m v x => x = f (m.fl.decode m.b.daz (v.getD 0 0))) i s)

/-- R117's and R115's special values, of the exact values that fsqrt, frsqrt, fexp2, flog2, fsinpi and fcospi round. -/
def Obligations.SpecialValues : Prop :=
  (∀ q, FVal.sqrt (.nan q) = .nan ∧ FVal.rsqrt (.nan q) = .nan ∧ FVal.exp2 (.nan q) = .nan ∧ FVal.log2 (.nan q) = .nan ∧
    FVal.sinpi (.nan q) = .nan ∧ FVal.cospi (.nan q) = .nan) ∧
  (∀ n, FVal.sqrt (.zero n) = .zero n ∧ FVal.rsqrt (.zero n) = .inf n ∧ FVal.log2 (.zero n) = .inf true ∧
    FVal.sinpi (.zero n) = .zero n ∧ Val.ofExact (FVal.cospi (.zero n)) = .real 1 ∧ Val.ofExact (FVal.exp2 (.zero n)) = .real 1 ∧
    FVal.sinpi (.inf n) = .nan ∧ FVal.cospi (.inf n) = .nan) ∧
  FVal.sqrt (.inf false) = .inf false ∧ FVal.rsqrt (.inf false) = .zero false ∧ FVal.exp2 (.inf true) = .zero false ∧
  FVal.exp2 (.inf false) = .inf false ∧ FVal.log2 (.inf false) = .inf false ∧
  (∀ z k : Int, z < 0 → FVal.sqrt (.fin z k) = .nan ∧ FVal.rsqrt (.fin z k) = .nan ∧ FVal.log2 (.fin z k) = .nan) ∧
  (∀ z k : Int, z ≠ 0 → 0 ≤ k → FVal.sinpi (.fin z k) = .zero (decide (z < 0))) ∧
  (∀ z : Int, z % 2 = 1 → FVal.cospi (.fin z (-1)) = .zero false) ∧
  (∀ k : Nat, FVal.log2 (.fin (2 ^ k) (-(k : Int))) = .zero false)

/-- R116, R118, R119: fmin, fmax, fneg, fabs and class in a floating format, and the compares in every format R110 admits, issue the
result of every lane without rounding. -/
def Obligations.FloatingSelections : Prop :=
  ∀ (s : State) (i : Instr),
    (∀ R, floatLane i = some R → ((s.tile s.curTile).fmt s.el.fsel).kind = .float ∨
      ((s.tile s.curTile).fmt s.el.fsel).kind = .e → fires (byLane R) i s) ∧
    (∀ R, compareLane i = some R → ((s.tile s.curTile).fmt s.el.fsel).kind = .int ∨
      ((s.tile s.curTile).fmt s.el.fsel).kind = .bits → fires (byLane R) i s)

/-- R122, R123, R125, R126, R90: cvt, cvts, pack, unpack, bcast, dot and dott issue what their rules give, converting every lane once
in order. -/
def Obligations.Conversions : Prop :=
  ∀ (s : State) (i : Instr) (P : Env → BitVec 32 → List Nat → Reply → Prop), conversion s.el i = some P →
    convertible ((s.tile s.curTile).env s.el) i →
    (∀ a, i = .elDott a → ∀ o < 2, ∀ k < s.el.copies, ∀ j < 8, lane 8 (operand s.el o k).data.toNat j < 243) → fires P i s

/-! ## Firing rules, and self-timed word elements (R101, R105, R111, R127-R139) -/

namespace Sys2Proof.Claims
open Sys2Proof Sys2Proof.Machine

/-- Beats in a result queue for a consumer; a beat for 0x1FF is discarded (R47). -/
def sent (dest : BitVec 9) (bs : List Beat) : List (BitVec 9 × Beat) := if dest = 0x1FF then [] else bs.map fun b => (dest, b)

/-- The acting slot bears the operation's word and is live (R105). -/
def canAct (s : State) (op : Nat) (a : ElemArgs) : Prop :=
  (s.el.st = .armed ∨ s.el.st = .gated) ∧ s.el.held = false ∧ s.el.word = BitVec.ofNat 32 (op * 2 ^ 24 + a.bits)

/-- It may take a turn: its consumers' queues have room too (R105). -/
def canTurn (s : State) (op : Nat) (a : ElemArgs) : Prop :=
  (s.el.st = .armed ∨ s.el.st = .gated) ∧ s.el.held = false ∧ s.el.word = BitVec.ofNat 32 (op * 2 ^ 24 + a.bits) ∧
  State.freeOut s.el = true

/-- A turn: the slot has lost k o beats of each port o, sent ss to its consumers, and holds run r and generator g; nothing else of
it differs. -/
def turned (s t : State) (k : Nat → Nat) (ss : List (BitVec 9 × Beat)) (r : Run) (g : BitVec 32) : Prop :=
  onlyHere s t ∧ (∀ o < 4, t.el.port o = (s.el.port o).drop (k o)) ∧
  t.el.out = s.el.out ++ ss ∧ t.el.run = r ∧ t.el.gen 0 = g ∧
  { t.el with portA := s.el.portA, portB := s.el.portB, portC := s.el.portC, portP := s.el.portP, out := s.el.out,
              run := s.el.run, gens := s.el.gens } = s.el

/-- The instruction completes in a turn that sends xs to CX and ys to CY and draws no random number. -/
def takes (i : Instr) (s : State) (k : Nat → Nat) (xs ys : List Beat) (r : Run) : Prop :=
  ∃ t, exec i s = .next t ∧ turned s t k (sent s.el.cx xs ++ sent s.el.cy ys) r (s.el.gen 0)

/-- Beats taken: n of port o and none of another. -/
def from1 (o n : Nat) : Nat → Nat := fun p => if p = o then n else 0

/-- Data beat b heads a port and may be taken; a CAPLO has its successor behind it (R55). -/
def headed (x : Slot) (o : Nat) (b : Beat) : Prop :=
  ∃ a l, x.port o = a :: l ∧ a.beat = b ∧ b.cfg = false ∧ (b.kind = .caplo → l ≠ [])

/-- The unit at the head of a port: one beat, or a capability pair (R131). -/
def unitAt (x : Slot) (o : Nat) (u : List Beat) : Prop :=
  (∃ b, u = [b] ∧ headed x o b ∧ b.kind ≠ .caplo) ∨
  ∃ lo hi l, x.port o = lo :: hi :: l ∧ u = [lo.beat, hi.beat] ∧ lo.beat.cfg = false ∧ hi.beat.cfg = false ∧
    lo.beat.kind = .caplo ∧ hi.beat.kind = .caphi

/-- The unit opens no LOOPEND. -/
def ordinaryUnit (u : List Beat) : Prop := (u.headD {}).kind ≠ .loopend

/-- A beat poisoned, with its KIND kept (R91). -/
def spoiled (b : Beat) : Beat := { kind := b.kind, poi := true }

/-- A beat forwarded with TAG 0, a half of a pair as DATA (R133). -/
def forwarded (b : Beat) : Beat :=
  { b with tag := false, kind := if b.kind = .caplo ∨ b.kind = .caphi then .data else b.kind }

/-- A beat reframed (R137). -/
def framedAs (k : Kind) (b : Beat) : Beat := { b with tag := false, kind := k }

/-- What frame does with one beat, where it holds beats of a slab of k so far (R137): what leaves it, what it holds, the slab's
length. A slab that FLEN, n, has come to cut short is closed first. -/
def frameOne (n : Nat) (held : List Beat) (k : Nat) (b : Beat) : List Beat × List Beat × Nat :=
  if b.kind = .loopend then (held.map (framedAs (if k = 1 then .solo else .tail)) ++ [b], [], 0)
  else if n ≤ k then
    (held.map (framedAs (if k = 1 then .solo else .tail)) ++ (if n ≤ 1 then [framedAs .solo b] else []),
      if n ≤ 1 then [] else [b], if n ≤ 1 then 0 else 1)
  else
    (held.map (framedAs (if k = 1 then .head else .data)) ++
        (if n ≤ k + 1 then [framedAs (if k = 0 then .solo else .tail) b] else []),
      if n ≤ k + 1 then [] else [b], if n ≤ k + 1 then 0 else k + 1)

/-- What frame does with the beats of a unit, one after another. -/
def frameAll (n : Nat) : List Beat → List Beat → Nat → List Beat × List Beat × Nat
  | [], held, k => ([], held, k)
  | b :: u, held, k =>
    ((frameOne n held k b).1 ++ (frameAll n u (frameOne n held k b).2.1 (frameOne n held k b).2.2).1,
      (frameAll n u (frameOne n held k b).2.1 (frameOne n held k b).2.2).2)

/-- A LOOPEND of dimension d (R53). -/
def loopOf (d : Nat) : Beat := { data := BitVec.ofNat 64 d, kind := .loopend }

/-- seq's value (R104, R138): SBASE as it stands, the SSTEPs as the run holds them. -/
def sequenceValue (x : Slot) : Word :=
  BitVec.ofInt 64 (sext (x.param 0x2C 0) 56 +
    ((List.range 6).map fun d => ((x.run.idx.getD d 0 : Nat) : Int) * sext (look 0 x.run.held (0x26 + d)) 56).sum)

/-- seqx's token (R138). -/
def tokenValue (x : Slot) (r : Run) : Word :=
  let t1 := if r.idx.getD 0 0 ≠ 0 then x.const 0 ||| x.const 1 else x.const 0
  let t2 := if r.idx.getD 1 0 % 2 = 1 then t1 ^^^ x.const 2 else t1
  if r.idx.getD 0 0 + 1 = look 0 r.held 0x20 then t2 ||| x.const 3 else t2

/-- The error counter of the acting tile's group. -/
def errorsHere (s : State) : BitVec 32 := (s.group (s.handleOf s.curTile)).gerr

/-- A group counts one error more; a tile of no group counts none, nor does a group before it is ARMED; the counter stays at its
greatest value (R392). -/
def oneMore (s t : State) : Prop :=
  errorsHere t = if (find s.groups (s.handleOf s.curTile)).isNone ∨ (s.group (s.handleOf s.curTile)).st = .leased ∨
      (s.group (s.handleOf s.curTile)).st = .configuring ∨ errorsHere s = 0xFFFFFFFF
    then errorsHere s else errorsHere s + 1

/-- The beats that a firing takes from ports, over all its copies (R109, R111). -/
def takenBy (x : Slot) (f : Firing) (b : Beat) : Prop := ∃ k < x.copies, ∃ o ∈ f.used x, b = operand x o k

end Sys2Proof.Claims

/-- R101, R111: a region-timed word operation that may not fire changes nothing but the list of coming events; where every beat that
a firing takes from ports is a LOOPEND of one dimension, every copy sends one; where only some are, or their dimensions differ, every
copy sends poison with the KIND of its first port's beat, and one error is counted; where none is, a copy with a poisoned operand
sends poison under the framing of its result. -/
def Obligations.FiringRules : Prop :=
  ∀ (s : State) (i : Instr) (f : Firing), firingOf i = some f →
    (s.el.st = .empty → exec i s = .next s) ∧
    ((s.el.st = .armed ∨ s.el.st = .gated) → s.el.word = BitVec.ofNat 32 (f.op * 2 ^ 24 + f.args.bits) →
      (∃ o < 4, ((s.el.port o).headD {}).beat.cfg = true) ∨ (∃ o ∈ f.used s.el, (avail (s.el.port o)).length < s.el.copies) ∨
        s.el.held = true ∨ State.hasRoom s.el f.lat = false →
      ∃ t, exec i s = .next t ∧ onlyHere s t ∧ t.el = s.el) ∧
    (∀ d < 6, canFire s f → f.used s.el ≠ [] → 0 < s.el.copies →
      (∀ b, takenBy s.el f b → b.kind = .loopend ∧ b.data = BitVec.ofNat 64 d) →
      ∃ t bx, exec i s = .next t ∧ fired s t f bx bx ∧ errorsHere t = errorsHere s ∧ ∀ k < s.el.copies,
        ((∀ o ∈ f.used s.el, (operand s.el o k).poi = false) → bx k = loopOf d) ∧
        ((∃ o ∈ f.used s.el, (operand s.el o k).poi = true) → bx k = spoiled (loopOf d))) ∧
    (canFire s f → (∃ b c, takenBy s.el f b ∧ takenBy s.el f c ∧ b.kind = .loopend ∧
        (c.kind = .loopend → c.data.toNat % 8 ≠ b.data.toNat % 8)) →
      ∃ t bx cy, exec i s = .next t ∧ fired s t f bx cy ∧ oneMore s t ∧ ∀ k < s.el.copies,
        bx k = { kind := (operand s.el ((f.used s.el).headD 0) k).kind, poi := true } ∧
        cy k = if flagOut s.el then { poi := true } else bx k) ∧
    (canFire s f → (∀ b, takenBy s.el f b → b.kind ≠ .loopend) →
      ∃ t bx cy, exec i s = .next t ∧ fired s t f bx cy ∧ errorsHere t = errorsHere s ∧ ∀ k < s.el.copies,
        (bx k).kind = framing s.el f k ∧
        ((∃ o ∈ f.ports, (operand s.el o k).poi = true) →
          bx k = { kind := framing s.el f k, poi := true } ∧
          cy k = if flagOut s.el then { poi := true } else bx k))

/-- R135, R136: steer, merge, gate, split, unzip, zip and dup: where each unit goes by P, by the count and by the turn; a LOOPEND
at A goes on and restarts the count or the turn. -/
def Obligations.StreamRouting : Prop :=
  ∀ (s : State) (a : ElemArgs),
    (∀ u q, canTurn s 0x50 a → unitAt s.el 0 u → headed s.el 3 q → ordinaryUnit u → q.kind ≠ .loopend →
      takes (.elSteer a) s (fun o => from1 0 u.length o + from1 3 1 o)
        (if q.poi then u.map spoiled else if q.data ≠ 0 then u else [])
        (if q.poi then u.map spoiled else if q.data ≠ 0 then [] else u) s.el.run) ∧
    (∀ u q, canTurn s 0x52 a → unitAt s.el 0 u → headed s.el 3 q → ordinaryUnit u → q.kind ≠ .loopend →
      takes (.elGate a) s (fun o => from1 0 u.length o + from1 3 1 o)
        (if q.poi then u.map spoiled else if q.data ≠ 0 then u else []) [] s.el.run) ∧
    (∀ b, headed s.el 0 b → b.kind = .loopend →
      (canTurn s 0x50 a → takes (.elSteer a) s (from1 0 1) [b] [b] s.el.run) ∧
      (canTurn s 0x52 a → takes (.elGate a) s (from1 0 1) [b] [] s.el.run) ∧
      (canTurn s 0x54 a → takes (.elSplit a) s (from1 0 1) [b] [b] { s.el.run with cnt := 0 }) ∧
      (canTurn s 0x5B a → takes (.elUnzip a) s (from1 0 1) [b] [b] { s.el.run with turn := false })) ∧
    (∀ q, canTurn s 0x51 a → s.el.run.isOpen = false → headed s.el 3 q → q.kind ≠ .loopend →
      takes (.elMerge a) s (from1 3 1) (if q.poi then [{ poi := true }] else []) []
        (if q.poi then s.el.run else { s.el.run with isOpen := true, turn := decide (q.data ≠ 0) })) ∧
    (∀ u, canTurn s 0x51 a → s.el.run.isOpen = true → unitAt s.el (if s.el.run.turn then 0 else 1) u →
      takes (.elMerge a) s (from1 (if s.el.run.turn then 0 else 1) u.length) u [] { s.el.run with isOpen := false }) ∧
    (∀ u, unitAt s.el 0 u → ordinaryUnit u →
      (canTurn s 0x54 a → takes (.elSplit a) s (from1 0 u.length)
        (if s.el.run.cnt < s.el.param 0x2E 1 then u.map forwarded else [])
        (if s.el.run.cnt < s.el.param 0x2E 1 then [] else u.map forwarded) { s.el.run with cnt := s.el.run.cnt + u.length }) ∧
      (canTurn s 0x5B a → takes (.elUnzip a) s (from1 0 u.length) (if s.el.run.turn then [] else u.map forwarded)
        (if s.el.run.turn then u.map forwarded else []) { s.el.run with turn := !s.el.run.turn })) ∧
    (∀ u, canTurn s 0x5A a → unitAt s.el (if s.el.run.turn then 1 else 0) u → ordinaryUnit u →
      takes (.elZip a) s (from1 (if s.el.run.turn then 1 else 0) u.length) (u.map forwarded) []
        { s.el.run with turn := !s.el.run.turn }) ∧
    (∀ x u, canTurn s 0x5A a → s.el.run.turn = false → headed s.el 0 x → unitAt s.el 1 u → x.kind = .loopend →
      takes (.elZip a) s (fun o => from1 0 1 o + from1 1 u.length o)
        [if (u.headD {}).kind = .loopend ∧ (u.headD {}).data.toNat % 8 = x.data.toNat % 8
          then (if x.poi || (u.headD {}).poi then spoiled x else x) else spoiled x] [] s.el.run) ∧
    (∀ us : List (List Beat), canFire s ⟨0x53, a, [], 1⟩ → firstUnits s.el.copies s.el.portA = some us →
      ∃ t, exec (.elDup a) s = .next t ∧ onlyHere s t ∧ t.el.portA = s.el.portA.drop us.flatten.length ∧
        t.el.pipe = s.el.pipe ++ us.flatten.flatMap fun b =>
          issued s.el.cx (s.fc + 1) b ++ issued s.el.cy (s.fc + 1) b)

/-- R137, R138, R139: frame holds a beat back until it knows its successor and frames it; unframe removes framing and, with UEND,
puts a LOOPEND behind each slab; seq and seqx emit their step's value and step their counters; const emits constant 0. -/
def Obligations.Sequencers : Prop :=
  ∀ (s : State) (a : ElemArgs),
    (∀ u q, canTurn s 0x55 a → unitAt s.el 0 u →
      q = frameAll (s.el.param 0x2F 1 % 65536) u s.el.run.beats s.el.run.cnt →
      takes (.elFrame a) s (from1 0 u.length) q.1 [] { s.el.run with beats := q.2.1, cnt := q.2.2 }) ∧
    (∀ b, canTurn s 0x56 a → headed s.el 0 b →
      takes (.elUnframe a) s (from1 0 1)
        (if b.kind = .loopend then [b]
          else if (b.kind = .tail ∨ b.kind = .solo) ∧ (s.el.param 0x2F 1).testBit 19 = true
            then [framedAs .data b, if b.poi then spoiled (loopOf (s.el.param 0x2F 1 / 65536 % 8))
              else loopOf (s.el.param 0x2F 1 / 65536 % 8)]
          else [framedAs .data b]) [] s.el.run) ∧
    (canTurn s 0x57 a → s.el.run.isOpen = true → s.el.run.loopDue = none →
      takes (.elSeq a) s (from1 0 0)
        [if s.el.run.poisoned then { poi := true } else { data := sequenceValue s.el }] []
        (State.stepSeq s.el.run (s.el.param 0x2D 6 % 8))) ∧
    (∀ d, canTurn s 0x57 a → s.el.run.loopDue = some d →
      takes (.elSeq a) s (from1 0 0) [if s.el.run.poisoned then spoiled (loopOf d) else loopOf d] []
        { s.el.run with loopDue := none }) ∧
    (∀ u, canTurn s 0x57 a → s.el.run.isOpen = false → s.el.run.loopDue = none → (s.el.param 0x2D 6).testBit 3 = true →
      unitAt s.el 0 u →
      if (u.headD {}).kind = .loopend then takes (.elSeq a) s (from1 0 u.length) u [] s.el.run
      else takes (.elSeq a) s (from1 0 u.length) [] [] { s.el.run with
        isOpen := true, held := s.el.params, poisoned := u.any (·.poi),
        idx := List.replicate (presentCounts fun d => s.el.param (0x20 + d) 0).length 0 }) ∧
    (canTurn s 0x58 a → s.el.run.isOpen = true →
      takes (.elSeqx a) s (from1 0 0) [{ data := tokenValue s.el s.el.run }] []
        { State.stepSeq s.el.run 6 with loopDue := none }) ∧
    (canFire s ⟨0x59, a, [], 1⟩ → ∃ t, exec (.elConst a) s = .next t ∧
      fired s t ⟨0x59, a, [], 1⟩ (fun _ => { data := s.el.const 0 }) (fun _ => { data := s.el.const 0 }))

namespace Sys2Proof.Claims
open Sys2Proof Sys2Proof.Machine

/-- The run in force for a beat: the open one, or one that opens with the parameters in force (R104, R128). -/
def inForce (x : Slot) : Run := if x.run.isOpen then x.run else { x.run with isOpen := true, held := x.params }

/-- The formats of a reduction: FSEL's, and OUTF's as the run holds it. -/
def runEnv (s : State) : Env :=
  { (s.tile s.curTile).env s.el with out := (s.tile s.curTile).fmt (look s.el.fsel (inForce s.el).held 0x11) }

/-- rsum over floating lanes in order (R95, R129): the first value rounds, each later one is added and rounds; an accumulator that is
none has no value yet. -/
def summed (e : Env) : List Nat → Option Nat → BitVec 32 → Option Nat × BitVec 32 → Prop
  | [], acc, g, r => r = (acc, g)
  | c :: t, acc, g, r => ∃ x : Exact,
      Val.ofExact x = (match acc with
        | none => Val.of (e.fmt.fl.decode e.fmt.b.daz c)
        | some p => Val.add e.x.round (Val.of (e.out.fl.decode false p)) (Val.of (e.fmt.fl.decode e.fmt.b.daz c))) ∧
      summed e t (some (e.out.fl.roundExact e.out.b e.x.round (stepped e.x 1 g).toNat x)) (stepped e.x 1 g) r

/-- The lanes of a beat. -/
def lanesAt (m : Fmt) (b : Beat) : List Nat := (List.range (64 / m.w)).map fun j => lane m.w b.data.toNat j

/-- A beat of a run that is not poisoned moves it from r to q and the generator from g to h (R127, R129); B's beat, for dota and
dotta, is c. -/
def gathers (e : Env) (b c : Beat) (r q : Run) (g h : BitVec 32) : Instr → Prop
  | .elRsum _ => if e.fmt.kind = .int then q.acc = r.acc + ((lanesAt e.fmt b).map (intOf e.fmt)).sum ∧ h = g
      else ∃ z, summed e (lanesAt e.fmt b) (if r.accSet then some r.accBits.toNat else none) g (some z.toNat, h) ∧
        q.accSet = true ∧ q.accBits = z
  | .elRcnt _ => h = g ∧ q.pos = r.pos + ((lanesAt e.fmt b).filter fun c =>
      if e.fmt.kind = .float ∨ e.fmt.kind = .e then (match e.fmt.fl.decode e.fmt.b.daz c with
        | .zero _ => false
        | _ => true) else decide (c ≠ 0)).length
  | .elDota _ => h = g ∧ q.acc = r.acc + ((List.range (64 / e.fmt.w)).map fun j =>
      intOf e.fmt (lane e.fmt.w b.data.toNat j) * intOf e.fmt (lane e.fmt.w c.data.toNat j)).sum
  | .elDotta _ => h = g ∧ q.acc = r.acc + ((List.range 8).flatMap fun j => (List.range 5).map fun i =>
      conversion.trit (lane 8 b.data.toNat j) i * conversion.trit (lane 8 c.data.toNat j) i).sum
  | .elRmax _ => h = g ∧ q.accSet = true ∧ (e.fmt.kind = .int →
      intOf e.fmt q.accBits.toNat = ((lanesAt e.fmt b).map (intOf e.fmt)).foldl max
        (if r.accSet then intOf e.fmt r.accBits.toNat else intOf e.fmt (lane e.fmt.w b.data.toNat 0)))
  | .elRmin _ => h = g ∧ q.accSet = true ∧ (e.fmt.kind = .int →
      intOf e.fmt q.accBits.toNat = ((lanesAt e.fmt b).map (intOf e.fmt)).foldl min
        (if r.accSet then intOf e.fmt r.accBits.toNat else intOf e.fmt (lane e.fmt.w b.data.toNat 0)))
  | .elRargmax _ => h = g ∧ (e.fmt.kind = .int → q.accSet = true ∧
      (∀ j < 64 / e.fmt.w, intOf e.fmt (lane e.fmt.w b.data.toNat j) ≤ intOf e.fmt q.accBits.toNat) ∧
      (r.accSet = true → intOf e.fmt r.accBits.toNat ≤ intOf e.fmt q.accBits.toNat) ∧
      (q.pos = r.pos ∧ q.accBits = r.accBits ∨ ∃ j < 64 / e.fmt.w, q.pos = r.cnt * (64 / e.fmt.w) + j ∧
        q.accBits.toNat = lane e.fmt.w b.data.toNat j))
  | _ => False

/-- The code, the word's fields and the ports of a reduction (R105, R127, R128). -/
def reductionOf : Instr → Option (Nat × ElemArgs × List Nat)
  | .elDota a => some (0x41, a, [0, 1])
  | .elDotta a => some (0x43, a, [0, 1])
  | .elRsum a => some (0x48, a, [0])
  | .elRmax a => some (0x49, a, [0])
  | .elRmin a => some (0x4A, a, [0])
  | .elRargmax a => some (0x4B, a, [0])
  | .elRcnt a => some (0x4C, a, [0])
  | _ => none

/-- RCOUNT of the run in force. -/
def runLength (x : Slot) : Nat := look 0 (inForce x).held 0x12 % 2 ^ 32

/-- R105, R127, R129: the formats a reduction admits. -/
def reducible (e : Env) : Instr → Prop
  | .elDota _ => e.fmt.kind = .int ∧ e.fmt.w ≤ 16 ∧ e.out.kind = .int
  | .elDotta _ => e.fmt.kind = .t3 ∧ e.out.kind = .int
  | .elRsum _ => e.fmt.kind = .int ∧ e.out.kind = .int ∨ e.fmt.kind = .float ∧ e.out.kind = .float
  | _ => e.fmt.kind = .int ∨ e.fmt.kind = .float ∨ e.fmt.kind = .e

/-- What a run that absorbed q gives when it closes, with its flag (R127, R129). -/
def closing (e : Env) (q : Run) (v : Nat) (fl : Bool) : Instr → Prop
  | .elRargmax _ => fl = false ∧ v = if q.accSet then q.pos else 2 ^ 64 - 1
  | .elRcnt _ => fl = false ∧ v = q.pos
  | .elRsum _ => if e.fmt.kind = .int then v < 2 ^ e.out.w ∧ clamps e.out q.acc v fl else fl = false ∧ v = q.accBits.toNat
  | .elDota _ => v < 2 ^ e.out.w ∧ clamps e.out q.acc v fl
  | .elDotta _ => v < 2 ^ e.out.w ∧ clamps e.out q.acc v fl
  | _ => fl = false ∧ (e.fmt.kind = .int → q.accSet = true → q.accBits.toNat < 2 ^ e.fmt.w → v = q.accBits.toNat)

/-- fc until a reduction takes its next beat: 4 x n where rsum adds n floating lanes (R129). -/
def restOf (e : Env) : Instr → Nat
  | .elRsum _ => if e.fmt.kind = .int then 1 else 4 * (64 / e.fmt.w)
  | _ => 1

/-- What a closing run sends: its result to CX, and to CY the result or, with FLAGOUT, the flag (R108, R128). -/
def closed (x : Slot) (v : Nat) (fl : Bool) : List (BitVec 9 × Beat) :=
  sent x.cx [{ data := BitVec.ofNat 64 v }] ++
  sent x.cy [{ data := if flagOut x then (if fl then 1 else 0) else BitVec.ofNat 64 v }]

/-- The beat an operand port gives: its head, or the constant SRC names (R107). -/
def gives1 (x : Slot) (o : Nat) (b : Beat) : Prop :=
  if x.src o = 0 then headed x o b else b = { data := x.const (x.src o - 1) }

/-- How many beats each operand port loses. -/
def lost (x : Slot) (ports : List Nat) : Nat → Nat := fun o => if o ∈ ports ∧ x.src o = 0 then 1 else 0

/-- A slab element's turn at a beat that neither completes a slab nor is malformed takes it in (R94). -/
def slabBeat (held : List Beat) (b : Beat) (cap : Nat) : Prop :=
  (held = [] ∧ b.kind = .head) ∨ (held ≠ [] ∧ b.kind = .data ∧ held.length + 1 ≤ cap)

end Sys2Proof.Claims

/-- R127, R128, R129: a reduction or accumulating dot product takes a beat of every operand into its run, rsum over n floating lanes
one every 4 x n fc; after RCOUNT beats, or at a
LOOPEND of a dimension from RDIM up, it closes: the result goes out, then the LOOPEND with its dimension lowered. -/
def Obligations.Reductions : Prop :=
  ∀ (s : State) (i : Instr) (op : Nat) (a : ElemArgs) (ports : List Nat), reductionOf i = some (op, a, ports) →
    canTurn s op a → reducible (runEnv s) i →
    (∀ b c : Beat, gives1 s.el 0 b → (1 ∈ ports → gives1 s.el 1 c) → (∃ o ∈ ports, s.el.src o = 0) → (1 ∉ ports → c = b) →
      b.kind ≠ .loopend → c.kind ≠ .loopend → b.poi = false → c.poi = false → s.el.run.poisoned = false →
      (∀ z, i = .elDotta z → ∀ j < 8, lane 8 b.data.toNat j < 243 ∧ lane 8 c.data.toNat j < 243) →
      s.el.run.accBits.toNat < 2 ^ (runEnv s).fmt.w → (ports.length = 1 → s.el.run.due ≤ s.fc) →
      ∃ t q g, exec i s = .next t ∧ gathers (runEnv s) b c (inForce s.el) q (s.el.gen 0) g i ∧
        if runLength s.el = 0 ∨ s.el.run.cnt + 1 < runLength s.el then
          turned s t (lost s.el ports) [] q g ∧ q.isOpen = true ∧ q.cnt = s.el.run.cnt + 1 ∧ q.held = (inForce s.el).held ∧
          q.poisoned = false
        else (ports.length = 2 → q.products ≤ 65536) → ∃ v fl, closing (runEnv s) q v fl i ∧
          turned s t (lost s.el ports) (closed s.el v fl)
            { closed := some false, due := if ports.length = 1 then s.fc + restOf (runEnv s) i else 0 } g) ∧
    (∀ b : Beat, ports = [0] → s.el.src 0 = 0 → s.el.run.due ≤ s.fc → headed s.el 0 b → b.kind = .loopend → b.poi = false →
      s.el.run.isOpen = true → 0 < s.el.run.cnt → s.el.run.poisoned = false →
      if b.data.toNat % 8 < look 0 s.el.run.held 0x12 / 2 ^ 32 % 8 then takes i s (from1 0 1) [] [] s.el.run
      else ∃ t v fl, exec i s = .next t ∧ closing (runEnv s) s.el.run v fl i ∧
        turned s t (from1 0 1) (closed s.el v fl ++
            if look 0 s.el.run.held 0x12 / 2 ^ 32 % 8 < b.data.toNat % 8
            then sent s.el.cx [loopOf (b.data.toNat % 8 - look 0 s.el.run.held 0x12 / 2 ^ 32 % 8 - 1)] ++
              sent s.el.cy [loopOf (b.data.toNat % 8 - look 0 s.el.run.held 0x12 / 2 ^ 32 % 8 - 1)]
            else []) { closed := some true } (s.el.gen 0))

/-! ## Slabs, address generators, banks and LUT islands (R79, R80, R94, R124, R140-R160, R180-R187) -/

namespace Sys2Proof.Claims
open Sys2Proof Sys2Proof.Machine

/-- emax of an MX format (R80). -/
def emaxOf (m : Fmt) : Int := if m.code = 0x18 then 8 else if m.code = 0x1A then 4 else if m.code = 0x1C then 0 else 2

/-- Greatest slab length and legal lengths of a whole-slab operation (R93, R124). -/
def slabOp (e : Env) : Instr → Option (Nat × ElemArgs × Nat × (Nat → Prop))
  | .elQmx a => some (0x3C, a, 256 / (64 / e.fmt.w), fun k => k * (64 / e.fmt.w) % 32 = 0)
  | .elDqmx a => some (0x3D, a, 1 + 8 * mxBeats e.fmt, fun k => 1 < k ∧ (k - 1) % mxBeats e.fmt = 0)
  | _ => none

/-- A poisoned SOLO (R94). -/
def badSolo : Beat := { kind := .solo, poi := true }

/-- The fc in which the first of new results leaves a slot, n fc from now and behind what is still to leave (R124). -/
def firstOut (s : State) (n : Nat) : Nat := s.el.pipe.foldl (fun m i => max m (i.due + 1)) (s.fc + n)

/-- Beats issued to both consumers, one per fc from fc f on. -/
def issuedBoth (x : Slot) (f : Nat) (bs : List Beat) : List Issued :=
  (bs.zip (List.range bs.length)).flatMap fun q => issued x.cx (f + q.2) q.1 ++ issued x.cy (f + q.2) q.1

/-- A turn of a whole-slab element that takes a beat of A, sends bs to both consumers behind what it is still sending, and leaves run
r (R94, R124). -/
def slabSends (i : Instr) (s : State) (bs : List Beat) (r : Run) : Prop :=
  ∃ t, exec i s = .next t ∧ onlyHere s t ∧ (∀ o < 4, t.el.port o = (s.el.port o).drop (from1 0 1 o)) ∧ t.el.run = r ∧
    t.el.gens = s.el.gens ∧
    (if s.el.pipe = [] then t.el.out = s.el.out ++ sent s.el.cx bs ++ sent s.el.cy bs ∧ t.el.pipe = []
      else t.el.out = s.el.out ∧ t.el.pipe = s.el.pipe ++ issuedBoth s.el (firstOut s 0) bs)

/-- The values of the lanes of a slab's beats. -/
def slabValues (m : Fmt) (l : List Beat) : List FVal :=
  l.flatMap fun b => (lanesAt m b).map (m.fl.decode m.b.daz)

end Sys2Proof.Claims

/-- R80: the scale byte of a block with NaN or an infinity is 255, of a block of zeros 0, and of another the greatest exponent of an
element less emax, biased by 127 and clamped to 0 and 254. -/
def Sys2Proof.Claims.BlockScale : Prop :=
  ∀ (m : Fmt) (vs : List FVal), (m.code = 0x18 ∨ m.code = 0x19 ∨ m.code = 0x1A ∨ m.code = 0x1B ∨ m.code = 0x1C) →
    ((∃ v ∈ vs, (∃ q, v = .nan q) ∨ ∃ n, v = .inf n) → mxScale m vs = 255) ∧
    ((∀ v ∈ vs, ∃ n, v = .zero n) → mxScale m vs = 0) ∧
    (∀ E : Int, (∀ v ∈ vs, (∃ n, v = .zero n) ∨ ∃ z k : Int, v = .fin z k ∧ z ≠ 0 ∧ |(z : ℚ)| * (2 : ℚ) ^ k < (2 : ℚ) ^ (E + 1)) →
      (∃ z k : Int, FVal.fin z k ∈ vs ∧ (2 : ℚ) ^ E ≤ |(z : ℚ)| * (2 : ℚ) ^ k) →
      (mxScale m vs : Int) = max 0 (min 254 (E - Claims.emaxOf m + 127)))

/-- R93, R94, R124: qmx and dqmx buffer a slab beat by beat; a complete one gives the slab of the other form to both consumers, a beat
per fc and the first no sooner than 4 fc after, its values converted in order; a stray beat gives a poisoned SOLO, and so does a slab that is too long, whose later beats go with it to its
TAIL (log 18); a LOOPEND between slabs goes on. -/
def Sys2Proof.Claims.Slabs : Prop :=
  ∀ (s : State) (i : Instr) (op : Nat) (a : ElemArgs) (cap : Nat) (ok : Nat → Prop) (b : Beat) (l : List Beat) (e : Env),
    e = (s.tile s.curTile).env s.el → slabOp e i = some (op, a, cap, ok) → canTurn s op a → headed s.el 0 b →
    s.el.run.beats = l →
    (s.el.run.drains = [] → slabBeat l b cap → takes i s (from1 0 1) [] [] { s.el.run with beats := l ++ [b] }) ∧
    (s.el.run.drains = [] → l = [] → b.kind = .data ∨ b.kind = .tail → slabSends i s [badSolo] s.el.run) ∧
    (s.el.run.drains = [] → l = [] → b.kind = .loopend → slabSends i s [b] s.el.run) ∧
    (s.el.run.drains = [] → l ≠ [] → b.kind = .data → cap ≤ l.length →
      slabSends i s [badSolo] { s.el.run with beats := [], drains := [0] }) ∧
    (s.el.run.drains = [0] → l = [] → b.kind = .data ∨ b.kind = .tail →
      takes i s (from1 0 1) [] [] { s.el.run with drains := if b.kind = .data then [0] else [] }) ∧
    (s.el.run.drains = [] → l ≠ [] → b.kind = .tail → l.length + 1 ≤ cap → ok (l.length + 1) →
      ∃ t bs g, exec i s = .next t ∧ onlyHere s t ∧ (∀ o < 4, t.el.port o = (s.el.port o).drop (from1 0 1 o)) ∧
        t.el.run = { s.el.run with beats := [] } ∧ t.el.gen 0 = g ∧ t.el.out = s.el.out ∧
        t.el.pipe = s.el.pipe ++ issuedBoth s.el (firstOut s 4) bs ∧
        (∀ z, i = .elQmx z → e.out.kind = .mx → g = stepped s.el (slabValues e.fmt (l ++ [b])).length (s.el.gen 0) ∧
          bs = mxSlab e.out ((l ++ [b]).any (·.poi)) (mxQuantiseAll e.out s.el.round
            (pieces 32 ((slabValues e.fmt (l ++ [b])).length / 32) (slabValues e.fmt (l ++ [b]))) (s.el.gen 0)).1) ∧
        (∀ z, i = .elDqmx z → e.out.kind = .float → e.fmt.kind = .mx → ∀ vs : List FVal,
          vs = (mxSlabValues e.fmt ((l ++ [b]).map fun c => c.data.toNat)).flatten →
          bs.length = vs.length / (64 / e.out.w) ∧
          (g = if e.out.code = 0x10 then s.el.gen 0 else stepped s.el vs.length (s.el.gen 0)) ∧
          (∀ c ∈ bs, c.poi = (l ++ [b]).any (·.poi)) ∧
          ((l ++ [b]).any (·.poi) = false → ∀ q < vs.length, lane e.out.w (bs.getD (q / (64 / e.out.w)) {}).data.toNat
              (q % (64 / e.out.w)) =
            e.out.fl.roundExact e.out.b s.el.round (drawn s.el (s.el.gen 0) q) (vs.getD q (.nan true)).exact)))

/-- Block scaling and the slab operations. -/
def Obligations.BlocksAndSlabs : Prop := Sys2Proof.Claims.BlockScale ∧ Sys2Proof.Claims.Slabs

namespace Sys2Proof.Claims
open Sys2Proof Sys2Proof.Machine

/-- Code and fields of an address generator (R140). -/
def generatorOf : Instr → Option (Nat × ElemArgs)
  | .elAld a => some (0x60, a)
  | .elAst a => some (0x61, a)
  | .elAgth a => some (0x62, a)
  | .elAsct a => some (0x63, a)
  | .elAamo a => some (0x64, a)
  | .elAbnk a => some (0x65, a)
  | .elAchk a => some (0x67, a)
  | _ => none

/-- Offset of copy k: BASE, every present counter times its step, k times LSTEP (R143). -/
def nestOffset (r : Run) (k : Nat) : Int :=
  sext (look 0 r.held 0x16) 56 +
    ((List.range r.idx.length).map fun d => (r.idx.getD d 0 : Int) * sext (look 0 r.held (0x18 + d)) 56).sum +
    (k : Int) * sext (look 8 r.held 0x1F) 56

/-- AOP, CAPM and LONE of the open run (R141). -/
def runMode (r : Run) : Nat := look 0x300 r.held 0x1E

/-- Data ports of an operation in order, A first (R140). -/
def dataPorts (op : Nat) (r : Run) : List Nat :=
  if op = 0x61 ∨ op = 0x62 ∨ op = 0x67 then [0] else if op = 0x63 then [0, 1]
  else if op = 0x64 then (if runMode r / 4096 = 9 then [0, 1, 2] else [0, 1]) else []

/-- The units copy k takes of the data ports (R109, R131): ast takes a pair whole. -/
def unitsOf (x : Slot) (op : Nat) (k : Nat) : List (List Beat) :=
  (dataPorts op x.run).map fun o =>
    if op = 0x61 then ((firstUnits x.copies (x.port o)).getD []).getD k [] else [((x.port o).getD k {}).beat]

/-- Beats that leave port o. -/
def generatorTakes (x : Slot) (op o : Nat) : Nat :=
  if o ∈ dataPorts op x.run then
    (if op = 0x61 then ((firstUnits x.copies (x.port o)).getD []).flatten.length else x.copies) else 0

/-- Address and size of copy k's access (R143, R149). -/
def accessAt (m : Fmt) (op : Nat) (r : Run) (k : Nat) (us : List (List Beat)) : Int × Nat :=
  let b := (us.headD []).headD {}
  if op = 0x67 then (b.data.toNat, 2 ^ (look 0x13 r.held 0x20 % 16))
  else (r.cap.lo.toNat + nestOffset r k +
      (if op = 0x60 ∨ op = 0x61 then 0 else b.data.toInt * 2 ^ (look 0 r.held 0x17 % 16)),
    if op = 0x60 then (if (runMode r).testBit 11 then 16 else 8) else if op = 0x61 then 8 * (us.headD []).length else m.w / 8)

/-- The permissions copy k needs (R140, R145). -/
def accessPerms (op : Nat) (r : Run) (us : List (List Beat)) : Nat :=
  let u := us.headD []
  if op = 0x60 ∨ op = 0x62 then 0x1
  else if op = 0x64 then 0x103
  else if op = 0x67 then look 0x13 r.held 0x20 / 16 % 65536
  else if u.length = 2 ∧ (u.headD {}).tag = true ∧ (u.headD {}).poi = false
    then 0x2 + 0x8 + (if ({ lo := (u.headD {}).data, hi := (u.getD 1 {}).data } : Cap).perms.testBit 11 then 0 else 0x1000)
  else 0x2

/-- R143, R146: an access passes its check, in the context x of the group. -/
def accessPasses (s : State) (x op : Nat) (r : Run) (a : Int) (n perms : Nat) : Prop :=
  r.cap.tag = true ∧ r.cap.sealType = 0 ∧ r.cap.perms.testBit 13 = false ∧ r.cap.perms &&& perms = perms ∧ 0 ≤ a ∧ a < 2 ^ 64 ∧
  canonical (BitVec.ofInt 64 a) = true ∧ r.cap.base ≤ a % 2 ^ 57 ∧ a % 2 ^ 57 + n ≤ r.cap.top ∧ a % n = 0 ∧
  (op ≠ 0x67 → s.denied x r.cap (BitVec.ofInt 64 a) n (op = 0x61 ∨ op = 0x63 ∨ op = 0x64) = false ∧
    (s.touchesWindow x (a % 2 ^ 57).toNat n = true ∨
      ((s.slot s.curTile (40 + runMode r % 8)).st ≠ .empty ∧ (s.slot s.curTile (40 + runMode r % 8)).op = 0x66)))

/-- The KIND that a beat's result carries (R111). -/
def plainKind (k : Kind) : Kind := if k = .caplo ∨ k = .caphi then .data else k

/-- The request copy k issues (R144, R145), its number aside. -/
def accessRequest (op : Nat) (r : Run) (k : Nat) (a : Int) (n : Nat) (us : List (List Beat)) (id : Nat) : Req :=
  let u := us.headD []
  let b := (us.getD 1 []).headD {}
  let c := (us.getD 2 []).headD {}
  let q : Req := { id, va := BitVec.ofInt 64 a, size := n, cap := r.cap, xslot := 40 + runMode r % 8, port := runMode r / 8 % 16,
                   comm := (look 0 r.held 0x21).testBit 0 && op != 0x64, copy := k,
                   framing := if op = 0x60 ∨ op = 0x61 then .data else plainKind (u.headD {}).kind }
  if op = 0x61 then { q with kind := .store, data := (u.headD {}).data, data2 := (u.getD 1 {}).data,
                             tag := u.length = 2 && (u.headD {}).tag, poi := u.any (·.poi) }
  else if op = 0x63 then { q with kind := .store, data := b.data, poi := b.poi }
  else if op = 0x64 then { q with kind := .amo (runMode r / 4096 % 16), data := b.data, cmp := c.data,
                                  poi := b.poi || (runMode r / 4096 % 16 == 9 && c.poi) }
  else { q with kind := .load }

/-- A generator's open run can fire with ordinary beats (R101, R142): nothing but waiting requests stands before it. -/
def runFires (s : State) (op : Nat) (a : ElemArgs) : Prop :=
  s.el.st ≠ .empty ∧ s.el.word = BitVec.ofNat 32 (op * 2 ^ 24 + a.bits) ∧ s.genReady s.curTile s.curSlot = true ∧
  s.el.run.isOpen = true ∧ s.el.run.stop = none ∧ s.el.run.capPoi = false ∧
  (∀ q ∈ s.el.run.reqs, q.reply = none) ∧ look 0x300 s.el.run.held 0x1E < 65536 ∧
  ∀ o ∈ dataPorts op s.el.run, ∀ b ∈ (s.el.port o).take (generatorTakes s.el op o), b.beat.kind ≠ .loopend

end Sys2Proof.Claims

/-- R142-R145, R148, R149: a data firing whose copies pass their checks issues their requests, or sends abnk's offsets or achk's
addresses, and steps the counters; one that fails stops the generator; a LOOPEND due is sent; axlat takes an address. -/
def Sys2Proof.Claims.Generators : Prop :=
  ∀ (s : State) (i : Instr) (op : Nat) (a : ElemArgs) (m : Fmt) (x : Nat), m = (s.tile s.curTile).fmt s.el.fsel →
    x = (s.group (s.handleOf s.curTile)).ctx → generatorOf i = some (op, a) → runFires s op a →
    (s.el.run.loopDue = none → (stepNest s.el.run.counts s.el.run.idx).2 = 0 →
      (op ≠ 0x65 → op ≠ 0x67 →
        (∀ k < s.el.copies, (op = 0x60 ∨ op = 0x61 ∨ (((unitsOf s.el op k).headD []).headD {}).poi = false) ∧
          accessPasses s x op s.el.run (accessAt m op s.el.run k (unitsOf s.el op k)).1
            (accessAt m op s.el.run k (unitsOf s.el op k)).2 (accessPerms op s.el.run (unitsOf s.el op k))) →
        ∃ t n, exec i s = .next t ∧ onlyHere s t ∧ (∀ o < 4, t.el.port o = (s.el.port o).drop (generatorTakes s.el op o)) ∧
          t.el.out = s.el.out ∧ t.el.run = { s.el.run with
            firings := s.el.run.firings + 1
            idx := (stepNest s.el.run.counts s.el.run.idx).1
            stored := n
            reqs := s.el.run.reqs ++ (List.range s.el.copies).map fun k =>
              accessRequest op s.el.run k (accessAt m op s.el.run k (unitsOf s.el op k)).1
                (accessAt m op s.el.run k (unitsOf s.el op k)).2 (unitsOf s.el op k) (s.ids + k) }) ∧
      (op = 0x65 ∨ op = 0x67 → s.el.run.reqs = [] →
        (∀ k < s.el.copies, if op = 0x65 then 0 ≤ nestOffset s.el.run k ∧ nestOffset s.el.run k < 65536
          else (((unitsOf s.el op k).headD []).headD {}).poi = false ∧
            accessPasses s x op s.el.run (accessAt m op s.el.run k (unitsOf s.el op k)).1
              (accessAt m op s.el.run k (unitsOf s.el op k)).2 (accessPerms op s.el.run (unitsOf s.el op k))) →
        ∃ t, exec i s = .next t ∧ onlyHere s t ∧ (∀ o < 4, t.el.port o = (s.el.port o).drop (generatorTakes s.el op o)) ∧
          t.el.out = s.el.out ++ sent s.el.cx ((List.range s.el.copies).map fun k =>
            if op = 0x65 then { data := BitVec.ofInt 64 (nestOffset s.el.run k) }
            else { data := (((unitsOf s.el op k).headD []).headD {}).data,
                   kind := plainKind (((unitsOf s.el op k).headD []).headD {}).kind }) ∧
          t.el.run = { s.el.run with firings := s.el.run.firings + 1, idx := (stepNest s.el.run.counts s.el.run.idx).1 }) ∧
      (op ≠ 0x65 → (op = 0x60 ∨ op = 0x61 ∨ (((unitsOf s.el op 0).headD []).headD {}).poi = false) →
        ¬accessPasses s x op s.el.run (accessAt m op s.el.run 0 (unitsOf s.el op 0)).1
          (accessAt m op s.el.run 0 (unitsOf s.el op 0)).2 (accessPerms op s.el.run (unitsOf s.el op 0)) →
        ∃ t g, exec i s = .next t ∧ onlyHere s t ∧ t.el.run = { s.el.run with stop := some g, stopWords := [] } ∧
          g.addr = BitVec.ofInt 64 (accessAt m op s.el.run 0 (unitsOf s.el op 0)).1 ∧ g.lanes % 2 = 1 ∧
          { t.el with run := s.el.run } = s.el)) ∧
    (∀ d, s.el.run.loopDue = some d → s.el.run.reqs = [] → ∃ t, exec i s = .next t ∧ onlyHere s t ∧ t.el.run.loopDue = none ∧
      t.el.out = s.el.out ++ (List.range (if op = 0x61 then 0 else if (runMode s.el.run).testBit 10 then 1 else s.el.copies)).flatMap
        fun _ => sent s.el.cx [loopOf d] ++ (if op = 0x60 then sent s.el.cy [loopOf d] else []))

/-- R142, R150: a generator that takes a capability opens its run with the pair at the head of P and the parameters in force; axlat
takes the address at the head of A for a look-up. -/
def Sys2Proof.Claims.RunsOpen : Prop :=
  ∀ (s : State) (i : Instr) (op : Nat) (a : ElemArgs), s.el.st ≠ .empty → s.el.word = BitVec.ofNat 32 (op * 2 ^ 24 + a.bits) →
    s.genReady s.curTile s.curSlot = true →
    (generatorOf i = some (op, a) → op ≠ 0x65 → s.el.run.isOpen = false → s.el.run.loopDue = none → s.el.run.stop = none →
      ∀ lo hi l, s.el.portP = lo :: hi :: l → ∃ t, exec i s = .next t ∧ t.el.portP = l ∧ t.el.run.held = s.el.params ∧
        t.el.run.cap = { lo := lo.beat.data, hi := hi.beat.data,
                         tag := decide (lo.beat.kind = .caplo ∧ hi.beat.kind = .caphi) && lo.beat.tag }) ∧
    (∀ b, op = 0x66 → headed s.el 0 b → ∃ t, exec (.elAxlat a) s = .next t ∧ onlyHere s t ∧ t.el.portA = s.el.portA.drop 1 ∧
      t.el.run = { s.el.run with lookups := s.el.run.lookups ++ [b] })

/-- The generators and the opening of their runs. -/
def Obligations.GeneratorRuns : Prop := Sys2Proof.Claims.Generators ∧ Sys2Proof.Claims.RunsOpen

namespace Sys2Proof.Claims
open Sys2Proof Sys2Proof.Machine

/-- No row of a bank of the acting tile is left from another owner, and none of its own is still in the spill area (R306, R350). -/
def banksOwned (s : State) : Prop :=
  (s.tile s.curTile).away = [] ∧ ∀ i < 8, ∀ r ∈ (s.bank s.curTile i).owners, (s.tile s.curTile).owner = some r.2

/-- The place in its bank that an offset beat names for n bytes in a window of len bytes from base; none where the offset is bad
(R155). -/
def placeIn (b : Beat) (n align base len : Nat) : Option Nat :=
  if b.data.toNat % 2 ^ 32 % align = 0 ∧ b.data.toNat % 2 ^ 32 + n ≤ len then some (base + b.data.toNat % 2 ^ 32) else none

/-- Eight bytes of a bank as a word, and their poison (R155). -/
def wordIn (b : Bank) (k : Nat) : Word := BitVec.ofNat 64 (fromBytes (getBytes b.cells k 8))
/-- A mark lies among the n bytes at k; a bank marks its bytes by fours. -/
def spoiltIn (b : Bank) (k n : Nat) : Bool := b.poison.any fun j => decide (4 * j < k + n ∧ k < 4 * j + 4)

/-- What a read named by beat o returns, in a window of len bytes from base, its KIND d unless it is a pair (R111, R155); a pair bears
a tag where it is one granule (log 85). -/
def readOf (capw : Bool) (base len : Nat) (b : Bank) (d : Kind) (o : Beat) : List Beat :=
  match placeIn o (if capw then 16 else 8) (if capw then 16 else 8) base len with
  | none => [{ kind := d, poi := true }]
  | some k =>
    if o.poi then [{ kind := d, poi := true }]
    else if capw then
      (if spoiltIn b k 16 then [{ kind := .caplo, poi := true }, { kind := .caphi, poi := true }]
       else [{ data := wordIn b k, kind := .caplo, tag := decide (k % 16 = 0) && b.tags.contains (k / 16) },
             { data := wordIn b (k + 8), kind := .caphi }])
    else if spoiltIn b k 8 then [{ kind := d, poi := true }] else [{ data := wordIn b k, kind := d }]

/-- What a write of unit u at k leaves in a bank (R155): those bytes and every other byte; the marks of its beats; the tags of its
granules, cleared but for a pair's. -/
def wroteIn (b c : Bank) (k : Nat) (u : List Beat) : Prop :=
  getBytes c.cells k (8 * u.length) = u.flatMap (fun e => toBytes 8 e.data.toNat) ∧
  (∀ j, j < k ∨ k + 8 * u.length ≤ j → getByte c.cells j = getByte b.cells j) ∧
  (∀ j, c.poison.contains j = if 4 * j < k + 8 * u.length ∧ k < 4 * j + 4 then u.any (·.poi) else b.poison.contains j) ∧
  ∀ g, c.tags.contains g =
    if u.length = 2 ∧ k % 16 = 0 ∧ u.any (·.poi) = false ∧ g = k / 16 then (u.headD {}).tag
    else if 16 * g < k + 8 * u.length ∧ k < 16 * g + 16 then false
    else b.tags.contains g

/-- Base and length of the acting slot's window (R154). -/
def windowOf (x : Slot) : Nat × Nat := (x.param 0x10 (65536 * 2 ^ 17) % 2 ^ 17, x.param 0x10 (65536 * 2 ^ 17) / 2 ^ 17)

/-- MOPT: CAPW (R154). -/
def pairsOf (x : Slot) : Bool := (x.param 0x11 0).testBit 1

/-- Beat k of port o. -/
def beatAt (x : Slot) (o k : Nat) : Beat := ((x.port o).getD k {}).beat

/-- A region-timed bank element may fire, its banks are the tile's own, and no beat it takes is a LOOPEND; us o k is the unit copy k
takes of port o (R101, R131, R153). -/
def bankFires (s : State) (op : Nat) (a : ElemArgs) (ports : List Nat) (us : Nat → Nat → List Beat) : Prop :=
  (s.el.st = .armed ∨ s.el.st = .gated) ∧ s.el.held = false ∧ s.el.word = BitVec.ofNat 32 (op * 2 ^ 24 + a.bits) ∧
  (∀ o < 4, ((s.el.port o).headD {}).beat.cfg = false) ∧ State.hasRoom s.el 2 = true ∧ banksOwned s ∧ 32 ≤ s.curSlot ∧
  (∀ k < s.el.copies, cellsWf (s.bank s.curTile (s.curSlot - 32 + k)).cells = true) ∧
  ∀ o ∈ ports, (∀ k < s.el.copies, ordinaryUnit (us o k)) ∧
    firstUnits s.el.copies (s.el.port o) = some ((List.range s.el.copies).map (us o))

/-- What a firing of banks leaves: the beats taken, results for CX and CY, and the copies' banks; no other bank of a tile, no other
slot and nothing else of the machine differs. -/
def bankFired (s t : State) (ports : List Nat) (us : Nat → Nat → List Beat) (bx cy : Nat → List Beat) : Prop :=
  (∀ p n, p ≠ s.curTile ∨ n ≠ s.curSlot → t.slot p n = s.slot p n) ∧ nothingElse s t ∧
  (∀ p, { t.tile p with slots := [], banks := [] } = { s.tile p with slots := [], banks := [] }) ∧
  (∀ p i, p ≠ s.curTile ∨ i < s.curSlot - 32 ∨ s.curSlot - 32 + s.el.copies ≤ i → t.bank p i = s.bank p i) ∧
  (∀ o < 4, t.el.port o = if o ∈ ports
    then (s.el.port o).drop ((List.range s.el.copies).map fun k => (us o k).length).sum else s.el.port o) ∧
  t.el.pipe = s.el.pipe ++ (List.range s.el.copies).flatMap fun k =>
    (bx k).flatMap (issued s.el.cx (s.fc + 2)) ++ (cy k).flatMap (issued s.el.cy (s.fc + 2))

/-- The bank of copy k. -/
def bankOf (s : State) (k : Nat) : Bank := s.bank s.curTile (s.curSlot - 32 + k)

/-- MOPT: AOP and whether the format of mrmw has 32 bits; LUTW in bits; TLEN (R154, R156, R157). -/
def aopOf (x : Slot) : Nat := x.param 0x11 0 / 16 % 16
/-- The lane width of mrmw. -/
def modifyWidth (x : Slot) : Nat := if (x.param 0x11 0).testBit 0 then 32 else 64
/-- The lane width of mlut. -/
def tableWidth (x : Slot) : Nat := 8 * 2 ^ (x.param 0x11 0 / 4 % 4)

end Sys2Proof.Claims

/-- R153, R155, R156, R157: mrd returns the beat or pair at each offset; mwr writes its unit, then reads; mrmw returns the old beat and
writes AOP's lanes; mlut returns the entries its lanes name; a bad offset or index returns poison and writes nothing. -/
def Sys2Proof.Claims.BankAccesses : Prop :=
  ∀ (s : State) (a : ElemArgs) (us : Nat → Nat → List Beat) (o : Nat → Nat → Beat), (∀ p k, o p k = (us p k).headD {}) →
    (∀ ports, ports = (if s.el.cy = 0x1FF then [0] else [0, 1]) → bankFires s 0x80 a ports us →
      ∃ t, exec (.elMrd a) s = .next t ∧ (∀ k < s.el.copies, t.bank s.curTile (s.curSlot - 32 + k) = bankOf s k) ∧
        bankFired s t ports us
          (fun k => readOf (pairsOf s.el) (windowOf s.el).1 (windowOf s.el).2 (bankOf s k) (plainKind (o 0 k).kind) (o 0 k))
          (fun k => if s.el.cy = 0x1FF then [] else
            readOf (pairsOf s.el) (windowOf s.el).1 (windowOf s.el).2 (bankOf s k) (plainKind (o 0 k).kind) (o 1 k))) ∧
    (∀ ports, ports = (if s.el.cx = 0x1FF then [0, 1] else [0, 1, 2]) → bankFires s 0x81 a ports us →
      ∃ t, exec (.elMwr a) s = .next t ∧
        (∀ k < s.el.copies, match placeIn (o 0 k) (8 * (us 1 k).length) 8 (windowOf s.el).1 (windowOf s.el).2 with
          | none => t.bank s.curTile (s.curSlot - 32 + k) = bankOf s k
          | some j => if (o 0 k).poi then t.bank s.curTile (s.curSlot - 32 + k) = bankOf s k
              else wroteIn (bankOf s k) (t.bank s.curTile (s.curSlot - 32 + k)) j (us 1 k)) ∧
        bankFired s t ports us (fun k => if s.el.cx = 0x1FF then [] else
          readOf (pairsOf s.el) (windowOf s.el).1 (windowOf s.el).2 (t.bank s.curTile (s.curSlot - 32 + k)) (plainKind (o 0 k).kind)
            (o 2 k)) (fun _ => [])) ∧
    (∀ ports, ports = (if aopOf s.el = 9 then [0, 1, 2] else [0, 1]) → bankFires s 0x82 a ports us → (∀ k, aopOf s.el ≠ 9 → us 2 k = []) →
      ∃ t, exec (.elMrmw a) s = .next t ∧
        bankFired s t ports us (fun k => match placeIn (o 0 k) 8 8 (windowOf s.el).1 (windowOf s.el).2 with
          | none => [{ kind := plainKind (o 0 k).kind, poi := true }]
          | some j => if (o 0 k).poi || (o 1 k).poi || (o 2 k).poi || spoiltIn (bankOf s k) j 8
              then [{ kind := plainKind (o 0 k).kind, poi := true }]
              else [{ data := wordIn (bankOf s k) j, kind := plainKind (o 0 k).kind }]) (fun _ => []) ∧
        ∀ k < s.el.copies, ∀ j, placeIn (o 0 k) 8 8 (windowOf s.el).1 (windowOf s.el).2 = some j → (o 0 k).poi = false →
          (o 1 k).poi = false → (o 2 k).poi = false → spoiltIn (bankOf s k) j 8 = false →
          (∀ y, y < j ∨ j + 8 ≤ y → getByte (t.bank s.curTile (s.curSlot - 32 + k)).cells y = getByte (bankOf s k).cells y) ∧
          ∀ l < 64 / modifyWidth s.el, lane (modifyWidth s.el) (wordIn (t.bank s.curTile (s.curSlot - 32 + k)) j).toNat l =
            if aopOf s.el = 9
            then (if lane (modifyWidth s.el) (wordIn (bankOf s k) j).toNat l = lane (modifyWidth s.el) (o 2 k).data.toNat l
              then lane (modifyWidth s.el) (o 1 k).data.toNat l else lane (modifyWidth s.el) (wordIn (bankOf s k) j).toNat l)
            else amoValue (modifyWidth s.el) (aopOf s.el) (lane (modifyWidth s.el) (wordIn (bankOf s k) j).toNat l)
              (lane (modifyWidth s.el) (o 1 k).data.toNat l)) ∧
    (bankFires s 0x87 a [0] us → ∃ (t : State) (bs : Nat → Beat), exec (.elMlut a) s = .next t ∧ bankFired s t [0] us (fun k => [bs k]) (fun _ => []) ∧
      (∀ k < s.el.copies, t.bank s.curTile (s.curSlot - 32 + k) = bankOf s k) ∧
      ∀ k < s.el.copies,
        (bs k).kind = plainKind (o 0 k).kind ∧
        (((o 0 k).poi = true ∨ ∃ l < 64 / tableWidth s.el, s.el.param 0x12 65536 ≤ lane (tableWidth s.el) (o 0 k).data.toNat l ∨
            (windowOf s.el).2 < (lane (tableWidth s.el) (o 0 k).data.toNat l + 1) * (tableWidth s.el / 8)) → (bs k).poi = true) ∧
        ((bs k).poi = false → ∀ l < 64 / tableWidth s.el, lane (tableWidth s.el) (bs k).data.toNat l =
          fromBytes (getBytes (bankOf s k).cells ((windowOf s.el).1 +
            lane (tableWidth s.el) (o 0 k).data.toNat l * (tableWidth s.el / 8)) (tableWidth s.el / 8))) ∧
        ((o 0 k).poi = false → (bankOf s k).poison = [] → (∀ l < 64 / tableWidth s.el,
          lane (tableWidth s.el) (o 0 k).data.toNat l < s.el.param 0x12 65536 ∧
          (lane (tableWidth s.el) (o 0 k).data.toNat l + 1) * (tableWidth s.el / 8) ≤ (windowOf s.el).2) → (bs k).poi = false))

/-- R158, R159, R160: mfifo takes a unit while its entries are free and, where CX has room, sends its oldest beat, a pair whole; mdbuf swaps its halves at
a LOOPEND of SDIM or more on both sides, writes the one and reads the other; mcopy and mfill take a command. -/
def Sys2Proof.Claims.BankBuffers : Prop :=
  ∀ (s : State) (a : ElemArgs),
    (∀ u, canTurn s 0x83 a → unitAt s.el 0 u → u.length ≤ (windowOf s.el).2 / 8 - s.el.run.beats.length →
      takes (.elMfifo a) s (from1 0 u.length)
        ((s.el.run.beats ++ u).take (if ((s.el.run.beats ++ u).headD {}).kind = .caplo then 2 else 1)) []
        { s.el.run with beats := (s.el.run.beats ++ u).drop (if ((s.el.run.beats ++ u).headD {}).kind = .caplo then 2 else 1) }) ∧
    (∀ u, canAct s 0x83 a → State.roomFor s.el s.el.cx = false → unitAt s.el 0 u →
      u.length ≤ (windowOf s.el).2 / 8 - s.el.run.beats.length →
      takes (.elMfifo a) s (from1 0 u.length) [] [] { s.el.run with beats := s.el.run.beats ++ u }) ∧
    (∀ b, canTurn s 0x84 a → banksOwned s → headed s.el 0 b → b.kind = .loopend →
      s.el.param 0x11 0 / 256 % 8 ≤ b.data.toNat % 8 →
      (s.el.run.swapped = false →
        takes (.elMdbuf a) s (from1 0 1) [] [] { s.el.run with half := !s.el.run.half, swapped := true }) ∧
      (∀ c, s.el.run.swapped = true → headed s.el 2 c → c.kind = .loopend → s.el.param 0x11 0 / 256 % 8 ≤ c.data.toNat % 8 →
        takes (.elMdbuf a) s (fun o => from1 0 1 o + from1 2 1 o) [if b.poi then spoiled c else c] [] { s.el.run with half := !s.el.run.half, swapped := true })) ∧
    (∀ c w, canTurn s 0x84 a → banksOwned s → s.el.portA = [] → unitAt s.el 2 w → c = w.headD {} → c.kind ≠ .loopend →
      s.el.run.swapped = true → takes (.elMdbuf a) s (from1 2 w.length)
        (readOf (pairsOf s.el) ((windowOf s.el).1 + if s.el.run.half then 0 else (windowOf s.el).2 / 2) ((windowOf s.el).2 / 2)
          (s.bank s.curTile (s.curSlot - 32)) .data c) [] s.el.run) ∧
    (∀ b w u j, canTurn s 0x84 a → banksOwned s → s.el.portC = [] → unitAt s.el 0 w → b = w.headD {} → unitAt s.el 1 u →
      b.kind ≠ .loopend → ordinaryUnit u → b.poi = false → cellsWf (s.bank s.curTile (s.curSlot - 32)).cells = true →
      placeIn b (8 * u.length) 8 ((windowOf s.el).1 + if s.el.run.half then (windowOf s.el).2 / 2 else 0) ((windowOf s.el).2 / 2) =
        some j →
      ∃ t, exec (.elMdbuf a) s = .next t ∧ wroteIn (s.bank s.curTile (s.curSlot - 32)) (t.bank s.curTile (s.curSlot - 32))
          j u ∧ t.el.portA = s.el.portA.drop w.length ∧ t.el.portB = s.el.portB.drop u.length ∧ t.el.out = s.el.out) ∧
    (∀ b w, unitAt s.el 0 w → b = w.headD {} → b.kind ≠ .loopend → w.any (·.poi) = false → s.el.run.command = none →
      (∀ d len to_ src : Nat, d < 8 → 8 ≤ len → len % 8 = 0 → to_ % 8 = 0 → src % 8 = 0 → to_ + len ≤ 65536 → src + len ≤ 65536 →
        canTurn s 0x85 a → b.data.toNat = d * 2 ^ 49 + len * 2 ^ 32 + to_ * 2 ^ 16 + src →
        takes (.elMcopy a) s (from1 0 w.length) [] [] { s.el.run with command := some b, due := s.fc + len / 8 }) ∧
      (∀ len to_ : Nat, 8 ≤ len → len % 8 = 0 → to_ % 8 = 0 → to_ + len ≤ 65536 → canTurn s 0x86 a →
        b.data.toNat = len * 2 ^ 16 + to_ → takes (.elMfill a) s (from1 0 w.length) [] []
          { s.el.run with command := some b, due := s.fc + len / 8 }))

/-- A bank's accesses and its buffers. -/
def Obligations.Banks : Prop := Sys2Proof.Claims.BankAccesses ∧ Sys2Proof.Claims.BankBuffers

namespace Sys2Proof.Claims
open Sys2Proof Sys2Proof.Machine

/-- Bit j of a source of LUT i of a net (R182): A, B, the outputs of the LUTs before it, Q. -/
def netSource (a b y q i j : Nat) : Bool :=
  if j < 64 then a.testBit j else if j < 128 then b.testBit (j - 64)
  else if j < 192 then (if j - 128 < i then y.testBit (j - 128) else false) else q.testBit (j - 192)

/-- Y is what LUTs 0 to 63 give, each from its four sources through its table (R181, R183). -/
def netGives (x : Slot) (a b q y : Nat) : Prop :=
  y < 2 ^ 64 ∧ ∀ i < 64, y.testBit i = (look 0 x.luts i).testBit (32 +
    ((List.range 4).map fun k => if netSource a b y q i (look 0 x.luts i / 2 ^ (8 * k) % 256) then 2 ^ k else 0).sum)

/-- Y is what lmap's one table gives, bit by bit (R184). -/
def mapGives (x : Slot) (a b c q y : Nat) : Prop :=
  y < 2 ^ 64 ∧ ∀ i < 64, y.testBit i = (look 0 x.luts 0).testBit (32 + ((if a.testBit i then 1 else 0) +
    (if b.testBit i then 2 else 0) + (if c.testBit i then 4 else 0) + (if q.testBit i then 8 else 0)))

/-- FFEN and LOS (R181). -/
def ffMask (x : Slot) : Nat := x.param 0x11 0 + x.param 0x12 0 * 2 ^ 32
/-- LOS. -/
def outMask (x : Slot) : Nat := x.param 0x13 0 + x.param 0x14 0 * 2 ^ 32
/-- Q of copy k. -/
def heldQ (x : Slot) (k : Nat) : Nat := (look 0 x.run.q k).toNat

/-- OUT and the next Q from Y (R183): LOS chooses Q over Y, FFEN lets Y into Q. -/
def chosen (x : Slot) (y q out next : Nat) : Prop :=
  out < 2 ^ 64 ∧ next < 2 ^ 64 ∧ (∀ j < 64, out.testBit j = if (outMask x).testBit j then q.testBit j else y.testBit j) ∧
  ∀ j < 64, next.testBit j = if (ffMask x).testBit j then y.testBit j else q.testBit j

/-- An unmarked island's evaluation of one word gives OUT and the next Q (R183, R185). -/
def evaluates (x : Slot) (w out next : Nat) : Prop := ∃ y, netGives x w 0 (heldQ x 0) y ∧ chosen x y (heldQ x 0) out next

/-- FW (R181). -/
def fieldWidth (x : Slot) : Nat := x.param 0x15 0x7F90 / 512 % 64 + 1

/-- The word that the held beats of a bitstream form, less its first bits used; and how many bits it has (R185, R186). -/
def bitsHeld (r : Run) : Nat := (r.beats.foldr (fun b a => b.data.toNat + 2 ^ 64 * a) 0) / 2 ^ r.cnt
/-- Their number. -/
def bitCount (r : Run) : Nat := 64 * r.beats.length - r.cnt

/-- An island with nothing marked or poisoned, and no word that came since its held beats did (R187). -/
def clean (x : Slot) : Prop := x.run.past = none ∧ x.run.marks = [] ∧ (∀ b ∈ x.run.beats, b.poi = false) ∧ x.run.poisoned = false ∧
  x.param 0x11 0 < 2 ^ 32 ∧ x.param 0x12 0 < 2 ^ 32 ∧ x.param 0x13 0 < 2 ^ 32 ∧ x.param 0x14 0 < 2 ^ 32

/-- The run after an evaluation, but for q, marks and what P says. -/
def islandTurn (s t : State) (k : Nat → Nat) (xs : List Beat) (next : Nat) (P : Run → Prop) : Prop :=
  ∃ r : Run, turned s t k (sent s.el.cx xs ++ sent s.el.cy xs) r (s.el.gen 0) ∧ look 0 r.q 0 = BitVec.ofNat 64 next ∧ r.marks = [] ∧
    P r

end Sys2Proof.Claims

/-- R182, R183, R184: lmap and lnet, with nothing marked or poisoned and no LOOPEND, send OUT to both consumers with the KIND of A's
beat and keep Q; a LOOPEND of CLRDIM or more clears Q and goes on. -/
def Sys2Proof.Claims.Islands : Prop :=
  ∀ (s : State) (a : ElemArgs) (i : Instr) (op ports : Nat), 
    (i = .elLmap a ∧ op = 0x90 ∧ ports = s.el.param 0x15 0x7F90 / 16 % 4 ∨
      i = .elLnet a ∧ op = 0x91 ∧ ports = if (s.el.param 0x15 0x7F90).testBit 3 then 2 else 1) →
    canFire s ⟨op, a, [], 2⟩ → 0 < ports → clean s.el →
    (∀ o < ports, s.el.copies ≤ (avail (s.el.port o)).length ∧ ∀ k < s.el.copies, (beatAt s.el o k).cfg = false) →
    ((∀ o < ports, ∀ k < s.el.copies, (beatAt s.el o k).poi = false ∧ (beatAt s.el o k).kind ≠ .loopend) →
      ∃ (t : State) (out : Nat → Nat), exec i s = .next t ∧ onlyHere s t ∧
        (∀ o < 4, t.el.port o = if o < ports then (s.el.port o).drop s.el.copies else s.el.port o) ∧ t.el.run.marks = [] ∧
        t.el.pipe = s.el.pipe ++ (List.range s.el.copies).flatMap (fun k =>
          issued s.el.cx (s.fc + 2) { data := BitVec.ofNat 64 (out k), kind := resultKind (beatAt s.el 0 k).kind } ++
          issued s.el.cy (s.fc + 2) { data := BitVec.ofNat 64 (out k), kind := resultKind (beatAt s.el 0 k).kind }) ∧
        ∀ k < s.el.copies, ∃ y next, chosen s.el y (heldQ s.el k) (out k) next ∧ look 0 t.el.run.q k = BitVec.ofNat 64 next ∧
          let w := fun o => if o < ports then (beatAt s.el o k).data.toNat else 0
          if op = 0x90 then mapGives s.el (w 0) (w 1) (w 2) (heldQ s.el k) y else netGives s.el (w 0) (w 1) (heldQ s.el k) y) ∧
    (∀ d : Nat, d < 6 → (∀ o < ports, ∀ k < s.el.copies, beatAt s.el o k = loopOf d) →
      ∃ t, exec i s = .next t ∧ onlyHere s t ∧
        t.el.pipe = s.el.pipe ++ (List.range s.el.copies).flatMap (fun _ =>
          issued s.el.cx (s.fc + 2) (loopOf d) ++ issued s.el.cy (s.fc + 2) (loopOf d)) ∧
        ∀ k < s.el.copies, look 0 t.el.run.q k = if s.el.param 0x15 0x7F90 / 64 % 8 ≤ d then 0 else look 0 s.el.run.q k)

/-- R185, R186: lpack evaluates a beat, appends its FW low bits and sends every full word; lunpk evaluates FW bits of its stream; ldec
evaluates up to 64 bits and uses as many as the result's low six bits say; each refills from A. -/
def Sys2Proof.Claims.BitStreams : Prop :=
  ∀ (s : State) (a : ElemArgs) (out next : Nat), clean s.el →
    (∀ b, canTurn s 0x92 a → headed s.el 0 b → b.kind ≠ .loopend → b.poi = false → s.el.run.bitLen < 64 →
      s.el.run.bits < 2 ^ s.el.run.bitLen → evaluates s.el b.data.toNat out next →
      ∃ t, exec (.elLpack a) s = .next t ∧
        let v := s.el.run.bits + out % 2 ^ fieldWidth s.el * 2 ^ s.el.run.bitLen
        islandTurn s t (from1 0 1) (if 64 ≤ s.el.run.bitLen + fieldWidth s.el then [{ data := BitVec.ofNat 64 v }] else []) next
          fun r => r.poisoned = false ∧
            if 64 ≤ s.el.run.bitLen + fieldWidth s.el
            then r.bits = v / 2 ^ 64 ∧ r.bitLen = s.el.run.bitLen + fieldWidth s.el - 64
            else r.bits = v ∧ r.bitLen = s.el.run.bitLen + fieldWidth s.el) ∧
    (canTurn s 0x93 a → fieldWidth s.el ≤ bitCount s.el.run → s.el.run.cnt < 64 →
      evaluates s.el (bitsHeld s.el.run % 2 ^ fieldWidth s.el) out next →
      ∃ t, exec (.elLunpk a) s = .next t ∧ islandTurn s t (from1 0 0) [{ data := BitVec.ofNat 64 out }] next fun r =>
        bitCount r = bitCount s.el.run - fieldWidth s.el ∧ bitsHeld r = bitsHeld s.el.run / 2 ^ fieldWidth s.el) ∧
    (∀ b, headed s.el 0 b → b.kind ≠ .loopend →
      (canTurn s 0x93 a → bitCount s.el.run < fieldWidth s.el →
        takes (.elLunpk a) s (from1 0 1) [] [] { s.el.run with beats := s.el.run.beats ++ [b] }) ∧
      (canTurn s 0x94 a → s.el.run.isOpen = false → bitCount s.el.run < 64 →
        takes (.elLdec a) s (from1 0 1) [] [] { s.el.run with beats := s.el.run.beats ++ [b] })) ∧
    (canTurn s 0x94 a → s.el.run.isOpen = false → 64 ≤ bitCount s.el.run → s.el.run.cnt < 64 →
      evaluates s.el (bitsHeld s.el.run % 2 ^ 64) out next → out % 64 ≠ 0 →
      ∃ t, exec (.elLdec a) s = .next t ∧ islandTurn s t (from1 0 0) [{ data := BitVec.ofNat 64 (out / 64) }] next fun r =>
        bitCount r = bitCount s.el.run - out % 64 ∧ bitsHeld r = bitsHeld s.el.run / 2 ^ (out % 64))

/-- The islands and the bit streams. -/
def Obligations.IslandElements : Prop := Sys2Proof.Claims.Islands ∧ Sys2Proof.Claims.BitStreams

/-! ## Online nodes, ports and the matrix node (R59-R61, R82, R94, R162-R179, R188-R201) -/

namespace Sys2Proof.Claims
open Sys2Proof Sys2Proof.Machine

/-- The code of digit m of a token, first digit 0 (R82). -/
def digitCode (w : Word) (m : Nat) : Nat := w.toNat / 2 ^ (62 - 2 * m) % 4

/-- A token holds digit d at m. -/
def holdsDigit (w : Word) (m : Nat) (d : Int) : Prop := digitCode w m = if d = 1 then 1 else if d = -1 then 3 else 0

/-- Digit k, from 1, of the tokens held of a port; 0 beyond them (R169). -/
def heldDigit (l : List Beat) (k : Nat) : ℚ :=
  match l[(k - 1) / 32]? with
  | none => 0
  | some b => if digitCode b.data ((k - 1) % 32) = 1 then 1 else if digitCode b.data ((k - 1) % 32) = 3 then -1 else 0

/-- The prefix of j of n digits (R170). -/
def prefixValue (l : List Beat) (n j : Nat) : ℚ :=
  ((List.range (min j n)).map fun k => heldDigit l (k + 1) / 2 ^ (k + 1)).sum

/-- NTOK of the open stream. -/
def tokens (r : Run) : Nat := look 0 r.held 0x11 % 8 + 1

/-- EA, EB, EC and the output exponent of the open stream (R168). -/
def exponent (r : Run) (i : Nat) : ℤ := sext (look 0 r.held 0x10 / 2 ^ (8 * i)) 8

/-- The online delay, EO and F(j) (R167, R170), over the held operand digits. -/
def onlineOf (r : Run) : Instr → Option (Nat × ElemArgs × List Nat × (Nat → ℚ))
  | .elOadd a => some (0xA2, a, [0, 1], fun j =>
      (prefixValue r.beats (32 * tokens r) (j + 2) * 2 ^ exponent r 0 + prefixValue r.beatsB (32 * tokens r) (j + 2) * 2 ^ exponent r 1) /
        2 ^ (max (exponent r 0) (exponent r 1) + 2))
  | .elOmul a => some (0xA3, a, [0, 1], fun j =>
      prefixValue r.beats (32 * tokens r) (j + 3) * prefixValue r.beatsB (32 * tokens r) (j + 3) *
        2 ^ (exponent r 0 + exponent r 1) / 2 ^ (exponent r 0 + exponent r 1 + 1))
  | .elOmad a => some (0xA4, a, [0, 1, 2], fun j =>
      (prefixValue r.beats (32 * tokens r) (j + 3) * prefixValue r.beatsB (32 * tokens r) (j + 3) * 2 ^ (exponent r 0 + exponent r 1) +
        prefixValue r.beatsC (32 * tokens r) (j + 3) * 2 ^ exponent r 2) /
        2 ^ (max (exponent r 0 + exponent r 1) (exponent r 2) + 2))
  | _ => none

/-- R171's digits of F, up to n. -/
def recurrence (F : Nat → ℚ) (z : Nat → Int) (n : Nat) : Prop :=
  ∀ j, 1 ≤ j → j ≤ n →
    let e := 2 ^ j * (F j - ((List.range (j - 1)).map fun k => (z (k + 1) : ℚ) / 2 ^ (k + 1)).sum)
    z j = if 1 / 2 ≤ e then 1 else if e < -(1 / 2) then -1 else 0

/-- An online node's stream is open, no slab is to be discarded, no CUT stands at P, no SEED word waits for the stream's end (R179) and
no token held is poisoned or reserved. -/
def streams (s : State) (op : Nat) (a : ElemArgs) : Prop :=
  canTurn s op a ∧ s.el.run.isOpen = true ∧ s.el.run.drains = [] ∧ s.el.portP = [] ∧ s.el.run.cutNow = false ∧ s.el.run.poisoned = false ∧
  find s.el.run.held 4 = none ∧
  (∀ b ∈ s.el.run.beats ++ s.el.run.beatsB ++ s.el.run.beatsC, b.poi = false ∧ ∀ m < 32, digitCode b.data m ≠ 2)

/-- A slab of tokens is complete. -/
def complete (l : List Beat) : Prop := ∃ b, l.getLast? = some b ∧ (b.kind = .tail ∨ b.kind = .solo)

/-- A token leaves, with its framing by its place, and the stream goes on or ends (R169, R172). -/
def tokenLeaves (s t : State) (b : Beat) : Prop :=
  ∃ r : Run, turned s t (from1 0 0) (sent s.el.cx [b] ++ sent s.el.cy [b]) r (s.el.gen 0) ∧ b.poi = false ∧
    if s.el.run.cnt + 1 = tokens s.el.run
    then b.kind = (if s.el.run.cnt = 0 then .solo else .tail) ∧ r.isOpen = false ∧ r.stream = (s.el.run.stream + 1) % 2 ^ 32
    else b.kind = (if s.el.run.cnt = 0 then .head else .data) ∧ r = { s.el.run with cnt := s.el.run.cnt + 1 }

/-- D of R175 after j digits, and the bound it must exceed. -/
def difference (r : Run) (j : Nat) : ℚ :=
  2 ^ exponent r 0 * prefixValue r.beats (32 * tokens r) j - 2 ^ exponent r 1 * prefixValue r.beatsB (32 * tokens r) j

/-- The sign is certain after j digits. -/
def certain (r : Run) (j : Nat) : Prop := (2 ^ exponent r 0 + 2 ^ exponent r 1) / 2 ^ j < |difference r j|

/-- Digit j of a port is held, or its slab has ended. -/
def digitHeld (r : Run) (l : List Beat) (j : Nat) : Prop := complete l ∧ j ≤ 32 * tokens r ∨ j ≤ 32 * l.length ∧ j ≤ 32 * tokens r

/-- R175's decision: digit j and the sign. -/
def decides (r : Run) (j : Nat) (sg : Int) : Prop :=
  digitHeld r r.beats j ∧ digitHeld r r.beatsB j ∧ 1 ≤ j ∧ (∀ k, 1 ≤ k → k < j → ¬certain r k) ∧
  (j < 32 * tokens r ∧ certain r j ∨ j = 32 * tokens r) ∧
  sg = if difference r j < 0 then -1 else if difference r j = 0 then 0 else 1

end Sys2Proof.Claims

/-- R170-R176: ofrom, oadd, omul and omad send each token of 32 computed digits; oto sends the rounded value of a complete stream;
ocmp sends the place and the sign of the first certain difference; omax and omin choose by it and pass the chosen stream on. -/
def Obligations.OnlineNodes : Prop :=
  ∀ (s : State) (a : ElemArgs),
    (streams s 0xA0 a → s.el.run.accSet = true → s.el.run.acc.natAbs < 2 ^ (32 * tokens s.el.run) → s.el.run.cnt < tokens s.el.run →
      32 * (s.el.run.cnt + 1) ≤ s.el.run.pos →
      ∃ t b, exec (.elOfrom a) s = .next t ∧ tokenLeaves s t b ∧ ∀ m < 32, holdsDigit b.data m
        (if s.el.run.acc.natAbs.testBit (32 * tokens s.el.run - 1 - (32 * s.el.run.cnt + m)) then s.el.run.acc.sign else 0)) ∧
    (∀ i op ports F, onlineOf s.el.run i = some (op, a, ports, F) → streams s op a → (∀ o ∈ ports, s.el.port o = []) →
      s.el.run.cnt < tokens s.el.run → 32 * (s.el.run.cnt + 1) ≤ s.el.run.pos →
      ∃ t b z, exec i s = .next t ∧ tokenLeaves s t b ∧ recurrence F z (32 * (s.el.run.cnt + 1)) ∧
        ∀ m < 32, holdsDigit b.data m (z (32 * s.el.run.cnt + m + 1))) ∧
    (streams s 0xA1 a → complete s.el.run.beats → ∃ t r x g, exec (.elOto a) s = .next t ∧
      turned s t (from1 0 0)
        (sent s.el.cx [{ data := BitVec.ofNat 64 x }] ++ sent s.el.cy [{ data := BitVec.ofNat 64 x }]) r g ∧ r.isOpen = false ∧
      g = (if s.el.run.mode = .sr then stepGen (s.el.gen 0) else s.el.gen 0) ∧
      ∃ y, Val.ofExact y = .real (2 ^ exponent s.el.run 0 * prefixValue s.el.run.beats (32 * tokens s.el.run) (32 * tokens s.el.run)) ∧
        x = ((s.tile s.curTile).fmt s.el.fsel).fl.roundExact ((s.tile s.curTile).fmt s.el.fsel).b s.el.run.mode g.toNat y) ∧
    (∀ j sg, streams s 0xA5 a → decides s.el.run j sg → ∃ t r, exec (.elOcmp a) s = .next t ∧
      turned s t (from1 0 0) (sent s.el.cx [{ data := BitVec.ofNat 64 (j * 2 ^ 32) + (BitVec.ofInt 32 sg).setWidth 64 }] ++
        sent s.el.cy (if j < 32 * tokens s.el.run then [{ data := BitVec.ofNat 64 s.el.run.stream }] else [])) r (s.el.gen 0) ∧
      r.isOpen = false) ∧
    (∀ i op, (i = .elOmax a ∧ op = 0xA6 ∨ i = .elOmin a ∧ op = 0xA7) → streams s op a →
      (∀ j sg, s.el.run.accSet = false → decides s.el.run j sg →
        takes i s (from1 0 0) [] [{ data := if (if op = 0xA6 then sg < 0 else 0 < sg) then 1 else 0 }]
          { s.el.run with accSet := true, turn := decide (if op = 0xA6 then sg < 0 else 0 < sg) }) ∧
      (∀ b l, s.el.run.accSet = true → (if s.el.run.turn then s.el.run.beatsB else s.el.run.beats).drop s.el.run.cnt = b :: l →
        ∃ t r, exec i s = .next t ∧ turned s t (from1 0 0) (sent s.el.cx [b]) r (s.el.gen 0) ∧
          if b.kind = .tail ∨ b.kind = .solo then r.isOpen = false else r = { s.el.run with cnt := s.el.run.cnt + 1 }))

namespace Sys2Proof.Claims
open Sys2Proof Sys2Proof.Machine

/-- No slot but the acting one differs; of the tiles what stands in their mesh channels, streams and control ports may; of the machine
the L1 generations, what `groupsKept` names, the records raised and the coming events. -/
def onlySlot (s t : State) : Prop :=
  (∀ p n, p ≠ s.curTile ∨ n ≠ s.curSlot → t.slot p n = s.slot p n) ∧ groupsKept s t ∧ s.agenda <+: t.agenda ∧ s.now <:+ t.now ∧
  s.raised <+: t.raised ∧
  (∀ p, { t.tile p with slots := [], inch := [], edgeHeld := [], unit0 := {}, unit1 := {}, tokens := [], waves := [],
                        completions := [], leaving := [] } =
    { s.tile p with slots := [], inch := [], edgeHeld := [], unit0 := {}, unit1 := {}, tokens := [], waves := [],
                    completions := [], leaving := [] }) ∧
  { t with tiles := s.tiles, groups := s.groups, agenda := s.agenda, now := s.now, raised := s.raised, ids := s.ids,
           l1gen := s.l1gen } = s

/-- An inbound channel of an edge of the acting tile: edge e, channel c. -/
def inbound (s : State) (p e c : Nat) : List Arrived := look [] (s.tile p).inch (8 * e + c)

/-- The acting edge port can take its turn, and only channel c of its edge holds beats, b at the head. -/
def edgeTurn (s : State) (op : Nat) (a : ElemArgs) (e c : Nat) (b : Arrived) (l : List Arrived) : Prop :=
  canTurn s op a ∧ e < 4 ∧ c < 8 ∧ s.curSlot = 60 + e ∧ inbound s s.curTile e c = b :: l ∧
  (b.beat.kind = .caplo → l ≠ []) ∧ ∀ d < 8, d ≠ c → inbound s s.curTile e d = []

/-- Edge f of the acting tile may send channel c to tile q (R73, R164): nothing is held there, the link is permitted, the channel of the
neighbour has room. -/
def edgeOpen (s : State) (f c q : Nat) : Prop :=
  find (s.tile s.curTile).edgeHeld (8 * f + c) = none ∧ State.logicalNeighbour s s.curTile f = some q ∧ q ≠ s.curTile ∧
  layerOfTile s.curTile = layerOfTile q ∧ (s.tile s.curTile).permit.getLsbD (3 - f) = true ∧
  (inbound s q ((f + 2) % 4) c).length < 1024

end Sys2Proof.Claims

/-- R163, R164: eterm takes a masked channel's beat to the consumers EIN names; epass and eturn pass it to the same channel of the
opposite edge, or of EDIR, where the neighbour receives it; eroute leaves it; an unmapped channel's beat is discarded. -/
def Sys2Proof.Claims.EdgePorts : Prop :=
  ∀ (s : State) (a : ElemArgs) (e c : Nat) (b : Arrived) (l : List Arrived),
    (edgeTurn s 0xC3 a e c b l → ∃ t, exec (.elEterm a) s = .next t ∧ onlySlot s t ∧ inbound t s.curTile e c = l ∧
      t.el.out = s.el.out ++
        (if (s.el.param 0x10 0).testBit c = true ∧ s.el.param 0x13 0 % 16 = 8 + c then sent s.el.cx [b.beat] else []) ++
        (if (s.el.param 0x10 0).testBit c = true ∧ s.el.param 0x13 0 / 16 % 16 = 8 + c then sent s.el.cy [b.beat] else [])) ∧
    (∀ i op, (i = .elEpass a ∧ op = 0xC0 ∨ i = .elEturn a ∧ op = 0xC1 ∨ i = .elEroute a ∧ op = 0xC2) → edgeTurn s op a e c b l →
      ((s.el.param 0x10 0).testBit c = false → ∃ t, exec i s = .next t ∧ onlySlot s t ∧ inbound t s.curTile e c = l ∧ t.el = s.el) ∧
      ((s.el.param 0x10 0).testBit c = true → op = 0xC2 → ∃ t, exec i s = .next t ∧ onlyHere s t ∧ t.el = s.el) ∧
      ((s.el.param 0x10 0).testBit c = true → op ≠ 0xC2 → ∀ q f, f = (if op = 0xC0 then (e + 2) % 4 else s.el.param 0x11 0) → f < 4 →
        edgeOpen s f c q → inbound s q ((f + 2) % 4) c = [] → b.beat.cfg = false → b.beat.kind ≠ .caphi →
        ∃ t, exec i s = .next t ∧ onlySlot s t ∧ inbound t s.curTile e c = l ∧ t.el = s.el ∧
          inbound t q ((f + 2) % 4) c = [{ b with src := 64 }]))

/-- The tiles that a beat for CX crosses on the control network (R166): none where CX lies on the tile itself. -/
def Sys2Proof.Claims.hopsToCx (s : State) : Nat := match s.destTile s.curTile s.el.cx with
  | some q => (((s.tile s.curTile).col : Int) - (s.tile q).col).natAbs + (((s.tile s.curTile).row : Int) - (s.tile q).row).natAbs
  | none => 0

/-- R165, R166: hin and hbi move a mapped port's unit into its stream; hout and hbi a mapped stream's unit to its consumer; kgate sends
A's beat or pair on, one tile an fc; klast, kwave and kbar turn tokens, waves and completions into beats, and kbar A's beats into arrivals. -/
def Sys2Proof.Claims.HelmAndControlPorts : Prop :=
  ∀ (s : State) (a : ElemArgs),
    (∀ i op o n u, (i = .elHin a ∧ op = 0xC8 ∨ i = .elHbi a ∧ op = 0xCA ∧ s.el.param 0x11 0 = 0) → canTurn s op a → o < 4 → n < 64 →
      57 ≤ s.curSlot → s.curSlot ≤ 58 → s.el.param 0x10 0 = (64 + n) * 2 ^ (7 * o) → unitAt s.el o u →
      (s.inq s.curTile (s.curSlot - 57) n).length + u.length ≤ 16 →
      ∃ t, exec i s = .next t ∧ onlySlot s t ∧ t.el.port o = (s.el.port o).drop u.length ∧ t.el.out = s.el.out ∧
        ∀ k, t.inq s.curTile (s.curSlot - 57) k =
          if k = n then s.inq s.curTile (s.curSlot - 57) n ++ u else s.inq s.curTile (s.curSlot - 57) k) ∧
    (∀ i op o n b bs, (i = .elHout a ∧ op = 0xC9 ∨ i = .elHbi a ∧ op = 0xCA ∧ s.el.param 0x10 0 = 0) → canTurn s op a → o < 2 → n < 64 →
      57 ≤ s.curSlot → s.curSlot ≤ 58 → s.el.param 0x11 0 = (64 + n) * 2 ^ (7 * o) → s.outq s.curTile (s.curSlot - 57) n = b :: bs →
      b.kind ≠ .caplo →
      ∃ t, exec i s = .next t ∧ onlySlot s t ∧ t.el.out = s.el.out ++ sent (if o = 0 then s.el.cx else s.el.cy) [b] ∧
        ∀ k, t.outq s.curTile (s.curSlot - 57) k = if k = n then bs else s.outq s.curTile (s.curSlot - 57) k) ∧
    (∀ u, canTurn s 0xCC a → unitAt s.el 0 u → ∃ t, exec (.elKgate a) s = .next t ∧ onlyHere s t ∧
      t.el.portA = s.el.portA.drop u.length ∧
      t.el.pipe = s.el.pipe ++ u.flatMap fun b => issued s.el.cx (s.fc + max 1 (hopsToCx s)) (forwarded b)) ∧
    (∀ n l, canTurn s 0xCD a → (s.tile s.curTile).tokens = (s.el.param 0x10 0, n) :: l → ∃ t, exec (.elKlast a) s = .next t ∧
      onlySlot s t ∧ (t.tile s.curTile).tokens = l ∧
      t.el.out = s.el.out ++ sent s.el.cx [{ data := BitVec.ofNat 64 (s.el.param 0x10 0 % 256 + n * 256) }]) ∧
    (canTurn s 0xCE a → s.el.param 0x10 0 ∈ (s.tile s.curTile).waves → ∃ t, exec (.elKwave a) s = .next t ∧ onlySlot s t ∧
      (t.tile s.curTile).waves = (s.tile s.curTile).waves.erase (s.el.param 0x10 0) ∧ t.el.out = s.el.out ++ sent s.el.cx [{}]) ∧
    (∀ ph l, canTurn s 0xCF a → (s.tile s.curTile).completions = (s.el.param 0x10 0, ph) :: l → ∃ t, exec (.elKbar a) s = .next t ∧
      onlySlot s t ∧ (t.tile s.curTile).completions = l ∧
      t.el.out = s.el.out ++ sent s.el.cx [{ data := if ph then 1 else 0 }]) ∧
    (∀ b, canTurn s 0xCF a → (s.tile s.curTile).completions = [] → headed s.el 0 b →
      (s.barrier s.curTile (s.el.param 0x10 0)).valid = true → ∃ t, exec (.elKbar a) s = .next t ∧ onlySlot s t ∧
      t.el.portA = s.el.portA.drop 1 ∧ (t.tile s.curTile).leaving = (s.tile s.curTile).leaving ++ [(s.el.param 0x10 0, none)])

/-- The edge ports, and the helm and control ports. -/
def Obligations.PortElements : Prop := Sys2Proof.Claims.EdgePorts ∧ Sys2Proof.Claims.HelmAndControlPorts

namespace Sys2Proof.Claims
open Sys2Proof Sys2Proof.Machine

/-- The field use and the fields of a matrix instruction (R60). -/
def matrixUse : Instr → Option (MatUse × MatArgs)
  | .mxMma a => some (.mma, a)
  | .mxMmas a => some (.mma, a)
  | .mxMmab a => some (.mmab, a)
  | .mxBload a => some (.bload, a)
  | .mxBdrop a => some (.none, a)
  | .mxAzero a => some (.region, a)
  | .mxAload a => some (.region, a)
  | .mxAstore a => some (.store, a)
  | .mxAstorez a => some (.store, a)
  | .mxAadd a => some (.region, a)
  | .mxAscale a => some (.region, a)
  | .mxAbias a => some (.region, a)
  | .mxTrn a => some (.trn, a)
  | .mxRmax a => some (.store, a)
  | .mxRsum a => some (.store, a)
  | .mxMark a => some (.mark, a)
  | .mxXfence a => some (.none, a)
  | .mxCntrd a => some (.none, a)
  | _ => none

/-- The node may act on the token at the head of P (R195): it is live, its consumers have room, nothing waits to commit. -/
def nodeFree (s : State) : Prop :=
  (s.xs.st = .armed ∨ s.xs.st = .gated) ∧ s.xs.held = false ∧ State.freeOut s.xs = true ∧ s.mat.work = none

/-- Of tiles and slots only the matrix node of the acting tile differs. -/
def onlyNode (s t : State) : Prop :=
  (∀ p n, p ≠ s.curTile ∨ n ≠ 56 → t.slot p n = s.slot p n) ∧ nothingElse s t ∧
  (∀ p, { t.tile p with slots := [], mat := {} } = { s.tile p with slots := [], mat := {} }) ∧
  ∀ p, p ≠ s.curTile → (t.tile p).mat = (s.tile p).mat

/-- The token leaves P; the buffers stand as they were. -/
def tokenDone (s t : State) : Prop :=
  onlyNode s t ∧ t.xs.portP = s.xs.portP.drop 1 ∧ t.mat.opened = false ∧ t.mat.accepted = false ∧
  { t.xs with portA := s.xs.portA, portB := s.xs.portB, portC := s.xs.portC, portP := s.xs.portP, out := s.xs.out,
              gens := s.xs.gens } = s.xs ∧ t.mat.buf0 = s.mat.buf0 ∧ t.mat.buf1 = s.mat.buf1 ∧
  t.mat.marks0 = s.mat.marks0 ∧ t.mat.marks1 = s.mat.marks1

/-- An operation ends in a working copy of its region, to be committed (R195): its cells and marks satisfy P. -/
def copies (i : Instr) (s : State) (a : MatArgs) (P : List Nat → List Bool → Prop) : Prop :=
  ∃ t w, exec i s = .next t ∧ tokenDone s t ∧ t.mat.work = some w ∧ w.buf = a.buf.toNat ∧ w.wide = s.wide ∧ w.m = a.m.toNat ∧
    w.n = a.n.toNat ∧ w.cells.length = 256 * a.m.toNat * a.n.toNat ∧ w.marks.length = a.m.toNat * a.n.toNat ∧
    t.mat.committed = s.mat.committed ∧ t.xs.out = s.xs.out ∧ t.mat.store = s.mat.store ∧ P w.cells w.marks

/-- An operation that writes no buffer ends (R195): it counts as committed, and has sent bs on CX. -/
def ends (i : Instr) (s : State) (P : List Beat → State → Prop) : Prop :=
  ∃ t bs, exec i s = .next t ∧ tokenDone s t ∧ t.mat.work = none ∧ t.mat.committed = s.mat.committed + 1 ∧
    t.xs.out = s.xs.out ++ sent s.xs.cx bs ∧ P bs t

/-- Slabs of n beats, each whole and unpoisoned, stand at the head of an operand port with no feeder entries (R94, R190). -/
def slabsStand (s : State) (o count n : Nat) (l : List (List Beat)) : Prop :=
  l.length = count ∧ (o = 0 → s.xs.param 0x11 0 = 0) ∧ (o = 1 → s.xs.param 0x12 0 = 0) ∧
  (∃ as rest : List Arrived, s.xs.port o = as ++ rest ∧ as.map (·.beat) = l.flatten ∧ (s.xs.port o ≠ [] → as ≠ [])) ∧
  ∀ d ∈ l, d.length = n ∧ ∀ j < n, (d.getD j {}).cfg = false ∧ (d.getD j {}).poi = false ∧
    (d.getD j {}).kind = if n = 1 then .solo else if j = 0 then .head else if j + 1 = n then .tail else .data

/-- Width of a cell of the node's accumulator format (R192, R193), and its grid's columns. -/
def cellWidth (s : State) : Nat := if s.wide then 64 else 32

/-- Code c of a slab of codes of width w. -/
def codeIn (w : Nat) (d : List Beat) (c : Nat) : Nat := lane w (d.getD (c / (64 / w)) {}).data.toNat (c % (64 / w))

/-- Cell q of a region of N blocks of columns, as it streams: block by block, row by row (R194). -/
def streamedCell (w n : Nat) (l : List (List Beat)) (q : Nat) : Nat :=
  codeIn w (l.getD (q / (16 * n) / 16 * n + q % (16 * n) / 16) []) (16 * (q / (16 * n) % 16) + q % (16 * n) % 16)

/-- Cell q of the region as the buffer holds it. -/
def oldCell (s : State) (a : MatArgs) (q : Nat) : Nat :=
  s.mat.cell a.buf.toNat s.wide (q / (16 * a.n.toNat)) (q % (16 * a.n.toNat))

/-- Block q of the region is marked. -/
def oldMark (s : State) (a : MatArgs) (q : Nat) : Bool := s.mat.marked a.buf.toNat s.wide (q / a.n.toNat) (q % a.n.toNat)

/-- DAZ and FTZ of the accumulators: FSEL's own where its format is .f64 or .f32 (R78; log 94). -/
def cellFlags (s : State) : FBits :=
  let m := (s.tile s.curTile).fmt s.xs.fsel
  if m.code = 0x10 ∨ m.code = 0x11 then m.b else {}

/-- The value of an accumulator code. -/
def cellValue (s : State) (c : Nat) : Val := Val.of ((accFmt s.wide).decode (cellFlags s).daz c)

/-- Cell q, the q-th rounded of its operation, is Round of v in the node's mode (R89, R199). -/
def roundsTo (s : State) (c q : Nat) (v : Val) : Prop :=
  ∃ x, Val.ofExact x = v ∧ c = (accFmt s.wide).roundExact (cellFlags s) s.xs.round (drawn s.xs (s.xs.gen 0) q) x

/-- M and N lie in the grid of the accumulator format (R193). -/
def inGrid (s : State) (a : MatArgs) : Prop := a.m.toNat ≤ 16 ∧ a.n.toNat ≤ if s.wide then 8 else 16

end Sys2Proof.Claims

/-- R61, R188, R201: a valid token at the head of P is accepted and its operation's turn comes; an invalid one, and an operation whose
fields R60 does not allow, is rejected with a poisoned SOLO on CX and counted; a poisoned one is not counted. -/
def Sys2Proof.Claims.ControlTokens : Prop :=
  (∀ (s : State) (i : Instr) (op : Nat) (a : ElemArgs) (b : Beat),
    (i = .elXnode a ∧ op = 0xB0 ∨ i = .elXnodeb a ∧ op = 0xB1 ∨ i = .elXnodes a ∧ op = 0xB2) → s.curSlot = 56 → canTurn s op a →
    s.mat.work = none → (s.group (s.handleOf s.curTile)).st ≠ .cutting → headed s.el 3 b →
    (b.poi = false → b.kind = .data → (∃ j, decodeMatrix b.data.toNat = .ok j) →
      ∃ t, exec i s = .next t ∧ onlyNode s t ∧ t.xs = s.xs ∧ t.mat = { s.mat with accepted := true } ∧ .matrix s.curTile ∈ t.agenda) ∧
    (b.poi = true ∨ b.kind ≠ .data ∨ (∃ e, decodeMatrix b.data.toNat = .error e) →
      ∃ t, exec i s = .next t ∧ tokenDone s t ∧ t.xs.out = s.xs.out ++ sent s.xs.cx [badSolo] ∧ t.mat.committed = s.mat.committed ∧
        t.mat.errs = if b.poi = true ∨ s.mat.errs = 0xFFFFFFFF then s.mat.errs else s.mat.errs + 1)) ∧
  (∀ (s : State) (i : Instr) (u : MatUse) (a : MatArgs), matrixUse i = some (u, a) → nodeFree s → a.valid u = false →
    ∃ t, exec i s = .next t ∧ tokenDone s t ∧ t.mat.work = none ∧ t.xs.out = s.xs.out ++ sent s.xs.cx [badSolo] ∧
      t.mat.committed = s.mat.committed ∧ t.mat.errs = if s.mat.errs = 0xFFFFFFFF then s.mat.errs else s.mat.errs + 1)

/-- R194, R195, R199: AZERO clears its region; ALOAD takes its streamed cells; AADD, ASCALE and ABIAS round each cell's sum or product
in order; ASTORE and ASTOREZ send the region block by block, a marked block poisoned, and ASTOREZ then clears it. -/
def Sys2Proof.Claims.BufferOperations : Prop :=
  ∀ (s : State) (a : MatArgs), nodeFree s → inGrid s a →
    (a.valid .region = true →
      copies (.mxAzero a) s a (fun cs ms => (∀ c ∈ cs, c = 0) ∧ ∀ m ∈ ms, m = false) ∧
      (∀ l, slabsStand s 0 (a.m.toNat * a.n.toNat) (4 * cellWidth s) l →
        copies (.mxAload a) s a (fun cs ms => (∀ q < cs.length, cs.getD q 0 = streamedCell (cellWidth s) a.n.toNat l q) ∧
          ∀ m ∈ ms, m = false) ∧
        copies (.mxAadd a) s a (fun cs ms => (∀ q < cs.length, roundsTo s (cs.getD q 0) q
            (Val.add s.xs.round (cellValue s (oldCell s a q)) (cellValue s (streamedCell (cellWidth s) a.n.toNat l q)))) ∧
          ∀ q < ms.length, ms.getD q false = oldMark s a q)) ∧
      (∀ d, slabsStand s 1 1 (16 * a.n.toNat * cellWidth s / 64) [d] →
        copies (.mxAscale a) s a (fun cs ms => (∀ q < cs.length, roundsTo s (cs.getD q 0) q
            (Val.mul (cellValue s (oldCell s a q)) (cellValue s (codeIn (cellWidth s) d (q % (16 * a.n.toNat)))))) ∧
          ∀ q < ms.length, ms.getD q false = oldMark s a q) ∧
        copies (.mxAbias a) s a (fun cs ms => (∀ q < cs.length, roundsTo s (cs.getD q 0) q
            (Val.add s.xs.round (cellValue s (oldCell s a q)) (cellValue s (codeIn (cellWidth s) d (q % (16 * a.n.toNat)))))) ∧
          ∀ q < ms.length, ms.getD q false = oldMark s a q))) ∧
    (a.valid .store = true → a.dcvt = 0 → ∀ P : List Beat → Prop, P = (fun bs =>
        bs.length = a.m.toNat * a.n.toNat * (4 * cellWidth s) ∧
        ∀ k < bs.length, (bs.getD k {}).poi = oldMark s a (k / (4 * cellWidth s)) ∧
          (bs.getD k {}).kind = (if k % (4 * cellWidth s) = 0 then .head else if (k + 1) % (4 * cellWidth s) = 0 then .tail else .data) ∧
          (oldMark s a (k / (4 * cellWidth s)) = false → ∀ j < 64 / cellWidth s, lane (cellWidth s) (bs.getD k {}).data.toNat j =
            (accFmt s.wide).roundExact {} .ne 0 ((accFmt s.wide).decode false (s.mat.cell a.buf.toNat s.wide
              (16 * (k / (4 * cellWidth s) / a.n.toNat) + (k % (4 * cellWidth s) * (64 / cellWidth s) + j) / 16)
              (16 * (k / (4 * cellWidth s) % a.n.toNat) + (k % (4 * cellWidth s) * (64 / cellWidth s) + j) % 16))).exact)) →
      ends (.mxAstore a) s (fun bs t => P bs ∧ t.mat.store = s.mat.store) ∧
      ∃ t w bs, exec (.mxAstorez a) s = .next t ∧ tokenDone s t ∧ t.mat.work = some w ∧ w.buf = a.buf.toNat ∧ w.m = a.m.toNat ∧
        w.n = a.n.toNat ∧ (∀ c ∈ w.cells, c = 0) ∧ (∀ m ∈ w.marks, m = false) ∧ t.xs.out = s.xs.out ++ sent s.xs.cx bs ∧ P bs)

/-- The matrix control tokens and buffer operations. -/
def Obligations.MatrixControl : Prop := Sys2Proof.Claims.ControlTokens ∧ Sys2Proof.Claims.BufferOperations

namespace Sys2Proof.Claims
open Sys2Proof Sys2Proof.Machine

/-- The exact sum of products, in the order of the list (R96). -/
def dotValue (mode : RMode) : List (Val × Val) → Val
  | [] => .zero false
  | [p] => Val.mul p.1 p.2
  | p :: q :: t => Val.add mode (Val.mul p.1 p.2) (dotValue mode (q :: t))

/-- Value k of row or column j of the native blocks of an ordinary format, one block to each 16 rows or columns (R194). -/
def operandValue (m : Fmt) (l : List (List Beat)) (j k : Nat) : Val :=
  Val.of (m.fl.decode m.b.daz (codeIn m.w (l.getD (j / 16) []) (32 * (j % 16) + k)))

/-- The formats of A and B, both ordinary floating ones of one class other than FP64 (R192). -/
def plainPair (s : State) (af bf : Fmt) : Prop :=
  af = (s.tile s.curTile).fmt s.xs.fsel ∧ bf = (s.tile s.curTile).fmt (s.xs.param 0x10 s.xs.fsel) ∧ s.wide = false ∧
  (af.kind = .float ∨ af.kind = .e) ∧ (bf.kind = .float ∨ bf.kind = .e) ∧ pairClass af = pairClass bf ∧ pairClass af ≠ 0

/-- The array work of the operation at the head of P is over (R204). -/
def arrayDone (s : State) : Prop := s.mat.left = some 0 ∧ s.mat.busyUntil ≤ s.fc

end Sys2Proof.Claims

/-- R96, R192, R194, R196, R197: MMA, MMAB and MMAS over operands of one step of k end in a working copy; for MMA each cell is Round of
the old cell, or +0, plus the exact sum of the products of A's row and B's column. -/
def Sys2Proof.Claims.Multiplications : Prop :=
  ∀ (s : State) (a : MatArgs) (af bf : Fmt) (A B : List (List Beat)), nodeFree s → inGrid s a → plainPair s af bf → arrayDone s →
    a.chain = false → a.k = 1 →
    (a.valid .mma = true → a.bt = false → slabsStand s 0 a.m.toNat (8 * af.w) A → slabsStand s 1 a.n.toNat (8 * bf.w) B →
      copies (.mxMma a) s a fun cs ms =>
        (∀ q < cs.length, s.xs.round ≠ .sr → roundsTo s (cs.getD q 0) 0 (Val.add s.xs.round
          (cellValue s (if a.acc then oldCell s a q else 0))
          (dotValue s.xs.round ((List.range 32).map fun k =>
            (operandValue af A (q / (16 * a.n.toNat)) k, operandValue bf B (q % (16 * a.n.toNat)) k))))) ∧
        ∀ q < ms.length, ms.getD q false = (a.acc && oldMark s a q)) ∧
    (a.valid .mmab = true → s.xs.op = 0xB1 → slabsStand s 0 a.m.toNat (8 * af.w) A →
      (∃ st, s.mat.store = some st ∧ st.n = a.n.toNat ∧ st.k = 1 ∧ (fmtOf st.entry).kind ≠ .mx ∧ pairClass (fmtOf st.entry) = pairClass af ∧
        st.blocks.length = a.n.toNat ∧ ∀ p ∈ st.poi, p = false) →
      copies (.mxMmab a) s a fun _ ms => ∀ q < ms.length, ms.getD q false = (a.acc && oldMark s a q)) ∧
    (a.valid .mma = true → a.bt = false → s.xs.op = 0xB2 → af.w ≤ 16 → slabsStand s 0 a.m.toNat (4 * af.w) A →
      slabsStand s 1 a.n.toNat (8 * bf.w) B → ∀ C, slabsStand s 2 a.m.toNat 8 C → copies (.mxMmas a) s a fun _ _ => True)

/-- R198, R200: BLOAD keeps its blocks with N, K and the format, and BDROP empties the store; MARK, XFENCE and CNTRD send a word on the
status channel; TRN, RMAX and RSUM send their matrix or vector on CX; none of them touches a buffer. -/
def Sys2Proof.Claims.NodeOperations : Prop :=
  ∀ (s : State) (a : MatArgs), nodeFree s →
    (s.xs.op = 0xB1 → a.valid .none = true → ends (.mxBdrop a) s fun bs t => bs = [] ∧ t.mat.store = none ∧ t.mat.errs = s.mat.errs) ∧
    (∀ bf B, bf = (s.tile s.curTile).fmt (s.xs.param 0x10 s.xs.fsel) → bf.kind = .float ∨ bf.kind = .e → s.xs.op = 0xB1 →
      a.valid .bload = true → a.n.toNat * a.k.toNat * (64 * bf.w) ≤ 131072 → slabsStand s 1 (a.n.toNat * a.k.toNat) (8 * bf.w) B →
      ends (.mxBload a) s fun bs t => bs = [] ∧ ∃ st, t.mat.store = some st ∧ st.n = a.n.toNat ∧ st.k = a.k.toNat ∧ st.bt = a.bt ∧
        st.blocks = B.map (List.map (·.data)) ∧ (∀ p ∈ st.poi, p = false) ∧
        st.entry = (s.tile s.curTile).profile.getD (s.xs.param 0x10 s.xs.fsel) 0) ∧
    ((s.xs.cx = 0x1FF ∨ State.queued s.xs s.xs.cx = 0) → ∀ i v, (a.valid .mark = true ∧ i = .mxMark a ∧
          v = BitVec.ofNat 64 (a.m.toNat + a.n.toNat * 256 + a.k.toNat * 65536) ∨
        a.valid .none = true ∧ i = .mxXfence a ∧ v = s.mat.committed ∨
        a.valid .none = true ∧ i = .mxCntrd a ∧ v = BitVec.ofNat 64 s.mat.errs.toNat) →
      ∃ t, exec i s = .next t ∧ tokenDone s t ∧ t.mat.committed = s.mat.committed + 1 ∧
        t.mat.errs = (if i = .mxCntrd a then 0 else s.mat.errs) ∧
        t.xs.out = s.xs.out ++ sent (if s.xs.cy = 0x1FF then s.xs.cx else s.xs.cy) [{ data := v }]) ∧
    (∀ f l, f = (s.tile s.curTile).fmt s.xs.fsel → f.kind = .float ∨ f.kind = .e → a.valid .trn = true → a.dcvt = 0 →
      a.m.toNat ≤ 16 → a.n.toNat ≤ 16 → slabsStand s 0 (a.m.toNat * a.n.toNat) (4 * f.w) l →
      ends (.mxTrn a) s fun bs _ => bs.length = a.m.toNat * a.n.toNat * (4 * f.w) ∧
        ∀ k < bs.length, ∀ j < 64 / f.w, (bs.getD k {}).poi = false ∧ lane f.w (bs.getD k {}).data.toNat j =
          f.fl.roundExact {} .ne 0 (f.fl.decode false (streamedCell f.w a.n.toNat l
            ((16 * (k / (4 * f.w) % a.m.toNat) + (k % (4 * f.w) * (64 / f.w) + j) % 16) * (16 * a.n.toNat) +
              (16 * (k / (4 * f.w) / a.m.toNat) + (k % (4 * f.w) * (64 / f.w) + j) / 16)))).exact) ∧
    (∀ i, (i = .mxRmax a ∨ i = .mxRsum a) → a.valid .store = true → a.dcvt = 0 → inGrid s a →
      ends i s fun bs t => bs.length = 16 * a.m.toNat / (64 / cellWidth s) ∧ t.mat.store = s.mat.store ∧
        (∀ k < bs.length, (bs.getD k {}).poi = decide (∃ nb < a.n.toNat,
          s.mat.marked a.buf.toNat s.wide (k * (64 / cellWidth s) / 16) nb = true)))

/-- The matrix multiplications and the node operations. -/
def Obligations.MatrixNodes : Prop := Sys2Proof.Claims.Multiplications ∧ Sys2Proof.Claims.NodeOperations

/-! ## Links (R412-R416) -/

namespace Sys2Proof.Claims
open Sys2Proof Sys2Proof.Machine

/-- No link but n differs, and nothing else but what a notice or the traffic that waited for the link may touch. -/
def linkFrame (s t : State) (n : Nat) : Prop :=
  (∀ m, m ≠ n → t.link m = s.link m) ∧ { t with links := s.links, chans := s.chans, ids := s.ids, agenda := s.agenda } = s

/-- One message more stands in a channel or is held for it, behind all others (R230). -/
def told (s t : State) (c : ChanId) (m : Word) : Prop :=
  (t.chan c).msgs ++ (t.chan c).held.map (·.word) = (s.chan c).msgs ++ (s.chan c).held.map (·.word) ++ [m]

/-- Event i completes and leaves link n as y; it sends a notice on channel 193 where `note` says so, and only there (R416). -/
def linkMoves (i : Instr) (s : State) (n : Nat) (y : Link) (note : Bool) : Prop :=
  ∃ t, exec i s = .next t ∧ t.link n = y ∧ linkFrame s t n ∧
    if note = true then told s t (.core 193) (wd (n + y.st * 2 ^ 8 + y.wcode * 2 ^ 12)) else t.chans = s.chans

/-- The state in which a link goes on: ACTIVE at full width, DEGRADED else (R412). -/
def openState (w : Nat) : Nat := if w = 0 then 2 else 3

/-- A failed training attempt of link n: the fourth in a row is FAILED with a notice, another begins again (R412). -/
def attemptFails (i : Instr) (s : State) (n : Nat) : Prop :=
  let y := s.link n
  if y.attempts + 1 < 4 then linkMoves i s n { y with attempts := y.attempts + 1, trainAt := s.fc } false
  else linkMoves i s n { y with attempts := y.attempts + 1, st := 6 } true

/-- A link that begins to retrain with a PAUSE pending or not (R412). -/
def retraining (s : State) (y : Link) (pend : Bool) : Link :=
  { y with pausePend := pend, draining := false, trainAt := s.fc, st := 5 }

/-- Data lanes marked bad or failing the test that the spares which do not leave uncovered, in ascending order (R413). -/
def uncovered (n : Nat) (y : Link) (f : List Nat) : List Nat :=
  ((List.range (linkLanes n)).filter fun l => y.bad.contains l || f.contains l).drop
    ((List.range (linkSpares n)).filter fun l => !(y.bad.contains (linkLanes n + l) || f.contains (linkLanes n + l))).length

/-- Spare lanes not in use after a training (R413, R415). -/
def sparesLeft (n : Nat) (y : Link) (f : List Nat) : Nat :=
  linkSpares n - min ((List.range (linkLanes n)).filter fun l => y.bad.contains l || f.contains l).length
    ((List.range (linkSpares n)).filter fun l => !(y.bad.contains (linkLanes n + l) || f.contains (linkLanes n + l))).length

/-- One of the 2^w parts of link n's lanes holds no uncovered lane (R413). -/
def avoids (n : Nat) (u : List Nat) (w : Nat) : Prop := ∃ i < 2 ^ w, ∀ l ∈ u, l / (linkLanes n / 2 ^ w) ≠ i

/-- Width code w is the narrowest reduction needed, of those the kind has (R413). -/
def trainsTo (n : Nat) (u : List Nat) (w : Nat) : Prop :=
  w ≤ (if linkQuarter n = true then 2 else 1) ∧ avoids n u w ∧ ∀ v < w, ¬avoids n u v

/-- Part i of 1/2^w of link n's lanes is the first that holds no uncovered lane (R413). -/
def firstPart (n : Nat) (u : List Nat) (w i : Nat) : Prop :=
  i < 2 ^ w ∧ (∀ l ∈ u, l / (linkLanes n / 2 ^ w) ≠ i) ∧ ∀ j < i, ∃ l ∈ u, l / (linkLanes n / 2 ^ w) = j

/-- R412's commands: each row's next state and effect; a command without a row is discarded. -/
def LinkCommands : Prop :=
  ∀ (s : State) (n : Nat), let y := s.link n
    ((y.st = 2 ∨ y.st = 3) → y.unacked = [] → linkMoves (.evPause n) s n { y with st := 4 } false) ∧
    ((y.st = 2 ∨ y.st = 3) → y.unacked ≠ [] → linkMoves (.evPause n) s n { y with draining := true } false) ∧
    ((y.st = 1 ∨ y.st = 4 ∨ y.st = 5) → linkMoves (.evPause n) s n { y with pausePend := true } false) ∧
    ((y.st = 0 ∨ 6 ≤ y.st) → exec (.evPause n) s = .next s) ∧
    ((y.st = 2 ∨ y.st = 3) → y.draining = true → y.unacked = [] →
      linkMoves (.evPauseDrainComplete n) s n { y with draining := false, st := 4 } false) ∧
    (y.st = 4 → linkMoves (.evResume n) s n { y with st := openState y.wcode } (y.wcode != 0)) ∧
    (y.st ≠ 4 → exec (.evResume n) s = .next s) ∧
    ((y.st = 2 ∨ y.st = 3) → linkMoves (.evRetrain n) s n (retraining s y (y.pausePend || y.draining)) false) ∧
    (y.st = 4 → linkMoves (.evRetrain n) s n (retraining s y true) false) ∧
    ((y.st < 2 ∨ 4 < y.st) → exec (.evRetrain n) s = .next s) ∧
    (y.st ≠ 0 → y.unacked = [] → linkMoves (.evDisable n) s n { y with draining := false, st := 0 } false) ∧
    ((y.st = 0 ∨ y.unacked ≠ []) → exec (.evDisable n) s = .next s) ∧
    ((y.st = 0 ∨ y.st = 6) →
      linkMoves (.evEnable n) s n { y with attempts := 0, draining := false, trainAt := s.fc, st := 1 } false) ∧
    ((y.st ≠ 0 ∧ y.st ≠ 6) → exec (.evEnable n) s = .next s)

/-- R412-R414: the end of a training, which fixes the width and the part of the lanes in use and sends the flits of the replay buffer
again, and its timeout. -/
def LinkTraining : Prop :=
  ∀ (s : State) (n : Nat), n < 80 → ((s.link n).st = 1 ∨ (s.link n).st = 5) →
    (∀ f, (n < 64 ∨ 4096 ∉ f) →
      (∀ w i, trainsTo n (uncovered n (s.link n) f) w → firstPart n (uncovered n (s.link n) f) w i → w ≤ (s.link n).wmin →
        linkMoves (.evTrainingEnd n f) s n
          { s.link n with wcode := w, spares := some (sparesLeft n (s.link n) f), trains := min ((s.link n).trains + 1) 255,
                          attempts := 0, pausePend := false, lastRx := s.fc, lastTx := s.fc, replays := [],
                          lanePart := i, wire := (s.link n).unacked,
                          st := if (s.link n).pausePend = true then 4 else openState w }
          (!(s.link n).pausePend && w != 0)) ∧
      ((∀ w, trainsTo n (uncovered n (s.link n) f) w → (s.link n).wmin < w) → attemptFails (.evTrainingEnd n f) s n)) ∧
    (∀ f, 64 ≤ n → 4096 ∈ f → linkMoves (.evTrainingEnd n f) s n { s.link n with st := 6 } true) ∧
    ((s.link n).trainAt + linkTimeout n ≤ s.fc → attemptFails (.evTrainingTimeout n) s n)

/-- How often each flit has been replayed once flit k and what follows it of the unacknowledged flits go again (R412, R414). -/
def replayCounts (y : Link) (k : Nat) : Table Nat :=
  (k :: y.unacked.filter (k < ·)).foldl (fun t f => put t f ((find t f).getD 0 + 1)) y.replays

/-- A link after a replay of flit k: it and what follows it of the unacknowledged flits go again, each counted (R414, R415). -/
def replayed (s : State) (y : Link) (k : Nat) : Link :=
  { y with replay := y.replay + BitVec.ofNat 32 (1 + (y.unacked.filter (k < ·)).length), replays := replayCounts y k, lastTx := s.fc,
           wire := y.wire.filter (· < k) ++ y.unacked.filter (k ≤ ·) }

/-- A replay from flit k is the eighth of some flit (R412). -/
def eighthReplay (y : Link) (k : Nat) : Prop := ∃ f ∈ k :: y.unacked.filter (k < ·), 8 ≤ (find (replayCounts y k) f).getD 0

/-- R412, R414-R416: flits, idle flits, the timeouts that act as RETRAIN, retry windows and lane marks. -/
def LinkFlits : Prop :=
  ∀ (s : State) (n : Nat), let y := s.link n
    (∀ q, q = y.expSeq → linkMoves (.evFlitReceive n q true) s n
      { y with lastRx := s.fc, wire := y.wire.erase q.toNat, expSeq := y.expSeq + 1, unacked := y.unacked.filter (· ≠ q.toNat),
               replays := del y.replays q.toNat } false) ∧
    (∀ q, q ≠ y.expSeq → linkMoves (.evFlitReceive n q true) s n { y with lastRx := s.fc, wire := y.wire.erase q.toNat } false) ∧
    (∀ k, let r := replayed s y k
      (¬eighthReplay y k ∨ (y.st ≠ 2 ∧ y.st ≠ 3) → linkMoves (.evFlitReplay n k) s n r false) ∧
      (eighthReplay y k → (y.st = 2 ∨ y.st = 3) → linkMoves (.evFlitReplay n k) s n (retraining s r (y.pausePend || y.draining)) false) ∧
      (∀ q : Word, q.toNat = k → ¬eighthReplay y k → linkMoves (.evFlitReceive n q false) s n
        { replayed s { y with wire := y.wire.erase k } k with lastRx := s.fc, crcErr := y.crcErr + 1 } false)) ∧
    (64 ≤ n → n < 80 → (y.st = 2 ∨ y.st = 3) →
      (y.lastRx + 65536 ≤ s.fc →
        linkMoves (.evRhumbRxTimeout n) s n (retraining s y (y.pausePend || y.draining)) false) ∧
      (y.draining = false → y.lastTx + 256 ≤ s.fc → linkMoves (.evIdleFlit n) s n
        { y with unacked := y.unacked ++ [y.nextSeq.toNat], wire := y.wire ++ [y.nextSeq.toNat], nextSeq := y.nextSeq + 1, lastTx := s.fc } false)) ∧
    (∀ k w, linkMoves (.evRetryWindow n k w) s n
      { y with worst := w % 2 ^ 16, retryHi := y.retryHi || decide (y.rthresh.toNat < k) }
      (!y.retryHi && decide (y.rthresh.toNat < k))) ∧
    (∀ v : Word, field v 15 1 = 1 → field v 0 11 < linkLanes n + linkSpares n →
      ∃ b, (∀ m, m ∈ b ↔ m ∈ y.bad ∨ m = field v 0 11) ∧ linkMoves (.evLaneMark n v) s n { y with bad := b } false) ∧
    (∀ v : Word, field v 15 1 = 0 ∨ linkLanes n + linkSpares n ≤ field v 0 11 → exec (.evLaneMark n v) s = .next s)

end Sys2Proof.Claims

/-! ## Package reset, ready reports, the defect map, power (R429-R433) -/

namespace Sys2Proof.Claims
open Sys2Proof Sys2Proof.Machine

/-- Event i takes s to u, and the events es are among the coming ones; what else comes is open (log 4). -/
def turnsTo (i : Instr) (s u : State) (es : List Instr) : Prop :=
  ∃ t, exec i s = .next t ∧ { t with now := u.now, agenda := u.agenda } = u ∧ ∀ e ∈ es, Turn.event e ∈ t.now ++ t.agenda

/-- R412, R429: package reset leaves what State.reset says, every link in TRAINING, the flash, its counter and host memory kept. -/
def PackageReset : Prop :=
  ∀ s : State, ∃ t, exec .evPackageReset s = .next t ∧
    (∀ n, t.link n = if n < 80 then { st := 1 } else {}) ∧
    { t with links := [], agenda := [], fresh := 0, ids := 1, flash := [], atsRefused := [], msix := [], hostReply := none,
             spdmReply := none, lode := { t.lode with counter := 0, epochs := 0 }, mem := { t.mem with cells := [] } } =
      State.reset ∧
    t.flash = s.flash ∧ t.lode.counter = s.lode.counter ∧
    (∀ k, 2 ^ 48 ≤ k → s.sound → getByte t.mem.cells k = getByte s.mem.cells k) ∧
    (∀ k, k < 2 ^ 48 → getByte t.mem.cells k = 0)

/-- R429: a unit that reports in time is ready; one that does not has failed. -/
def ReadyReports : Prop :=
  ∀ s : State,
    (s.fc ≤ 2 ^ 27 →
      (∀ l, l < 32 → turnsTo (.evUnitReady (.layer l)) s (s.setLayer l { s.layer l with ready := true }) []) ∧
      (∀ l i p, l < 32 → (portTilesOf l)[i]? = some p → ∃ ps, (∀ q, q ∈ ps ↔ q ∈ (s.layer l).ports ∨ q = p) ∧
        turnsTo (.evUnitReady (.port l i)) s (s.setLayer l { s.layer l with ports := ps }) []) ∧
      (∀ k, k < 4 → turnsTo (.evUnitReady (.base k)) s (s.setStack k { s.stack k with ready := true }) [])) ∧
    (2 ^ 27 < s.fc → ∀ l i, exec (.evUnitReady (.layer l)) s = .next s ∧
      exec (.evUnitReady (.port l i)) s = .next s ∧ exec (.evUnitReady (.base l)) s = .next s) ∧
    (s.fc ≤ 2 ^ 28 → s.lode.mapGood = true → s.lode.busy = false →
      turnsTo (.evUnitReady .lodestone) s { s with lode := { s.lode with ready := true } } []) ∧
    (2 ^ 28 < s.fc ∨ s.lode.mapGood = false → exec (.evUnitReady .lodestone) s = .next s)

/-- Tile p is set in the 2,048-bit map at offset o of the defect map d (R431). -/
def mapped (d : List Byte) (o p : Nat) : Prop := p < 2048 ∧ (d.getD (o + p / 8) 0).toNat / 2 ^ (p % 8) % 2 = 1

/-- Lodestone accepts the defect map d (R431). -/
def acceptable (d : List Byte) : Prop :=
  638 ≤ d.length ∧ leAt d 0 4 = 0x4D444C4F ∧ BitVec.ofNat 64 (leAt d 4 8) = Config.packageSerial ∧
    ed448Verify (Config.otelKey 0) (d.take 524) ((d.drop 524).take 114) = true ∧
    (∀ p, mapped d 12 p ∨ mapped d 268 p → isComputeTile p = true) ∧ (∀ p, mapped d 268 p → mapped d 12 p) ∧
    ∀ l : List Nat, l.Nodup → (∀ p ∈ l, mapped d 12 p) → l.length ≤ 32

/-- R431: the defect map is taken over and Lodestone may report ready, or DMFAIL stands. -/
def DefectMap : Prop :=
  ∀ s : State, s.lode.ready = false → s.lode.mapGood = false → s.lode.dmfail = false →
    (acceptable s.flash → ∃ dis pass, (∀ p, p ∈ dis ↔ mapped s.flash 12 p) ∧ (∀ p, p ∈ pass ↔ mapped s.flash 268 p) ∧
      turnsTo .evDefectMapVerify s { s with dis, pass, lode := { s.lode with mapGood := true } } [.evUnitReady .lodestone]) ∧
    (¬acceptable s.flash → exec .evDefectMapVerify s = .next { s with lode := { s.lode with dmfail := true } })

/-- R433: a write of PW_LAYER sets BUD and S from the next window and asks the layer to sleep or to wake, or is discarded as a
whole; THROT is 1 from 105 on, the clocks stop at 115. -/
def Power : Prop :=
  ∀ (s : State) (l : Nat),
    (∀ v : Word, field v 0 7 ≤ 64 → 1 ≤ field v 16 7 → field v 16 7 ≤ 64 →
      let y := s.layer l
      let now := y.limitsFrom ≤ s.fc / 64
      turnsTo (.evPwLayerBudgetWrite l v) s
        (s.setLayer l { y with bud := if now then y.budNext else y.bud, ramp := if now then y.rampNext else y.ramp,
                               budNext := field v 0 7, rampNext := field v 16 7, limitsFrom := s.fc / 64 + 1,
                               sleepBit := field v 32 1 == 1 })
        [if field v 32 1 = 1 then .evLayerSleepRequest l else .evLayerWakeRequest l]) ∧
    (∀ v : Word, 64 < field v 0 7 ∨ field v 16 7 = 0 ∨ 64 < field v 16 7 → exec (.evPwLayerBudgetWrite l v) s = .next s) ∧
    (∀ j, 105 ≤ j → j < 115 → exec (.evThermalThrottle l j) s = .next (s.setLayer l { s.layer l with tj := j, throt := true })) ∧
    (∀ j, 115 ≤ j → j < 256 → exec (.evThermalTrip l j) s =
      .next { s.setLayer l { s.layer l with tj := j, throt := true } with stopped := true }) ∧
    (∀ j, j < 105 → exec (.evThrottleRelease l j) s = .next (s.setLayer l { s.layer l with tj := j, throt := false }))

end Sys2Proof.Claims

/-- R412-R416, R429, R431, R433: the links, package reset, ready reports, the defect map, power and cooling. -/
def Obligations.LinksAndPower : Prop := Sys2Proof.Claims.LinkCommands ∧ Sys2Proof.Claims.LinkTraining ∧ Sys2Proof.Claims.LinkFlits ∧
  Sys2Proof.Claims.PackageReset ∧ Sys2Proof.Claims.ReadyReports ∧ Sys2Proof.Claims.DefectMap ∧ Sys2Proof.Claims.Power

/-! ## Partitions, functions, queues, registers (R284, R285, R314-R316, R393-R395, R398, R399, R402-R405) -/

namespace Sys2Proof.Claims
open Sys2Proof Sys2Proof.Machine

/-- R393: contexts stand in partition p, or functions are bound to it. -/
def partInUse (s : State) (p : Nat) : Prop :=
  (∃ c ∈ s.contexts, c.2.st ≠ 0 ∧ c.2.part = p) ∨ ∃ v < 64, (s.iface v).part = p

/-- R393-R395, R398: the partition registers. -/
def Partitions : Prop :=
  ∀ (s : State) (p : Nat) (v : Word), let x := s.part p
    (x.valid = true → field v 0 1 = 0 → partInUse s p → exec (.evPtCfgWrite p v) s = .next s) ∧
    (¬(x.valid = true ∧ field v 0 1 = 0 ∧ partInUse s p) → exec (.evPtCfgWrite p v) s = .next (s.setPart p
      { x with valid := field v 0 1 == 1, mode := field v 1 1 == 1, keymask := BitVec.ofNat 8 (field v 40 8),
               buf := if 2 ≤ field v 4 4 ∧ field v 4 4 ≤ 8 then field v 4 4 else x.buf })) ∧
    (exec (.evPtWaysWrite p v) s =
      .next (if field v 0 32 = 0 then s else s.setPart p { x with ways := BitVec.ofNat 32 (field v 0 32) })) ∧
    (∃ t, exec (.evPtRateWrite p v) s = .next t ∧ (∀ q, q ≠ p → t.part q = s.part q) ∧
      { t with parts := s.parts, agenda := s.agenda } = s ∧
      { t.part p with credit := x.credit, creditAt := x.creditAt } = { x with burst := field v 16 16, rate := field v 0 16 } ∧
      ∀ k, t.creditNow p k = if x.rate ≠ 0 ∧ (find x.credit k).isSome = true
        then min (s.creditNow p k) (State.creditCap (t.part p)) else State.creditCap (t.part p)) ∧
    (∀ i, ∃ t, exec (.evTilesetWrite p i v) s = .next t ∧ (∀ q, q ≠ p → t.part q = s.part q) ∧ { t with parts := s.parts } = s ∧
      { t.part p with tiles := x.tiles } = x ∧
      ∀ q, q ∈ (t.part p).tiles ↔
        if q / 64 = i ∧ isComputeTile q = true ∧
            (if v.toNat.testBit (q % 64) = true then ¬∃ o ∈ s.parts, o.1 ≠ p ∧ q ∈ o.2.tiles
             else ¬∃ c, (s.tile q).owner = some c ∧ (s.context c).part = p)
        then v.toNat.testBit (q % 64) = true else q ∈ x.tiles)

/-- Event i leaves function n as y; its bound context, if it is in a state that may fail, is in ERROR (R404). -/
def breaks (i : Instr) (s : State) (n : Nat) (y : Iface) : Prop :=
  (s.boundContext n = none → exec i s = .next (s.setIface n y)) ∧
  ∀ x, s.boundContext n = some x → (s.context x).st ≠ 0 → (s.context x).st < 7 →
    ∃ t, exec i s = .next t ∧ t.iface n = y ∧ (t.context x).st = 8

/-- R399, R404, R405: binding a function, its states and what takes it from one to the next. -/
def Interfaces : Prop :=
  ∀ (s : State) (n : Nat), let y := s.iface n
    (∀ w : Word, exec (.evVfBindWrite n w) s =
      .next (if y.st ≠ 0 ∨ (s.boundContext n).isSome = true ∨ (s.part (field w 0 5)).valid = false then s
             else s.setIface n { y with part := field w 0 5 })) ∧
    (y.st = 0 → y.keyed = true → (∀ x, s.boundContext n = some x → (s.context x).st = 2 ∨ (s.context x).st = 5) →
      exec (.evLockInterfaceRequest n) s = .next (s.setIface n { y with st := 1, snapCtl := y.ctl, snapApbase := y.apbase })) ∧
    (y.st ≠ 0 ∨ y.keyed = false ∨ (∃ x, s.boundContext n = some x ∧ (s.context x).st ≠ 2 ∧ (s.context x).st ≠ 5) →
      exec (.evLockInterfaceRequest n) s = .next s) ∧
    (y.st = 1 → n < 64 → ∃ t, exec (.evStartInterfaceRequest n) s = .next t ∧ { t with ifaces := s.ifaces, msix := s.msix } = s ∧
      t.iface n = { y with st := 2, msiPend := y.msiPend.filter fun v => (look 0x100000000 y.msiTab (2 * v + 1)).getLsbD 32 } ∧
      (y.snapCtl.getLsbD 2 = true → t.msix = s.msix ++ (y.msiPend.filter fun v =>
        !(look 0x100000000 y.msiTab (2 * v + 1)).getLsbD 32).map fun v => (n, v, true))) ∧
    (y.st ≠ 1 → exec (.evStartInterfaceRequest n) s = .next s) ∧
    (y.st ≠ 0 → breaks (.evStopInterfaceRequest n) s n { y with st := 0, msiPend := [] }) ∧
    (y.st = 0 → exec (.evFlr n) s = .next (s.setIface n { y with ctl := 0, apbase := 0, bbseq := 0 })) ∧
    (y.st = 1 ∨ y.st = 2 → ∀ i, i = .evFlr n ∨ i = .evIdeIntegrityFailure n ∨ i = .evInterfaceConfigChange n →
      breaks i s n { y with st := 3, msiPend := [] }) ∧
    (exec (.evIdeStreamKeying n) s = .next (s.setIface n { y with keyed := true }))

/-- A host access to BAR 2 passes the interface's state and shape (R403, R405). -/
def bar2Taken (s : State) (n o z : Nat) (w t : Bool) : Prop :=
  (((s.iface n).st = 0 ∧ t = false) ∨ ((s.iface n).st = 2 ∧ t = true) ∨ ((s.iface n).st = 1 ∧ w = false)) ∧
    z ∈ [1, 2, 4, 8, 16, 32, 64] ∧ o % z = 0

/-- The function is bound, its aperture is on and its context stands between MEASURED and MIGRATING (R403). -/
def apertureOf (s : State) (n x : Nat) : Prop :=
  s.boundContext n = some x ∧ (s.iface n).force.getLsbD 3 = true ∧ 2 ≤ (s.context x).st ∧ (s.context x).st ≤ 6

/-- R403, R405: an access that is not taken or whose place is none is Unsupported Request, a write discarded; one whose place is
memory stores its bytes there or is answered with what stands there, once it may be issued. -/
def Aperture : Prop :=
  ∀ (s : State) (n o z : Nat) (t : Bool) (v : BitVec 512),
    (∀ w, ¬bar2Taken s n o z w t ∨ (∀ x, ¬apertureOf s n x) → exec (.evBar2Access n o z w t v) s =
      .next (if w = true then s else { s with hostReply := some (true, false, 0) })) ∧
    (∀ w x, bar2Taken s n o z w t → apertureOf s n x →
      let va := (if (s.iface n).st = 1 ∨ (s.iface n).st = 2 then (s.iface n).snapApbase else (s.iface n).apbase).toNat * 2 ^ 36 +
        o % 2 ^ 36
      let ur := Host.Outcome.next (if w = true then s else { s with hostReply := some (true, false, 0) })
      (s.touchesSieve x va z = true → exec (.evBar2Access n o z w t v) s = ur) ∧
      (s.touchesSieve x va z = false → s.touchesWindow x va z = false →
        (s.aperturePlace x va w = none → exec (.evBar2Access n o z w t v) s = ur) ∧
        ∀ p s1, s.aperturePlace x va w = some (p, s1) →
          (s1.mayIssue 0 p = false → turnsTo (.evBar2Access n o z w t v) s s [.evBar2Access n o z w t v]) ∧
          (s1.mayIssue 0 p = true → w = true → exec (.evBar2Access n o z w t v) s =
            .next ((s1.charge x 0).store p (toBytes z v.toNat) false false (wd va) (State.baseSource 4 0 0))) ∧
          (s1.mayIssue 0 p = true → w = false →
            let r := (s1.charge x 0).loadLine p z (wd va) (State.baseSource 4 0 0)
            exec (.evBar2Access n o z w t v) s = .next { r.2.2.2 with
              hostReply := some (false, if r.2.2.1 = true then (true, 0) else (false, BitVec.ofNat 512 (fromBytes r.1))) })))

/-- The fields of a QCFG value as a queue takes them; a WEIGHT of 0 leaves that field (R315). -/
def configured (x : Queue) (v : Word) : Queue :=
  { x with weight := if field v 32 8 = 0 then x.weight else field v 32 8, win := field v 28 4, vfv := field v 27 1 == 1,
           vf := field v 20 6, prio := field v 16 3, bound := field v 7 1 == 1, ctx := field v 0 7 }

/-- A write of QCFG changes what binds the queue (R315). -/
def rebinds (x : Queue) (v : Word) : Prop :=
  let y := configured x v
  y.vfv ≠ x.vfv ∨ y.vf ≠ x.vf ∨ y.win ≠ x.win ∨ y.bound ≠ x.bound ∨ y.ctx ≠ x.ctx

/-- And may not (R315). -/
def rebindRefused (s : State) (q : Nat) (v : Word) : Prop :=
  let x := s.queue q
  let y := configured x v
  rebinds x v ∧ y.bound = true ∧
    ((s.context y.ctx).st = 0 ∨ (s.context y.ctx).st = 7 ∨ (s.context y.ctx).st = 8 ∨ x.records ≠ [] ∨
      (y.vfv = true ∧ (s.iface y.vf).part ≠ (s.context y.ctx).part) ∨
      (y.vfv = true ∧ ∃ o ∈ s.queues, o.1 ≠ q ∧ o.2.vfv = true ∧ o.2.vf = y.vf ∧ o.2.win = y.win))

/-- R314-R316: a queue's configuration, and a function's submissions to its windows. -/
def QueueEvents : Prop :=
  ∀ (s : State) (q : Nat) (v : Word), let x := s.queue q
    let y := configured x v
    (rebindRefused s q v → exec (.evQcfgWrite q v) s = .next s) ∧
    (¬rebindRefused s q v →
      (y.bound = false → exec (.evQcfgWrite q v) s = .next
        { s.setQueue q { y with st := 0, records := [], unreadable := false, ready := false, got := [], gotN := 0, held := false } with
          groups := s.groups.filter fun g => g.2.queue ≠ q || g.2.st ≠ .retired }) ∧
      (y.bound = true → x.st = 0 → turnsTo (.evQcfgWrite q v) s
        (s.setQueue q { y with st := if (s.context y.ctx).st = 2 ∨ (s.context y.ctx).st = 3 then 1 else 2, lseq := 0, rejcnt := 0 })
        [.evAdmission]) ∧
      (y.bound = true → x.st ≠ 0 → turnsTo (.evQcfgWrite q v) s (s.setQueue q y) [.evAdmission])) ∧
    (∀ n o t f r, s.barOpen n t = true → 0x20000 ≤ o → o < 0x20400 → (s.iface n).force.getLsbD 0 = true →
      s.windowQueue n ((o - 0x20000) / 64) = some q →
      (f = false ∨ o % 64 ≠ 0 → exec (.evQueueSubmit n o t f r) s = .next (s.setQueue q { x with badwr := true })) ∧
      (f = true → o % 64 = 0 → (x.st ≠ 1 ∧ x.st ≠ 2) ∨ 16 ≤ x.records.length →
        exec (.evQueueSubmit n o t f r) s = .next (s.setQueue q { x with ovf := true })) ∧
      (f = true → o % 64 = 0 → x.st = 1 ∨ x.st = 2 → x.records.length < 16 →
        turnsTo (.evQueueSubmit n o t f r) s (s.setQueue q { x with records := x.records ++ [r] }) [.evAdmission])) ∧
    (∀ n o t f r, s.barOpen n t = false ∨ (s.iface n).force.getLsbD 0 = false → exec (.evQueueSubmit n o t f r) s = .next s)

/-- RTHRESH and WMIN of link n written with LK_CTL; a WMIN above 2 leaves that field (R415). -/
def ctlWritten (s : State) (n : Nat) (v : Word) : State :=
  s.setLink n { s.link n with rthresh := BitVec.ofNat 32 (field v 32 32),
                              wmin := if field v 8 3 ≤ 2 then field v 8 3 else (s.link n).wmin }

/-- Two events have the same outcome in a state. -/
def sameAs (i j : Instr) (s : State) : Prop := exec i s = exec j s

/-- R13, R315, R368, R388, R393-R395, R399, R402, R405, R407, R415, R433: a host write of a register has the register's effect;
one to a place without a register, to a read-only register or at an unaligned offset has none. -/
def RegisterWrites : Prop :=
  ∀ (s : State) (t : Bool) (v : Word),
    (∀ q < 256, sameAs (.evRegisterWrite none (0x100000 + 64 * q) t v) (.evQcfgWrite q v) s) ∧
    (∀ q < 256, exec (.evRegisterWrite none (0x100008 + 64 * q) t v) s = .next (s.setQueue q { s.queue q with
      ovf := (s.queue q).ovf && field v 5 1 == 0, badwr := (s.queue q).badwr && field v 4 1 == 0 })) ∧
    (∀ x < 128, exec (.evRegisterWrite none (0x110000 + 64 * x) t v) s =
        .next { s with s1root := put s.s1root x (v &&& 0x0000FFFFFFFFF001) } ∧
      exec (.evRegisterWrite none (0x110008 + 64 * x) t v) s =
        .next { s with s2root := put s.s2root x (v &&& 0x0000FFFFFFFFF001) }) ∧
    (∀ p < 32, sameAs (.evRegisterWrite none (0x140000 + 64 * p) t v) (.evPtCfgWrite p v) s ∧
      sameAs (.evRegisterWrite none (0x140008 + 64 * p) t v) (.evPtWaysWrite p v) s ∧
      sameAs (.evRegisterWrite none (0x140010 + 64 * p) t v) (.evPtRateWrite p v) s ∧
      ∀ i < 32, sameAs (.evRegisterWrite none (0x150000 + 256 * p + 8 * i) t v) (.evTilesetWrite p i v) s) ∧
    (∀ n < 64, sameAs (.evRegisterWrite none (0x160000 + 8 * n) t v) (.evVfBindWrite n v) s) ∧
    (∀ l < 32, sameAs (.evRegisterWrite none (0x1A0000 + 8 * l) t v) (.evPwLayerBudgetWrite l v) s) ∧
    (∀ n < 80,
      (field v 0 3 = 0 ∨ 6 ≤ field v 0 3 → exec (.evRegisterWrite none (0x170000 + 64 * n) t v) s = .next (ctlWritten s n v)) ∧
      (∀ c, [(1, Instr.evPause n), (2, .evResume n), (3, .evRetrain n), (4, .evDisable n), (5, .evEnable n)].lookup (field v 0 3) =
        some c → exec (.evRegisterWrite none (0x170000 + 64 * n) t v) s = exec c (ctlWritten s n v)) ∧
      exec (.evRegisterWrite none (0x170008 + 64 * n) t v) s = .next
        (if field v 15 1 = 1 then s.setLink n { s.link n with retryHi := false } else s) ∧
      sameAs (.evRegisterWrite none (0x170010 + 64 * n) t v) (.evLaneMark n v) s ∧
      exec (.evRegisterWrite none (0x170018 + 64 * n) t v) s = .next s) ∧
    (exec (.evRegisterWrite none 0x1B0010 t v) s = .next (if field v 1 1 = 1 then { s with lode := { s.lode with ovr := false } } else s)) ∧
    (∀ o, o % 8 ≠ 0 → exec (.evRegisterWrite none o t v) s = .next s) ∧
    (∀ n < 64, s.barOpen n t = true →
      exec (.evRegisterWrite (some n) 0 t v) s = .next (s.setIface n { s.iface n with ctl := BitVec.ofNat 4 (field v 0 4) }) ∧
      exec (.evRegisterWrite (some n) 0x10 t v) s =
        .next (s.setIface n { s.iface n with apbase := BitVec.ofNat 21 (field v 36 21) }) ∧
      ∀ x < 128, exec (.evRegisterWrite (some n) (0x30000 + 64 * x) t v) s = .next
        (if (s.context x).st ≠ 0 ∧ (s.context x).iface = some n
         then { s with s1root := put s.s1root x (v &&& 0x0000FFFFFFFFF001) } else s)) ∧
    (∀ n o, (s.iface n).st = 3 → exec (.evRegisterWrite (some n) o t v) s = .next s)

end Sys2Proof.Claims

/-- R393-R399, R403-R405: partitions, functions and the BAR 2 aperture. -/
def Obligations.PartitionsAndFunctions : Prop := Sys2Proof.Claims.Partitions ∧ Sys2Proof.Claims.Interfaces ∧ Sys2Proof.Claims.Aperture

/-- R13, R314-R316: queues as the host sees them, and the registers it writes. -/
def Obligations.QueuesAndRegisters : Prop := Sys2Proof.Claims.QueueEvents ∧ Sys2Proof.Claims.RegisterWrites

/-! ## Beats, elements and threads as they go on (R54, R57, R58, R73, R98-R105, R144, R150, R160, R177, R195, R204, R212, R213, R230) -/

namespace Sys2Proof.Claims
open Sys2Proof Sys2Proof.Machine

/-- Nothing differs but tiles, groups and what is to come. -/
def fabricOnly (s t : State) : Prop := { t with tiles := s.tiles, groups := s.groups, now := s.now, agenda := s.agenda } = s

/-- Event i leaves slot n of tile p as x; no other slot of the tile differs. -/
def slotBecomes (i : Instr) (s : State) (p n : Nat) (x : Slot) : Prop :=
  ∃ t, exec i s = .next t ∧ t.slot p n = x ∧ (∀ m, m ≠ n → t.slot p m = s.slot p m) ∧ fabricOnly s t

/-- A result for a consumer, if there is one (R47). -/
def toConsumer (d : BitVec 9) (b : Beat) : List (BitVec 9 × Beat) := if d = 0x1FF then [] else [(d, b)]

/-- R73, R100, R54: results that are due leave the pipeline in order, a beat advances to its consumer's port with its source and
region, and a beat that fails R54's checks goes on as a poisoned DATA beat and is counted at the edge. -/
def Beats : Prop :=
  ∀ (s : State) (p n : Nat), let x := s.slot p n
    (x.held = true → exec (.evFiringResult p n) s = .next s ∧ exec (.evBeatAdvance p n) s = .next s) ∧
    (x.held = false → ∀ a b, x.pipe = a ++ b → (∀ r ∈ a, r.due ≤ s.fc) → (∀ r, b.head? = some r → s.fc < r.due) →
      slotBecomes (.evFiringResult p n) s p n { x with pipe := b, out := x.out ++ a.map fun r => (r.dest, r.beat) }) ∧
    (x.held = false → x.st ≠ .parked → ∀ d b, x.out = [(d, b)] → ¬(b.kind = .caplo ∧ b.cfg = false) → d.toNat % 8 < 4 → d.toNat / 8 < 60 → d.toNat / 8 ≠ n →
      (d.toNat / 8 = 0 → (s.tile p).pair = false ∨ (s.slot p 0).st ≠ .empty) →
      ((s.slot p (d.toNat / 8)).port (d.toNat % 8)).length < 1024 →
      (s.slot p (d.toNat / 8)).live = false ∨ d.toNat % 8 ∈ (s.slot p (d.toNat / 8)).reads →
      ∃ t, exec (.evBeatAdvance p n) s = .next t ∧ fabricOnly s t ∧ (t.slot p n).out = [] ∧
        (t.slot p (d.toNat / 8)).port (d.toNat % 8) =
          joinBeat ((s.slot p (d.toNat / 8)).port (d.toNat % 8)) { beat := b, src := n, region := x.region }) ∧
    (∀ e c v q, let y := s.tile p
      (∀ b, beatOf v q = some b → turnsTo (.evBeatInvalid p e c v q) s
        (s.setTile p { y with inch := put y.inch (8 * e + c) (joinBeat (look [] y.inch (8 * e + c)) { beat := b }) }) []) ∧
      (beatOf v q = none → turnsTo (.evBeatInvalid p e c v q) s
        (s.setTile p { y with inch := put y.inch (8 * e + c) (joinBeat (look [] y.inch (8 * e + c)) { beat := { poi := true } }),
                              meshErr := put y.meshErr e
                                (if look 0 y.meshErr e = 0xFFFF then 0xFFFF else look 0 y.meshErr e + 1) }) []))

/-- R100-R102, R104: a region all of whose members due at its position can fire and apply no configuration word in the fc, at the start
of an iteration with its actor counters open, fires them and advances; else it holds where it is, and comes again after a word. -/
def Regions : Prop :=
  ∀ (s : State) (g r : Nat), (look {} (s.group g).regions r).armed = true → (s.group g).frozenAt = none →
    (∀ q ∈ s.dueMembers g r, q.2 < 40 ∨ 48 ≤ q.2) →
    let x := look {} (s.group g).regions r
    ((∀ q ∈ s.dueMembers g r, s.memberReady q = true ∧ s.wordNow q = false) → (∀ q ∈ s.members g r, (s.slot q.1 q.2).held = false) →
      (x.advanced % s.masterII g r = 0 → s.actorOpen g r = true) →
      ∃ t, exec (.evRegionFire g r) s = .next t ∧ look {} (t.group g).regions r = { x with advanced := x.advanced + 1, gated := false } ∧
        Turn.event (.evRegionFire g r) ∈ t.agenda) ∧
    ((∃ q ∈ s.dueMembers g r, s.memberReady q = false) ∨ (∃ q ∈ s.members g r, (s.slot q.1 q.2).held = true) ∨
        (x.advanced % s.masterII g r = 0 ∧ s.actorOpen g r = false) ∨ (∃ q ∈ s.dueMembers g r, s.wordNow q = true) →
      ∃ t, exec (.evRegionFire g r) s = .next t ∧ (look {} (t.group g).regions r).advanced = x.advanced ∧
        ((∃ q ∈ s.dueMembers g r, s.wordNow q = true) → Turn.event (.evRegionFire g r) ∈ t.agenda))

/-- A slot with constant k set (R107). -/
def withConst (x : Slot) (k v : Nat) : Slot := { x with consts := put x.consts k (BitVec.ofNat 64 v) }

/-- R57, R58, R104: a configuration word at the head of a port of a configured slot takes effect by its SEL and leaves the port; a
poisoned or invalid one leaves it and is counted. (An operand port of the matrix node takes its words as an operation opens it, R190;
a SEED word in an open online stream waits for its end, R179.) -/
def ConfigWords : Prop :=
  ∀ (s : State) (p n o : Nat) (a : Arrived) (l : List Arrived), let x := s.slot p n
    let w := a.beat.data
    let v := field w 0 56
    let y := { x.setPort o l with wordFc := some s.fc }
    x.st = .configured → x.held = false → o < 4 → x.port o = a :: l → a.beat.cfg = true →
    (o < 3 → x.op < 0xB0 ∨ 0xC0 ≤ x.op) →
    (a.beat.poi = false →
      (field w 56 8 = 0 → v < 2 ^ 20 → v / 64 % 64 ≤ v % 64 → slotBecomes (.evConfigWordApply p n o) s p n
        { y with region := v / 2 ^ 12, phase := v / 64 % 64, ii := v % 64 + 1 }) ∧
      (field w 56 8 = 1 → v < 2 ^ 34 → slotBecomes (.evConfigWordApply p n o) s p n
        (withConst y (v / 2 ^ 32)
          ((x.const (v / 2 ^ 32)).toNat / 2 ^ 32 * 2 ^ 32 + v % 2 ^ 32))) ∧
      (field w 56 8 = 2 → v < 2 ^ 34 → slotBecomes (.evConfigWordApply p n o) s p n
        (withConst y (v / 2 ^ 32)
          (v % 2 ^ 32 * 2 ^ 32 + (x.const (v / 2 ^ 32)).toNat % 2 ^ 32))) ∧
      (field w 56 8 = 3 → v ≤ 4 → ∃ m, some m = [RMode.ne, .tz, .pi, .ni, .sr][v]? ∧
        slotBecomes (.evConfigWordApply p n o) s p n { y with round := m }) ∧
      (field w 56 8 = 4 → v < 2 ^ 32 → (0xA0 ≤ x.op → x.op < 0xA8 → x.run.isOpen = false) → slotBecomes (.evConfigWordApply p n o) s p n
        { y with seed := if v = 0 then 0x9E3779B9 else BitVec.ofNat 32 v, gens := [] })) ∧
    (a.beat.poi = true ∨ (field w 56 8 = 0 ∧ 2 ^ 20 ≤ v) ∨ (field w 56 8 = 3 ∧ 4 < v) ∨ (5 ≤ field w 56 8 ∧ field w 56 8 < 16) ∨
        64 ≤ field w 56 8 →
      ∃ t, exec (.evConfigWordApply p n o) s = .next t ∧ t.slot p n = y ∧ countsError s t (s.handleOf p))

/-- R98, R152, R345: at a cut an element parks once it may, its current pages dropped, and waits until then. -/
def Parking : Prop :=
  ∀ (s : State) (p n : Nat), let x := s.slot p n
    (s.group (s.handleOf p)).st = .cutting → (x.st = .armed ∨ x.st = .gated) →
    (s.mayPark p n = true → n ≠ 56 → slotBecomes (.evElementPark p n) s p n { x with st := .parked, run := { x.run with pages := [] } }) ∧
    (s.mayPark p n = false → turnsTo (.evElementPark p n) s s [.evElementPark p n])

/-- Event i performs request q of a generator: with its address translated, and the L1 with its line or its port tile ready and its
limiter, interface and path open, it is outstanding no more; with no translation it is spilled at its port tile (R144, R150, R265, R372). -/
def performs (i : Instr) (s : State) (p n : Nat) (q : Req) : Prop :=
  let h := s.handleOf p
  (q.aborted = true → ∃ t, exec i s = .next t ∧ t.mem = s.mem ∧ t.openReq p n q.id = none) ∧
  (q.aborted = false → (q.kind = .load → s.touchesWindow (s.group h).ctx (field q.va 0 57) q.size = false) →
    s.spilledOf h q.port = [] → s.behindLine p n q = false → s.behindReplay h q = false →
    (∀ ph s1 port, s.xlatReq p n q = .ok (ph, s1) → port = s1.slicePort h (s1.portTile h p q.port) ph →
      (q.kind = .load ∧ s1.l1Serves port ph = true) ∨ s1.mayIssue (stackOfTile port) ph = true ∧
        ((∃ e ∈ (s1.group h).ports, e.2 = port) → port ∈ (s1.layer (layerOfTile port)).ports) →
      ∃ t, exec i s = .next t ∧ t.openReq p n q.id = none) ∧
    (∀ f, s.xlatReq p n q = .error f → ∃ t, exec i s = .next t ∧ ∃ o ∈ (t.slot p n).run.reqs, o.id = q.id ∧ o.spilled = true))

/-- R144, R150, R160, R268: a generator's requests, its completion beat, an axlat's lookups, a bank's transfers. -/
def UnitEvents : Prop :=
  ∀ (s : State) (p n k : Nat), let x := s.slot p n
    (∀ q, s.openReq p n k = some q → (q.kind ≠ .store → performs (.evMemoryReply p n k) s p n q) ∧
      (q.kind = .store → performs (.evStoreAck p n k) s p n q)) ∧
    (s.openReq p n k = none → exec (.evMemoryReply p n k) s = .next s ∧ exec (.evStoreAck p n k) s = .next s) ∧
    (∀ q, x.run.reqs = [q] → q.kind = .complete → x.held = false → ∃ t, exec (.evRunCompletionBeat p n) s = .next t ∧
      t.slot p n = { x with run := { x.run with reqs := [] }, out := x.out ++ toConsumer x.cx { data := q.data } } ∧
      ∀ j, look 0 t.l1gen j = look 0 s.l1gen j +
        ((s.group (s.handleOf p)).ports.filter fun e => e.2 * 128 + (s.group (s.handleOf p)).ctx = j).length) ∧
    (∀ b l, x.run.lookups = b :: l → x.held = false → b.isLoop = false → b.poi = false →
      let u := s.setSlot p n { x with run := { x.run with lookups := l } }
      (∀ r, u.translate x.run.cache 64 { u.elemAsker p with noAts := true } (field b.data 0 57) {} = .ok r →
        ∃ t, exec (.evXlatWalkComplete p n) s = .next t ∧ (t.slot p n).run.lookups = l ∧
          (t.slot p n).out = x.out ++ toConsumer x.cx { data := b.data, kind := resultKind b.kind }) ∧
      (∀ f, u.translate x.run.cache 64 { u.elemAsker p with noAts := true } (field b.data 0 57) {} = .error f →
        ∃ t, exec (.evXlatWalkComplete p n) s = .next t ∧ (t.slot p n).run.lookups = l ∧
          (t.slot p n).out = x.out ++ toConsumer x.cy { data := b.data, kind := resultKind b.kind })) ∧
    (∀ b d len dst src, x.run.command = some b → x.held = false →
      State.bankCommand x.op (n - 32) b.data = some (d, len, dst, src) →
      (s.fc < x.run.due → turnsTo (.evBankTransferComplete p n) s s [.evBankTransferComplete p n]) ∧
      ∀ u, u = (s.touchBytes p d dst len).touchBytes p (n - 32) (if x.op = 0x86 then 0 else src) (if x.op = 0x86 then 0 else len) →
      x.run.due ≤ s.fc → cellsWf (u.bank p d).cells = true →
      ∃ t, exec (.evBankTransferComplete p n) s = .next t ∧ (t.slot p n).run.command = none ∧
        (t.slot p n).out = x.out ++ toConsumer x.cx (forwarded b) ∧
        ∀ i < len, getByte (t.bank p d).cells (dst + i) =
          if x.op = 0x86 then BitVec.ofNat 8 ((x.const 0).toNat / 256 ^ (i % 8))
          else getByte (u.bank p (n - 32)).cells (src + i)) ∧
    (x.live = true → (∀ u, s.examineCut p n = some u → turnsTo (.evOnlineCut p n) s u []) ∧
      (s.examineCut p n = none → exec (.evOnlineCut p n) s = .next s))

/-- R195: a working copy becomes visible whole: every cell of its region, and nothing of the other buffer. R204, R433: a window's
budget and ramp limit come into force. -/
def MatrixEvents : Prop :=
  ∀ s : State,
    (∀ p w, (s.tile p).mat.work = some w → (s.slot p 56).held = false → w.buf < 2 → 0 < w.n →
      w.n ≤ (if w.wide = true then 8 else 16) → (((s.tile p).mat.buf w.buf).map (·.1)).Pairwise (· < ·) →
      ∃ t, exec (.evMatrixCommit p) s = .next t ∧ fabricOnly s t ∧ (t.tile p).mat.work = none ∧
        (t.tile p).mat.committed = (s.tile p).mat.committed + 1 ∧
        (t.tile p).mat.buf (1 - w.buf) = (s.tile p).mat.buf (1 - w.buf) ∧
        ∀ k < w.cells.length, (t.tile p).mat.cell w.buf w.wide (k / (16 * w.n)) (k % (16 * w.n)) =
          w.cells.getD k 0 % 2 ^ (if w.wide = true then 64 else 32)) ∧
    (∀ p, (s.tile p).mat.work = none → exec (.evMatrixCommit p) s = .next s) ∧
    (∀ l, (s.layer l).limitsFrom ≤ s.fc / 64 → exec (.evGovernorWindow l) s =
      .next (s.setLayer l { s.layer l with bud := (s.layer l).budNext, ramp := (s.layer l).rampNext })) ∧
    (∀ l, s.fc / 64 < (s.layer l).limitsFrom → turnsTo (.evGovernorWindow l) s s [.evGovernorWindow l])

/-- The blocking instructions of R213 that a tile thread waits in, other than accesses, TLBSYNC and GSTAT. -/
def waiter : Instr → Bool
  | .ssend .. => true
  | .sseed .. => true
  | .sload .. => true
  | .srecv .. => true
  | .sdrain .. => true
  | .sbar => true
  | .msend .. => true
  | .mrecv .. => true
  | .ecopy .. => true
  | .egather .. => true
  | .ecoll .. => true
  | .bwait .. => true
  | .barvw .. => true
  | .bcst .. => true
  | .bcfence => true
  | _ => false

/-- R212, R213, R214, R230, R239: a thread whose condition holds completes the instruction it waits in, as it was when it began to
wait; one whose access waited takes it up again at once; one whose streams have drained is YIELDING; a sleep that has run out goes to the
next instruction; a message the hardware holds enters its channel in its turn. -/
def ThreadEvents : Prop :=
  ∀ s : State,
    (∀ t w i, (s.thread t).st = .waiting → (s.thread t).frozen = false → s.waitMet t = true → t < 16384 →
      (s.thread t).wait ≠ .drain → State.retries (s.thread t).wait = false → (s.thread t).instr = some w →
      decodeHelm w.toNat = .ok i → waiter i = true →
      ∃ u, exec i { s with cur := t } = .next u ∧ exec (.evBlockingConditionMet t) s = .next (u.settle w 1)) ∧
    (∀ t, (s.thread t).st = .waiting → (s.thread t).frozen = false → s.waitMet t = true →
      State.retries (s.thread t).wait = true → exec (.evBlockingConditionMet t) s =
        .next (({ s with cur := t, now := .resume t :: s.now } : State).setThread t
          { s.thread t with st := .ready, wait := .none })) ∧
    (∀ t, (s.thread t).st = .waiting → (s.thread t).frozen = false → (s.thread t).wait = .drain → s.unitDrained t = true →
      exec (.evBlockingConditionMet t) s =
        .next (({ s with cur := t } : State).setThread t { s.thread t with st := .yielding, wait := .none, instr := none })) ∧
    (∀ t, s.waitMet t = false ∨ (s.thread t).st ≠ .waiting ∨ (s.thread t).frozen = true →
      exec (.evBlockingConditionMet t) s = .next s) ∧
    (∀ t, (s.thread t).st = .waiting → (s.thread t).wait = .sleep → (s.thread t).frozen = false → (s.thread t).wakeAt ≤ s.fc →
      ∃ u, exec (.evSleepExpire t) s = .next u ∧ u.thread t = { advanced (s.thread t) with instr := none } ∧
        (∀ k, k ≠ t → u.thread k = s.thread k) ∧ { u with threads := s.threads, cur := s.cur } = s) ∧
    (∀ t, (s.thread t).wait ≠ .sleep ∨ s.fc < (s.thread t).wakeAt → exec (.evSleepExpire t) s = .next s) ∧
    (∀ c m l, (s.chan c).held = m :: l →
      ((s.chan c).msgs.length < 16 → (∀ w ∈ s.waiters (.chanFree c), m.since ≤ (s.thread w).waitSince) →
        turnsTo (.evHeldMessageEnter c) s (s.setChan c { msgs := (s.chan c).msgs ++ [m.word], held := l })
          (if l = [] then [] else [.evHeldMessageEnter c])) ∧
      (16 ≤ (s.chan c).msgs.length ∨ (∃ w ∈ s.waiters (.chanFree c), (s.thread w).waitSince < m.since) →
        turnsTo (.evHeldMessageEnter c) s s [.evHeldMessageEnter c])) ∧
    (∀ c, (s.chan c).held = [] → exec (.evHeldMessageEnter c) s = .next s) ∧
    (∀ w, s.th.inTrap = false → s.tecap s.cur ≠ {} → exec (.evIllegalOp w) s =
      .next (s.setTh (s.enterTrap s.cur 1 0 (w.setWidth 64) s.pc)))

end Sys2Proof.Claims

/-- R54, R57, R58, R73, R98-R104, R345: beats on their way, regions, configuration words, parking. -/
def Obligations.FabricEvents : Prop := Sys2Proof.Claims.Beats ∧ Sys2Proof.Claims.Regions ∧ Sys2Proof.Claims.ConfigWords ∧
  Sys2Proof.Claims.Parking

/-- R144, R150, R160, R177, R195, R204, R212, R213, R230: what units and threads began comes to its end. -/
def Obligations.UnitAndThreadEvents : Prop := Sys2Proof.Claims.UnitEvents ∧ Sys2Proof.Claims.MatrixEvents ∧
  Sys2Proof.Claims.ThreadEvents

/-! ## Engines, barriers, the Beacon and the Sieve at work (R166, R232, R233, R258-R262, R280-R293, R296, R297, R355-R362) -/

namespace Sys2Proof.Claims
open Sys2Proof Sys2Proof.Machine

/-- Request k stands performed in t with the given status and bytes. -/
def answered (t : State) (k status bytes : Nat) : Prop :=
  ∃ o ∈ t.engines, o.id = k ∧ o.performed = true ∧ o.status = status ∧ o.bytes = bytes

/-- R232, R233, R166: the last unit of a copy or gather performs it, its last-beat token on the way, and an access that stops leaves it
where it is; of a combination the participants that differ are answered MISMATCH, else what they read is written to each of them; a performed request leaves with its message; a token
reaches the tile's klast or is counted. -/
def EngineEvents : Prop :=
  ∀ s : State,
    (∀ k e0, s.engines.find? (·.id == k) = some e0 → e0.paused = false → e0.performed = false → s.engBehind e0 = false → s.engWaits e0 = false →
      let e := { e0 with edge := none }
      let done := fun (e1 : EngReq) (s1 : State) => ∃ t, exec (.evEngineTransfer k) s = .next t ∧ t.mem = s1.mem ∧
        answered t k e1.status e1.bytes ∧ Turn.event (.evEngineResponse k) ∈ t.agenda ∧
        (isCore e.thread = false → e1.bytes ≠ 0 →
          Turn.event (.evLastBeatTokenArrive (ptidOf e.thread) (field e.word 8 8) e1.bytes) ∈ t.agenda)
      (∀ u, e.kind = 0 → (State.copyUnits e).drop e.next = [u] →
        (∀ e1 s1, s.copyUnit e u = .ok (e1, s1) → e1.bytes = e.bytes + u.2 ∧ done e1 s1) ∧
        (∀ s1, s.copyUnit e u = .error s1 → exec (.evEngineTransfer k) s = .next s1)) ∧
      (∀ i, e.kind = 1 → (List.range e.gatherCount).drop e.next = [i] →
        (∀ s1, s.gatherFlush e (State.fullGranules e i) = .error s1 → exec (.evEngineTransfer k) s = .next s1) ∧
        ∀ e1 s1, s.gatherFlush e (State.fullGranules e i) = .ok (e1, s1) →
          (∀ s2, s1.gatherUnit e1 i = .error s2 → exec (.evEngineTransfer k) s = .next s2) ∧
          ∀ e2 s2, s1.gatherUnit e1 i = .ok (e2, s2) → let w := s2.setEngine e2
            (∀ s3, w.gatherFlush e2 (State.fullGranules e2 e.gatherCount) = .error s3 →
              exec (.evEngineTransfer k) s = .next s3) ∧
            (∀ e3 s3, w.gatherFlush e2 (State.fullGranules e2 e.gatherCount) = .ok (e3, s3) → done e3 s3))) ∧
    (∀ k e, s.engines.find? (·.id == k) = some e → e.paused = true ∨ e.performed = true ∨ s.engBehind e = true ∨ s.engWaits e = true →
      exec (.evEngineTransfer k) s = .next s) ∧
    (∀ h e l, s.collParties h = e :: l →
      ((∃ o ∈ e :: l, o.paused = true ∨ s.partyBehind (e :: l) o = true) → exec (.evEcollCombine h) s = .next s) ∧
      ((∀ o ∈ e :: l, o.paused = false ∧ s.partyBehind (e :: l) o = false) →
        ((∃ o ∈ l, o.op ≠ e.op ∨ o.collCount ≠ e.collCount) → ∃ t, exec (.evEcollCombine h) s = .next t ∧
          (t.home h).collsDone = (s.home h).collsDone.tail ∧
          ∀ o ∈ e :: l, ∃ q ∈ t.engines, q.id = o.id ∧ q.performed = true ∧ q.status = 3) ∧
        ((∀ o ∈ l, o.op = e.op ∧ o.collCount = e.collCount) →
          let u := (e :: l).foldl (fun a o => a.setEngine { o with edge := none }) s
          (∀ s1, u.collReads (u.collParties h) = .error s1 → exec (.evEcollCombine h) s = .next s1) ∧
          ∀ s1, u.collReads (u.collParties h) = .ok s1 → let es := s1.collParties h
            let poi := (List.range e.collCount).filter fun i => es.any fun o => State.collPoi o i
            (∀ s2, s1.collWrites (State.collResult es) poi es = .error s2 → exec (.evEcollCombine h) s = .next s2) ∧
            ∀ s2, s1.collWrites (State.collResult es) poi es = .ok s2 → ∃ t, exec (.evEcollCombine h) s = .next t ∧
              t.mem = s2.mem ∧ (t.home h).collsDone = (s2.home h).collsDone.tail ∧
              ∀ o ∈ s2.collParties h, ∃ q ∈ t.engines, q.id = o.id ∧ q.performed = true))) ∧
    (∀ k e, s.engines.find? (·.id == k) = some e → e.performed = true →
      (isCore e.thread = true ∨ s.groupHeld e.gh = false ∧ s.groupAway e.gh = false) →
      (e.rch = 255 ∨ ∀ o ∈ s.engines, o.thread = e.thread → o.gh = e.gh → o.rch = e.rch → e.id ≤ o.id) →
      ∃ t, exec (.evEngineResponse k) s = .next t ∧ (∀ o ∈ t.engines, o.id ≠ k) ∧ bytesKept s t ∧
        (e.rch ≠ 255 → told s t (s.chanAt e.thread e.rch) (wd (e.status + field e.word 8 8 * 2 ^ 8 + e.bytes * 2 ^ 16))) ∧
        (∀ n, (s.context e.ctx).iface = some n → (t.iface n).bbseq =
          (s.iface n).bbseq + if e.kind = 0 ∧ e.bounce = true ∧ e.status = 0 ∧ e.rch ≠ 255 ∧ e.spoilt = false then 1 else 0)) ∧
    (∀ k e, s.engines.find? (·.id == k) = some e →
      e.performed = false ∨ isCore e.thread = false ∧ (s.groupHeld e.gh = true ∨ s.groupAway e.gh = true) → exec (.evEngineResponse k) s = .next s) ∧
    (∀ p k n, let x := s.slot p 59
      (x.st ≠ .empty → x.op = 0xCD → x.param 0x10 0 = k → turnsTo (.evLastBeatTokenArrive p k n) s
        (s.setTile p { s.tile p with tokens := (s.tile p).tokens ++ [(k, n)] }) []) ∧
      (x.st = .empty ∨ x.op ≠ 0xCD ∨ x.param 0x10 0 ≠ k →
        ∃ t, exec (.evLastBeatTokenArrive p k n) s = .next t ∧ countsError s t (s.handleOf p)))

/-- A slot holds a kbar element of barrier b (R166). -/
def hasKbar (b : Nat) (x : Slot) : Prop := x.op = 0xCF ∧ x.st ≠ .empty ∧ x.param 0x10 0 = b

/-- Row r is one that a layer's refill still copies: in a context's window, at or after the place it has come to, and not fresh
(R290). -/
def refillable (s : State) (l r : Nat) : Prop :=
  (s.layer l).refillRow ≤ r ∧ r ∉ (s.layer l).buf.fresh ∧
    ∃ c ∈ s.contexts, c.2.bwoff / 64 ≤ r ∧ r < (c.2.bwoff + c.2.bwlen) / 64

/-- A buffer after a Sieve's clear of granule g: its tag goes if it still holds what the Sieve examined (R259, R282). -/
def cleared (b : BeaconBuf) (g : Nat × Cap) : BeaconBuf := if b.read (g.1 * 16) 16 = State.capBytes g.2 then b.clearTag g.1 else b

/-- R355-R362: an arrival leaves for its home and stands there among the messages by the fc in which it reaches it; a home counts it
and completes the phase with the last one; an init opens the home or sets its count; completions and replies reach the records, and a
completion releases the threads that wait and gives kbar its beat. -/
def BarrierEvents : Prop :=
  ∀ s : State,
    (∀ p b m, (s.tile p).leaving.find? (·.1 == b) = some m →
      let u := s.setTile p { s.tile p with leaving := (s.tile p).leaving.erase m }
      let h := u.homeAt p b (u.barrier p b).scope
      turnsTo (.evBarrierArrivalSend p b) s (u.setHome h { s.home h with
        inbox := enterInbox (s.fc + u.homeHops h p, .arrival p m.2) (s.home h).inbox }) [.evBarrierHomeArrival h]) ∧
    (∀ h r m l, (s.home h).inbox = (r, m) :: l → s.fc < r →
      turnsTo (.evBarrierHomeArrival h) s s [.evBarrierHomeArrival h] ∧ turnsTo (.evBarrierHomeInit h) s s [.evBarrierHomeInit h]) ∧
    (∀ h r p coll l, (s.home h).inbox = (r, .arrival p coll) :: l → r ≤ s.fc → let x := { s.home h with inbox := l }
      let need := if x.exp = 0 then 65536 else x.exp.toNat
      (x.isOpen = false → exec (.evBarrierHomeArrival h) s = .next (s.setHome h x)) ∧
      (x.isOpen = true → x.arr + 1 < need → exec (.evBarrierHomeArrival h) s =
        .next (s.setHome h { x with arr := x.arr + 1, colls := x.colls ++ coll.toList })) ∧
      (x.isOpen = true → need ≤ x.arr + 1 → ∃ t, exec (.evBarrierHomeArrival h) s = .next t ∧
        t.home h = { x with arr := 0, ph := !x.ph, colls := [],
                            collsDone := x.collsDone ++ if x.colls ++ coll.toList = [] then [] else [x.colls ++ coll.toList] } ∧
        (x.colls ++ coll.toList ≠ [] → Turn.event (.evEcollCombine h) ∈ t.agenda) ∧
        (∀ q b, h = .tile q b → (s.barrier q b).valid = true → (s.barrier q b).scope = 2 →
          (t.tile q).phases = (s.tile q).phases ++ [(b, !x.ph, s.fc)]) ∧
        (∀ g b, h = .group g b → ∀ q ∈ (s.group g).tiles, (s.barrier q.2.2 b).valid = true →
          s.homeAt q.2.2 b (s.barrier q.2.2 b).scope = h → (b, !x.ph, s.fc + s.homeHops h q.2.2) ∈ (t.tile q.2.2).phases) ∧
        (∀ c k b, h = .stack c k b → (t.stack k).completions = (s.stack k).completions ++ [(c, b, !x.ph)]) ∧
        (∀ c b, h = .package c b → ∀ k < 4, (t.stack k).completions = (s.stack k).completions ++ [(c, 256 + b, !x.ph)]))) ∧
    (∀ h r p e l, (s.home h).inbox = (r, .init p e) :: l → r ≤ s.fc → let x := s.home h
      ∃ t, exec (.evBarrierHomeInit h) s = .next t ∧ Turn.event (.evBarrierInitReply p (homeNum h)) ∈ t.now ++ t.agenda ∧
        (t.tile p).replies = (s.tile p).replies ++ [(homeNum h, if x.isOpen = true then x.ph else false, s.fc + s.homeHops h p)] ∧
        t.home h = { x with inbox := l, isOpen := true, ph := if x.isOpen = true then x.ph else false,
                            exp := if x.isOpen = true ∧ x.arr ≠ 0 then x.exp else e, arr := if x.isOpen = true then x.arr else 0 } ∧
        (x.isOpen = true → x.arr ≠ 0 → e ≠ x.exp → countsError s t (s.handleOf p))) ∧
    (∀ p b m, (s.tile p).phases.find? (·.1 == b) = some m → s.groupHeld (s.handleOf p) = false →
      (s.fc < m.2.2 → turnsTo (.evBarrierCompletionApply p b) s s [.evBarrierCompletionApply p b]) ∧
      (m.2.2 ≤ s.fc → ∃ t, exec (.evBarrierCompletionApply p b) s = .next t ∧ t.barrier p b = { s.barrier p b with pv := m.2.1 } ∧
        (t.tile p).phases = (s.tile p).phases.erase m ∧ bytesKept s t ∧
        (∀ k ∈ (s.setBarrier p b { s.barrier p b with pv := m.2.1 }).phaseWaiters p b, (t.thread k).st = .ready ∧
          (t.thread k).pcc = { (s.thread k).pcc with lo := (s.thread k).pcc.lo + 4 } ∧ (b ∈ (t.thread k).ap ↔ m.2.1 = true)) ∧
        (hasKbar b (s.slot p 59) → (t.tile p).completions = (s.tile p).completions ++ [(b, m.2.1)] ∧
          Turn.element p 59 ∈ t.now))) ∧
    (∀ p b m, (s.tile p).replies.find? (·.1 == b) = some m → s.groupHeld (s.handleOf p) = false →
      (s.fc < m.2.2 → turnsTo (.evBarrierInitReply p b) s s [.evBarrierInitReply p b]) ∧
      (m.2.2 ≤ s.fc → ∃ t, exec (.evBarrierInitReply p b) s = .next t ∧
        t.barrier p b = { s.barrier p b with pv := m.2.1, pend := false } ∧
        (t.tile p).replies = (s.tile p).replies.erase m ∧ bytesKept s t ∧
        ∀ i < 8, b ∈ (t.thread (p * 8 + i)).ap ↔ m.2.1 = true)) ∧
    (∀ p b, s.groupHeld (s.handleOf p) = true →
      exec (.evBarrierCompletionApply p b) s = .next s ∧ exec (.evBarrierInitReply p b) s = .next s)

/-- R280-R293, R296, R297: frames, slots, rows read, sleep, wake and refill. -/
def BeaconEvents : Prop :=
  ∀ s : State,
    (∀ k, let b := s.stack k
      (s.fc % 1024 ≠ 0 ∨ s.fc / 1024 ≤ b.frame → turnsTo (.evBeaconFrame k) s
        (if s.fc % 1024 = 992 then s.setStack k { b with reported := s.reports k } else s) [.evBeaconFrame k]) ∧
      (s.fc % 1024 = 0 → b.frame < s.fc / 1024 → ∃ t, exec (.evBeaconFrame k) s = .next t ∧ bytesKept s t ∧
        (t.stack k).frame = s.fc / 1024 ∧ (t.stack k).announce = b.pending.filter (·.2 ≠ .free) ∧ (t.stack k).pending = [] ∧
        (t.stack k).reported = [] ∧
        (∀ r x, b.announce = [(r, .granted x)] → b.pending = [] → look .free (t.stack k).runs r = .granted x) ∧
        (∀ r x, b.announce = [(r, .reclaim x)] → b.pending = [] → look .free (t.stack k).runs r = .free) ∧
        (∀ r x, b.announce = [] → b.pending = [(r, .reclaim x)] → look .free (t.stack k).runs r = .reclaim x) ∧
        (∀ l, l / 8 = k → (s.layer l).bstate = 1 → (t.layer l).listen = false) ∧
        (∀ l, l / 8 = k → (s.layer l).bstate ≠ 1 → (t.layer l).listen = true))) ∧
    (∀ k n, s.fc < 1024 * (s.stack k).frame + 2 * n + 2 →
      (s.fc ≠ 1024 * (s.stack k).frame + 2 * n ∨ n < 16 ∨ 512 ≤ n ∨ s.slotPayload k n = none →
        turnsTo (.evBeaconSlot k n) s s [.evBeaconSlot k n]) ∧
      (∀ l y, s.fc = 1024 * (s.stack k).frame + 2 * n → 16 ≤ n → n < 512 → s.slotPayload k n = some (l, y) →
        ∃ t, exec (.evBeaconSlot k n) s = .next t ∧ (t.layer l).queue = (s.layer l).queue.erase y ∧
          find (t.stack k).carried n = some y ∧ (t.stack k).base = (s.stack k).base ∧ Turn.event (.evBeaconSlot k n) ∈ t.agenda)) ∧
    (∀ k n, 1024 * (s.stack k).frame + 2 * n + 2 ≤ s.fc →
      (∀ y, 16 ≤ n → n < 512 → find (s.stack k).carried n = some y → let z := s.filterPayload y
        ∃ t, exec (.evBeaconSlot k n) s = .next t ∧
        (t.stack k).carried = del (s.stack k).carried n ∧ (t.stack k).base = (s.stack k).base.writeRow z false ∧
        ∀ j, j / 8 = k → (t.layer j).buf =
          if (s.layer j).listen = true then (s.layer j).buf.writeRow z ((s.layer j).bstate == 2) else (s.layer j).buf) ∧
      (∀ x b ph l, 1 ≤ n → n ≤ 4 → (s.stack k).completions = (x, b, ph) :: l → ∃ t, exec (.evBeaconSlot k n) s = .next t ∧
        (t.stack k).completions = l ∧ ∀ p ∈ s.homeTiles (if b < 256 then .stack x k b else .package x (b - 256)),
          stackOfTile p = k → (s.barrier p (b % 256)).valid = true → b < 512 →
          s.homeAt p (b % 256) (s.barrier p (b % 256)).scope = (if b < 256 then .stack x k b else .package x (b - 256)) →
          (b % 256, ph, s.fc) ∈ (t.tile p).phases) ∧
      (∀ g l, n = 13 ∨ n = 14 → (s.stack k).clears = g :: l → ∃ t, exec (.evBeaconSlot k n) s = .next t ∧
        (t.stack k).clears = l ∧ (t.stack k).base = cleared (s.stack k).base g ∧
        ∀ j, j / 8 = k → (t.layer j).buf =
          if (s.layer j).listen = true then cleared (s.layer j).buf g else (s.layer j).buf)) ∧
    (∀ p u r l, (s.unit p u).bcst = r :: l → (s.thread r.thread).frozen = false → s.earlierRows p r = true →
      turnsTo (.evBcstRowRead p u) s s [.evBcstRowRead p u]) ∧
    (∀ p u r l, (s.unit p u).bcst = r :: l → (s.thread r.thread).frozen = false → s.earlierRows p r = false →
      (s.filtered r.ctx r.cap = true ∨ r.cap.tag = false → ∃ t, exec (.evBcstRowRead p u) s = .next t ∧ (t.unit p u).bcst = l ∧
        (∀ j, (t.layer j).queue = (s.layer j).queue) ∧ ∃ o ∈ t.raised, o.cause = 0x05 ∧ o.detail = 2 ∧ o.ctx = some r.ctx) ∧
      (s.filtered r.ctx r.cap = false → r.cap.tag = true → ∃ t y, exec (.evBcstRowRead p u) s = .next t ∧ Turn.event (.evBeaconFrame (layerOfTile p / 8)) ∈ t.agenda ∧
        (t.layer (layerOfTile p)).queue = (s.layer (layerOfTile p)).queue ++ [y] ∧ y.ctx = r.ctx ∧ y.thread = r.thread ∧
        y.row = r.row ∧ y.bytes = getBytes ((s.touchBytes p r.bank r.off 64).bank p r.bank).cells r.off 64 ∧
        (t.unit p u).bcst = if r.left ≤ 1 then l else { r with off := r.off + 64, row := r.row + 1, left := r.left - 1 } :: l)) ∧
    (∀ p u r l, (s.unit p u).bcst = r :: l → (s.thread r.thread).frozen = true → exec (.evBcstRowRead p u) s = .next s) ∧
    (∀ l, let y := s.layer l
      (y.bstate = 0 → s.layerHosts l = false → y.queue = [] →
        turnsTo (.evLayerSleepRequest l) s (s.setLayer l { y with bstate := 1 }) [.evBeaconFrame (l / 8)]) ∧
      (y.bstate ≠ 0 ∨ s.layerHosts l = true ∨ y.queue ≠ [] → exec (.evLayerSleepRequest l) s = .next s) ∧
      (y.bstate = 1 →
        turnsTo (.evLayerWakeRequest l) s (s.setLayer l { y with bstate := 2, listen := false }) [.evBeaconFrame (l / 8)]) ∧
      (y.bstate ≠ 1 → exec (.evLayerWakeRequest l) s = .next s) ∧
      (∀ r, y.bstate = 2 → y.listen = true → refillable s l r → (∀ q < r, ¬refillable s l q) →
        turnsTo (.evRefillComplete l) s (s.setLayer l { y with refillRow := r + 1 }) [.evRefillComplete l]) ∧
      (y.bstate = 2 → y.listen = true → (∀ r, ¬refillable s l r) → cellsWf y.buf.cells = true →
        cellsWf (look {} (s.stack (l / 8)).refill l).cells = true → ∃ t, exec (.evRefillComplete l) s = .next t ∧
        (t.layer l).bstate = 0 ∧ ∀ o, getByte (t.layer l).buf.cells o =
          if s.inWindow o = true ∧ o / 64 ∉ y.buf.fresh then getByte (look {} (s.stack (l / 8)).refill l).cells o
          else getByte y.buf.cells o) ∧
      (y.bstate ≠ 2 ∨ y.listen = false → exec (.evRefillComplete l) s = .next s))

/-- R257-R262: GO, the lines and the window of a stack examined, and the end of the sweep. -/
def SieveEvents : Prop :=
  ∀ (s : State) (x : Nat), let v := (s.context x).sieve
    (∀ w : Word, let v1 := { v with nch := field w 8 8 }
      (field w 0 1 = 0 → exec (.evSieveGo x w) s = .next (s.setSieve x v1)) ∧
      (field w 0 1 = 1 → v.st = 1 ∨ v.st = 2 → ∃ t, exec (.evSieveGo x w) s = .next t ∧
        (t.context x).sieve = { v1 with ovr := true }) ∧
      (field w 0 1 = 1 → v.st ≠ 1 → v.st ≠ 2 → v1.goValid = false → ∃ t, exec (.evSieveGo x w) s = .next t ∧
        (t.context x).sieve = { v1 with badcfg := true }) ∧
      (field w 0 1 = 1 → v.st ≠ 1 → v.st ≠ 2 → v1.goValid = true → ∃ t, exec (.evSieveGo x w) s = .next t ∧ bytesKept s t ∧
        (t.context x).sieve = { v1 with st := 1, heaps := v1.present, sweepNch := v1.nch, finished := [], nextLine := [],
                                        scrubbed := false, skipped := [] } ∧
        (∀ k < 4, Turn.event (.evSieveFinish x k) ∈ t.agenda) ∧
        ∀ k y, isCore k = false → (s.tile (ptidOf k)).owner = some x → find s.threads k = some y →
          t.thread k = { y with scrub := true })) ∧
    (∀ k, v.st = 1 → k ∉ v.finished → let ls := s.sweptLines x k (s.sievePages x k)
      let maps := s.sieveMaps x k (s.sieveReads x (match ls with
        | l :: _ => s.lineCaps x l
        | [] => (s.windowGranules x k).map (·.2)))
      (s.limited x k = true → ∃ t, exec (.evSieveFinish x k) s = .next t ∧ t.mem = s.mem ∧ (t.context x).sieve = v) ∧
      (s.limited x k = false →
        (∀ f, maps = .error f → ∃ t, exec (.evSieveFinish x k) s = .next t ∧ t.mem = f.2.2.mem ∧ (t.context x).sieve = v ∧
          ∃ o ∈ t.raised, o.raiser = .sieve x k (f.1 / 4096) ∧ o.ctx = some x) ∧
        (∀ l r s1, ls = l :: r → maps = .ok s1 → ∃ t, exec (.evSieveFinish x k) s = .next t ∧ bytesKept s1 t ∧
          (t.context x).sieve = { v with nextLine := put v.nextLine k (l % 2 ^ 34 + 1) } ∧
          Turn.event (.evSieveFinish x k) ∈ t.agenda ∧
          ∀ g, g ∈ t.mem.tags ↔ g ∈ s1.mem.tags ∧ ¬(g / 4 = l ∧ s1.revoked x (s1.granuleCap g) = true)) ∧
        (∀ s1, ls = [] → maps = .ok s1 → let bad := (s1.windowGranules x k).filter fun g => s1.revoked x g.2
          ∃ t, exec (.evSieveFinish x k) s = .next t ∧ t.mem = s1.mem ∧
            (t.context x).sieve.st = (if (insertNat k v.finished).length = 4 then 2 else 1) ∧
            (t.stack k).base = bad.foldl (fun b g => b.clearTag g.1) (s.stack k).base ∧
            (t.stack k).clears = (s.stack k).clears ++ bad))) ∧
    (∀ k, v.st ≠ 1 ∨ k ∈ v.finished → exec (.evSieveFinish x k) s = .next s) ∧
    (v.st = 2 → v.scrubbed = false → ∃ t, exec (.evSweepDone x) s = .next t ∧ t.mem = s.mem ∧ (t.context x).sieve.st = 2 ∧
      Turn.event (.evSweepDone x) ∈ t.agenda) ∧
    (v.st = 2 → v.scrubbed = true →
      let work := (∃ e ∈ s.engines, e.ctx = x ∧ e.id < v.cutId) ∨
        (∃ k < 4, ∃ g ∈ (s.stack k).clears, (s.context x).bwoff ≤ g.1 * 16 ∧ g.1 * 16 < (s.context x).bwoff + (s.context x).bwlen) ∨
        (∃ h ∈ s.groupsOf x, (s.group h).ch.pilot = true ∧ (s.group h).st = .cut ∧ (s.group h).snapDue = false)
      (work → turnsTo (.evSweepDone x) s s [.evSweepDone x]) ∧
      (¬work → ∃ t, exec (.evSweepDone x) s = .next t ∧ (t.context x).sieve = { v with st := 3, epoch := v.epoch + 1, heaps := [] } ∧
          bytesKept s t ∧ (v.sweepNch ≠ 0 → told s t (.package x v.sweepNch) (wd (v.epoch + 1).toNat)))) ∧
    (v.st ≠ 2 → exec (.evSweepDone x) s = .next s)

end Sys2Proof.Claims

/-- R166, R232, R233, R355-R362: the engines and the barriers at work. -/
def Obligations.EngineAndBarrierEvents : Prop := Sys2Proof.Claims.EngineEvents ∧ Sys2Proof.Claims.BarrierEvents

/-- R257-R262, R280-R297: the Beacon and the Sieve at work. -/
def Obligations.BeaconAndSieveEvents : Prop := Sys2Proof.Claims.BeaconEvents ∧ Sys2Proof.Claims.SieveEvents

/-! ## Contexts and kernels on their way (R300, R301, R307, R308, R313, R316, R319-R329, R335-R340, R424-R426) -/

namespace Sys2Proof.Claims
open Sys2Proof Sys2Proof.Machine

/-- The queues of context x in one state are in another (R316). -/
def queuesMoved (s : State) (x a b : Nat) : Table Queue :=
  s.queues.map fun q => if q.2.bound ∧ q.2.ctx = x ∧ q.2.st = a then (q.1, { q.2 with st := b }) else q

/-- What ends with a context: its keys, its groups, the records of its queues (R300, R308, R316). -/
def contextEnds (s t : State) (x st qst : Nat) : Prop :=
  (t.context x).st = st ∧ (t.context x).epoch = 0 ∧ (t.context x).designated = false ∧
    (∀ h g, find s.groups h = some g → g.ctx = x → (t.group h).st = .retired) ∧
    (∀ q y, find s.queues q = some y → y.bound = true → y.ctx = x → (t.queue q).st = qst ∧ (t.queue q).records = []) ∧
    ∀ k < 4, ∀ r, find (s.stack k).runs r = some (.granted x) → (r, .free) ∈ (t.stack k).pending

/-- A group of a context that quiesces stands: CUT, or FROZEN with its elements' and engines' accesses performed (R300, R311). -/
def stands (s : State) (h : Nat) : Prop := (s.group h).st = .cut ∨ (s.group h).st = .frozen ∧ s.frozenAccesses h = false

/-- R300, R301, R307, R308, R316: a context is measured, frozen, migrated, contained and released. -/
def ContextEvents : Prop :=
  ∀ (s : State) (x : Nat), let c := s.context x
    (c.st = 1 → c.migration = none → ∃ t, exec (.evBuildComplete x) s = .next t ∧ bytesKept s t ∧
      t.context x = { c with st := 2, measM := shake256 ([0, 0, 0] ++ c.created.drop 3), changes := 0,
                             measT := shake256 (toBytes 4 (s.ownedTiles x).length ++ (s.ownedTiles x).flatMap fun p =>
                               toBytes 2 (p + (s.tile p).permit.toNat * 2 ^ 11)) } ∧
      t.queues = queuesMoved s x 2 1 ∧ Turn.event .evAdmission ∈ t.agenda ∧
      (s.lode.op = 1 → s.lode.busy = true → s.lode.answered = false →
        t.lode = { s.lode with answered := true, status := 0, result := BitVec.ofNat 32 x } ∧
        Turn.event .evMailboxComplete ∈ t.agenda)) ∧
    (c.st ≠ 1 ∨ c.migration ≠ none → exec (.evBuildComplete x) s = .next s) ∧
    (c.st = 4 → (∀ h ∈ s.placedGroups x, stands s h) →
      exec (.evQuiesceComplete x) s = .next (s.setContext x { c with st := 5 })) ∧
    (c.st = 4 → (∃ h ∈ s.placedGroups x, ¬stands s h) →
      turnsTo (.evQuiesceComplete x) s s [.evQuiesceComplete x]) ∧
    (c.st ≠ 4 → exec (.evQuiesceComplete x) s = .next s) ∧
    (∀ d, c.st = 6 → c.migration = some (d, false) → d ≠ Config.packageSerial.toNat →
      ∃ t, exec (.evMigrationCommit x) s = .next t ∧ contextEnds s t x 7 0 ∧
      told s t (.core 194) 4 ∧ Turn.event (.evContextRelease x) ∈ t.agenda) ∧
    (∀ d, c.st = 1 → c.migration = some (d, true) → let m := s.migratedContext x
      (State.measureM m.1 ≠ m.2.1 → exec (.evMigrationCommit x) s = .next s) ∧
      (State.measureM m.1 = m.2.1 → s.migrationSource x = none → turnsTo (.evMigrationCommit x) s
        { s.setContext x { m.2.2 with st := 3, migration := none, measM := m.2.1, measT := s.firstT x, changes := 0 } with
          queues := queuesMoved s x 2 1 } [.evAdmission]) ∧
      (∀ y o, State.measureM m.1 = m.2.1 → s.migrationSource x = some (y, o) → ∃ t, exec (.evMigrationCommit x) s = .next t ∧
        (t.context x).st = 3 ∧ (t.context x).measM = o.measM ∧ (t.context x).events = o.events ∧ (t.context y).st = 7 ∧
        (t.context y).epoch = 0 ∧ (∀ h ∈ s.groupsOf y, (t.group h).ctx = x) ∧ told s t (.core 194) 4 ∧
        Turn.event (.evContextRelease y) ∈ t.agenda)) ∧
    (∀ a, c.st ≠ 0 → c.st < 7 → ∃ t, exec (.evContextError x a) s = .next t ∧ contextEnds s t x 8 3 ∧
      (∀ n, c.iface = some n → (s.iface n).st = 1 ∨ (s.iface n).st = 2 → (t.iface n).st = 3) ∧
      ∃ r ∈ t.raised, r.cause = 0x11 ∧ r.detail = a ∧ r.ctx = some x ∧ r.toH = true) ∧
    (∀ a, c.st = 0 ∨ 7 ≤ c.st → exec (.evContextError x a) s = .next s) ∧
    (c.st = 7 → ∃ t, exec (.evContextRelease x) s = .next t ∧ bytesKept s t ∧ t.contexts = del s.contexts x ∧
      (∀ p, (s.tile p).owner = some x → (t.tile p).owner = none ∧ (t.tile p).permit = 0) ∧
      (∀ p, (s.tile p).owner ≠ some x → (t.tile p).owner = (s.tile p).owner) ∧
      ∀ p b r i, i < 64 → find (s.bank p b).owners r = some x → getByte (t.bank p b).cells (r * 64 + i) = 0) ∧
    (c.st ≠ 7 → exec (.evContextRelease x) s = .next s)

/-- A launch leaves the head of queue q of state u, whose records were r :: rs (R320, R321). -/
def taken (u t : State) (q : Nat) (rs : List (BitVec 512)) : Prop :=
  (t.queue q).records = rs ∧ (t.queue q).lseq = (u.queue q).lseq + 1

/-- R319-R321, R324, R326: the Pilot takes the queue that is next, at most once in 64 fc: a malformed record is rejected, a marker
completes, a launch becomes a kernel in SUBMITTED. -/
def AdmissionEvents : Prop :=
  ∀ s : State, let u := s.refreshReady.readHeld
    (u.nextQueue = none → exec .evAdmission s = .next u) ∧
    ∀ q y r rs, u.nextQueue = some (q, y) → u.queue q = y → y.records = r :: rs →
      (∀ f, s.lastAdmit = some f → s.fc < f + 64 → turnsTo .evAdmission s u [.evAdmission]) ∧
      ((∀ f, s.lastAdmit = some f → f + 64 ≤ s.fc) →
        (State.recordMalformed r = true → ∃ t, exec .evAdmission s = .next t ∧ taken u t q rs ∧ t.lastAdmit = some s.fc ∧
          (t.queue q).lasterr = 1 ∧ (t.queue q).rejcnt = min (y.rejcnt + 1) 255 ∧
          ∃ e ∈ t.raised, e.cause = 7 ∧ e.detail = 1 ∧ e.ctx = some y.ctx) ∧
        (State.recordMalformed r = false → recImage r = 0 → ∃ t, exec .evAdmission s = .next t ∧ taken u t q rs ∧
          t.lastAdmit = some s.fc ∧ ((u.context y.ctx).st = 2 → (t.context y.ctx).st = 3) ∧
          (bit (recSignal r) 7 = true → look 0 (t.context y.ctx).events (recSignal r % 64) =
            look 0 (u.context y.ctx).events (recSignal r % 64) + 1)) ∧
        (∀ seeds u1, u.examine q y.ctx r = (.launch seeds, u1) → ∃ t, exec .evAdmission s = .next t ∧ taken u t q rs ∧
          t.lastAdmit = some s.fc ∧ ((u1.context y.ctx).st = 2 → (t.context y.ctx).st = 3) ∧
          t.group (q * 2 ^ 32 + (y.lseq + 1).toNat) =
            { ctx := y.ctx, queue := q, kernel := .submitted, launch := r, seeds } ∧
          Turn.event (.evImageVerify (q * 2 ^ 32 + (y.lseq + 1).toNat)) ∈ t.agenda))

/-- A kernel in SUBMITTED is VERIFYING from here on, under k.YLIM and the service mode as they stand (R326, R332, R393). -/
def verifying (s : State) (h : Nat) : State :=
  let g := s.group h
  if g.kernel = .submitted then
    s.setGroup h { g with kernel := .verifying, ylim := s.ylim, service := (s.part (s.context g.ctx).part).mode }
  else s

/-- R52, R313, R326-R329: the image is copied, line by line, each once, and the copy is checked: ADMITTED with a lease to come, or
REJECTED with LASTERR 3, 5 or 6. -/
def VerifyEvents : Prop :=
  ∀ (s : State) (h : Nat), let g := s.group h
    let u := verifying s h
    (g.kernel ≠ .submitted → g.kernel ≠ .verifying → exec (.evImageVerify h) s = .next s) ∧
    ∀ s1, g.kernel = .submitted ∨ g.kernel = .verifying → u.recordOpen (.loader h) = false →
      (u.copyImage h 64 = (some .poisoned, s1) → ∃ t, exec (.evImageVerify h) s = .next t ∧ (t.group h).kernel = .rejected ∧
        (t.group h).st = .retired ∧ (t.queue g.queue).lasterr = 5) ∧
      (u.copyImage h 64 = (none, s1) → let len := leAt (s1.group h).copy 20 4
      (len < 64 ∨ len % 64 ≠ 0 ∨ 67108864 < len → ∃ t, exec (.evImageVerify h) s = .next t ∧ (t.group h).kernel = .rejected ∧
        (t.group h).st = .retired ∧ (t.queue g.queue).lasterr = 5) ∧
      ∀ s2, 64 ≤ len → len % 64 = 0 → len ≤ 67108864 → s1.copyImage h len = (none, s2) → let d := (s2.group h).copy
      (∀ m, verifyImage d (s2.loadSetting h) = .ok m →
        ((∀ e ∈ g.seeds, ∃ n ∈ m.seeds, n.1 = e.1) → ∃ t, exec (.evImageVerify h) s = .next t ∧
          (t.group h).kernel = .admitted ∧ (t.group h).image = m ∧ (t.group h).actors = m.actors ∧ (t.group h).st = g.st ∧
          Turn.event (.evPilotLease h) ∈ t.agenda) ∧
        ((∃ e ∈ g.seeds, ∀ n ∈ m.seeds, n.1 ≠ e.1) → ∃ t, exec (.evImageVerify h) s = .next t ∧
          (t.group h).kernel = .rejected ∧ (t.group h).st = .retired ∧ (t.queue g.queue).lasterr = 3)) ∧
      (∀ r, verifyImage d (s2.loadSetting h) = .error r → ∃ t, exec (.evImageVerify h) s = .next t ∧
        (t.group h).kernel = .rejected ∧ (t.group h).st = .retired ∧
        (t.queue g.queue).lasterr = if r.code = 0x22 ∧ tooFewTiles d (s2.loadSetting h).owned = true then 6 else 5))

/-- R323, R326, R335-R340, R426: a lease, the tiles' configuration, the waves, START and the seeds. -/
def ConfigurationEvents : Prop :=
  ∀ (s : State) (h : Nat), let g := s.group h
    (∀ l, s.commandOf h 1 none = none → g.st = .unplaced → g.kernel = .admitted → (s.context g.ctx).st = 3 →
      s.leaseLate h = false → s.findPlace h 0x4000 = some l → ∃ t, exec (.evPilotLease h) s = .next t ∧
        (t.group h).st = .leased ∧ (t.group h).kernel = .placed ∧ (t.group h).tiles = l ∧ (t.group h).nextBlock = 0 ∧
        (∀ e ∈ l, (t.tile e.2.2).group = some h) ∧ Turn.event (.evTileConfigure h) ∈ t.agenda) ∧
    (s.commandOf h 1 none = none → g.st = .unplaced → g.kernel = .admitted → (s.context g.ctx).st = 3 →
      s.leaseLate h = true → turnsTo (.evPilotLease h) s s [.evPilotLease h]) ∧
    (∀ b, (g.st = .leased ∨ g.st = .configuring) → g.image.blocks[g.nextBlock]? = some b →
      ((∀ p ∈ State.blockTiles g b, s.refuses g.ctx b p.1 = false) → ∃ t, exec (.evTileConfigure h) s = .next t ∧
        (t.group h).st = .configuring ∧ (t.group h).nextBlock = g.nextBlock + 1 ∧
        ∀ p ∈ State.blockTiles g b, (t.tile p.1).configured = true ∧ Turn.event (.evTileConfigured h p.1) ∈ t.agenda) ∧
      ((∃ p ∈ State.blockTiles g b, s.refuses g.ctx b p.1 = true) → ∃ t, exec (.evTileConfigure h) s = .next t ∧
        (t.group h).kernel = .rejected ∧ (t.group h).st = .retired ∧ (t.group h).tiles = [] ∧
        (∃ o ∈ t.raised, o.cause = 7 ∧ o.detail = 5 ∧ field o.aux 0 8 = 0x32 ∧ field o.aux 8 16 = g.nextBlock % 2 ^ 16) ∧ (t.queue g.queue).lasterr = 5)) ∧
    (∀ p, g.st = .configuring → (∃ e ∈ g.tiles, e.2.2 = p) → ∃ t, exec (.evTileConfigured h p) s = .next t ∧
      ∀ q, q ∈ (t.group h).reported ↔ q ∈ g.reported ∨ q = p) ∧
    (∀ r, g.st = .configuring → r ∈ State.imageRegions g.image → State.waveDue g r = true →
      let t0 := look s.fc g.waves r
      ∃ t, exec (.evConfigCompleteWave h r) s = .next t ∧
        (∀ p, (p, s.fc - t0) ∈ s.waveWay h r → (s.slot p 59).st ≠ .empty → (s.slot p 59).op = 0xCE →
          (s.slot p 59).param 0x10 0 = r → r ∈ (t.tile p).waves) ∧
        ((∃ q ∈ s.waveWay h r, s.fc - t0 ≤ q.2) → (t.group h).regions = g.regions ∧ look 0 (t.group h).waves r = t0 ∧
          Turn.event (.evConfigCompleteWave h r) ∈ t.agenda) ∧
        ((∀ q ∈ s.waveWay h r, q.2 < s.fc - t0) → (look {} (t.group h).regions r).armed = true ∧
          ∀ q ∈ s.groupSlots h, (s.slot q.1 q.2).region = r → (t.slot q.1 q.2).st = .armed)) ∧
    (∀ k, ∃ t, exec (.evConfigAck h k) s = .next t ∧ (∀ j, j ∈ (t.group h).acks ↔ j ∈ g.acks ∨ j = k) ∧
      (g.started = false → (∀ e ∈ g.tiles, stackOfTile e.2.2 ∈ g.acks ∨ stackOfTile e.2.2 = k) →
        Turn.event (.evStart h) ∈ t.agenda)) ∧
    (g.started = false → (∀ e ∈ g.tiles, stackOfTile e.2.2 ∈ g.acks) →
      turnsTo (.evStart h) s (s.setGroup h { g with started := true }) [.evSeedInject h]) ∧
    (g.started = true → exec (.evStart h) s = .next s) ∧
    (g.seeded = false → g.started = true → (s.context g.ctx).st = 3 → (g.st = .armed ∨ g.st = .firing ∨ g.st = .gated) →
      ∃ t, exec (.evSeedInject h) s = .next t ∧ (t.group h).kernel = .live ∧
        (t.group h).st = (if g.st = .armed then .firing else g.st) ∧
        (g.seeds = [] → (t.group h).seeded = true ∧ Turn.event (.evKernelComplete h) ∈ t.agenda))

/-- R324, R326, R338: a kernel that has come to rest drains and leaves its tiles, and retires with its SIGNAL event. -/
def CompletionEvents : Prop :=
  ∀ (s : State) (h : Nat), let g := s.group h
    (g.kernel ≠ .live → exec (.evKernelComplete h) s = .next s) ∧
    (g.kernel = .live → (∀ t ∈ s.codeThreads h, (s.thread t).st = .halted) → (g.st = .firing ∨ g.st = .gated) →
      g.seeded = true → s.seedsOpen h = false → s.accessesOpen h = false → g.lastMove + 16 ≤ s.fc →
      g.haltAt + 16 ≤ s.fc → ∃ t, exec (.evKernelComplete h) s = .next t ∧ (t.group h).kernel = .draining ∧
        (t.group h).tiles = [] ∧ Turn.event (.evKernelRetire h) ∈ t.agenda) ∧
    (g.kernel = .draining → ∃ t, exec (.evKernelRetire h) s = .next t ∧
      t.group h = { g with kernel := .retired, st := .retired } ∧ bytesKept s t ∧
      (bit (recSignal g.launch) 7 = true → look 0 (t.context g.ctx).events (recSignal g.launch % 64) =
        look 0 (s.context g.ctx).events (recSignal g.launch % 64) + 1) ∧
      (bit (recFlags g.launch) 1 = true → (s.queue g.queue).vfv = true → (s.queue g.queue).vf < 64 →
        let y := s.iface (s.queue g.queue).vf
        y.force.getLsbD 2 = true → (y.st = 0 ∨ y.st = 2) →
        (look 0x100000000 y.msiTab (2 * (s.queue g.queue).win + 1)).getLsbD 32 = false →
        t.msix = s.msix ++ [((s.queue g.queue).vf, (s.queue g.queue).win, y.st == 2)])) ∧
    (g.kernel ≠ .draining → exec (.evKernelRetire h) s = .next s)

end Sys2Proof.Claims

/-- R300, R301, R307, R308: contexts on their way. -/
def Obligations.ContextLife : Prop := Sys2Proof.Claims.ContextEvents

/-- R313, R319-R329, R335-R340, R426: a kernel from its admission to its end. -/
def Obligations.KernelLife : Prop := Sys2Proof.Claims.AdmissionEvents ∧ Sys2Proof.Claims.VerifyEvents ∧
  Sys2Proof.Claims.ConfigurationEvents ∧ Sys2Proof.Claims.CompletionEvents

/-! ## Groups after their placement (R339, R343-R353, R387, R418) -/

namespace Sys2Proof.Claims
open Sys2Proof Sys2Proof.Machine

/-- States in which a group can be stopped afresh (R345). -/
def running (g : Group) : Prop := g.st = .armed ∨ g.st = .firing ∨ g.st = .gated

/-- The Pilot takes c, the group's only command, and it may act (R351, R353). -/
def soleCommand (s : State) (h : Nat) (c : GCommand) (sub : Nat) : Prop :=
  (s.group h).commands = [c] ∧ c.sub = sub ∧ c.holder ≠ .pilot ∧ (s.group h).st ≠ .retired ∧
  (c.recorded = true → (s.group h).lcmdNo = c.no) ∧ (c.holder = .guest → (s.context (s.group h).ctx).st = 3)

/-- The command has left the group's queue with a result in LRES (R353). -/
def ended (t : State) (h code : Nat) : Prop := (t.group h).commands = [] ∧ (t.group h).lres = code

/-- R212, R339, R345: a stop reaches every part; the group is CUT when all stand; within the bound, else it is frozen and recorded. -/
def StopEvents : Prop :=
  ∀ (s : State) (h : Nat), let g := s.group h
    (∀ who, g.commands = [] → running g → ∃ t, exec (.evGroupStopRequest h who) s = .next t ∧ bytesKept s t ∧
      (t.group h).st = .cutting ∧ (t.group h).ch = g.ch.add who ∧ (t.group h).stopAt = s.fc ∧
      (t.group h).stopService = (s.part (s.context g.ctx).part).mode ∧
      (∀ k ∈ s.codeThreads h, (s.thread k).st ≠ .idle → (s.thread k).st ≠ .halted → (t.thread k).stopReq = true) ∧
      (∀ q ∈ s.groupSlots h, Turn.event (.evElementPark q.1 q.2) ∈ t.agenda) ∧ Turn.event (.evStopComplete h) ∈ t.agenda ∧
      Turn.event (.evStopBoundExpire h) ∈ t.agenda) ∧
    (∀ who, g.commands = [] → g.st = .cutting ∨ g.st = .cut →
      exec (.evGroupStopRequest h who) s = .next (s.setGroup h { g with ch := g.ch.add who })) ∧
    (∀ c who, soleCommand s h c 3 → c.holder = who → c.begun = false → running g →
      ∃ t, exec (.evGroupStopRequest h who) s = .next t ∧ (t.group h).st = .cutting ∧ (t.group h).ch = g.ch.add who ∧ ended t h 0) ∧
    (g.st = .cutting → s.stopDone h = true → s.groupRequests h = false → s.barrierPending h = false → s.beaconPending h = false →
      ∃ t, exec (.evStopComplete h) s = .next t ∧ (t.group h).st = .cut) ∧
    (g.st = .cutting → s.stopDone h = false ∨ s.groupRequests h = true ∨ s.barrierPending h = true ∨ s.beaconPending h = true →
      turnsTo (.evStopComplete h) s s [.evStopComplete h]) ∧
    (g.st ≠ .cutting → exec (.evStopComplete h) s = .next s ∧ exec (.evStopBoundExpire h) s = .next s) ∧
    (g.st = .cutting →
      let bound := if g.stopService = true then g.image.drain else 2 * s.ylim + 131072
      (s.waitsOnLink h = true → turnsTo (.evStopBoundExpire h) s (s.setGroup h { g with stopAt := g.stopAt + 1 })
        [.evStopBoundExpire h]) ∧
      (s.waitsOnLink h = false → s.fc < g.stopAt + bound → turnsTo (.evStopBoundExpire h) s s [.evStopBoundExpire h]) ∧
      (s.waitsOnLink h = false → g.stopAt + bound ≤ s.fc → (s.context g.ctx).sieve.st ≠ 2 →
        ∃ t, exec (.evStopBoundExpire h) s = .next t ∧ (t.group h).st = .frozen ∧
        (t.group h).prior = .cutting ∧ (t.group h).overrun = true ∧ (g.snapDue = false → (t.group h).fh = g.fh.union g.ch) ∧
        (g.snapDue = true → g.commands = [] → (t.group h).snapDue = false ∧ (t.group h).snapskip = true ∧
          (t.group h).fh = { g.fh.union g.ch with pilot := false }) ∧
        (t.context g.ctx).drainLate = ((s.context g.ctx).drainLate || (s.context g.ctx).st == 4) ∧
        ∃ r ∈ t.raised, r.cause = 0x13 ∧ r.ctx = some g.ctx ∧ r.group = wd h ∧ r.toH = true))

/-- R339, R347, R348: freezing holds every part where it is; a release lets it go on or lets its stop proceed; a CUT group that
nobody holds runs again with its regions at their start. -/
def HoldEvents : Prop :=
  ∀ (s : State) (h : Nat), let g := s.group h
    (∀ who, g.commands = [] → running g ∨ g.st = .cutting ∨ g.st = .cut → ∃ t, exec (.evSlackWaterFreeze h who) s = .next t ∧
      bytesKept s t ∧ (t.group h).st = .frozen ∧ (t.group h).prior = g.st ∧ (t.group h).frozenAt = some s.fc ∧ (t.group h).fh = g.fh.union (Holders.add {} who) ∧
      (∀ q ∈ s.groupSlots h, (t.slot q.1 q.2).held = true) ∧ ∀ k ∈ s.codeThreads h, (t.thread k).frozen = true) ∧
    (∀ who, g.commands = [] → g.st = .frozen →
      exec (.evSlackWaterFreeze h who) s = .next (s.setGroup h { g with fh := g.fh.union (Holders.add {} who) })) ∧
    (g.st = .frozen → g.fh.empty = true → g.actions = [] → (s.context g.ctx).sieve.st ≠ 2 →
      ∃ t, exec (.evFreezeRelease h) s = .next t ∧ (t.group h).st = (if g.ch.empty = true then g.prior else .cutting) ∧
        (t.group h).frozenAt = none ∧
        (g.ch.empty = false → (t.group h).stopAt = s.fc ∧ Turn.event (.evStopComplete h) ∈ t.agenda)) ∧
    (g.st ≠ .frozen ∨ g.fh.empty = false → exec (.evFreezeRelease h) s = .next s) ∧
    (g.commands = [] → g.st = .cut → g.ch.empty = true → g.actions = [] → ∃ t, exec (.evGroupResume h) s = .next t ∧
      (t.group h).st = .firing ∧ (∀ r ∈ (t.group h).regions, r.2.armed = true ∧ r.2.advanced = 0) ∧
      (∀ k ∈ s.codeThreads h, (s.thread k).st = .yielding → (t.thread k).st = .ready)) ∧
    (g.commands = [] → g.st = .cut → g.ch.empty = false → exec (.evGroupResume h) s = .next s)

/-- R340, R344, R349-R353, R418: moves, compaction, eviction, snapshots, and the replacement of a lost device's groups from a record
that is still good. -/
def PlaceEvents : Prop :=
  ∀ (s : State) (h : Nat), let g := s.group h
    (∀ c l, soleCommand s h c 2 → c.begun = false → g.st = .cut ∨ g.st = .frozen → s.leaseLate h = false →
      s.findPlace h c.word = some l →
      ∃ t n, exec (.evGroupMove h) s = .next t ∧ (t.group h).st = .moving ∧ (t.group h).before = g.st ∧
        (t.group h).commands = [{ c with recorded := true, no := n, begun := true, place := l }] ∧
        Turn.event (.evGroupMove h) ∈ t.agenda) ∧
    (∀ c, soleCommand s h c 2 → c.begun = false → running g → g.st ≠ .armed → s.findPlace h c.word = none →
      ∃ t, exec (.evGroupMove h) s = .next t ∧ (t.group h).st = g.st ∧ ended t h 3) ∧
    (∀ c, soleCommand s h c 2 → c.begun = true → c.recorded = true → g.st = .moving → g.actions = [] →
      ∃ t, exec (.evGroupMove h) s = .next t ∧ (t.group h).tiles = (if s.planCode h c.place = 0 then c.place else g.tiles) ∧
        ended t h (s.planCode h c.place)) ∧
    (g.commands = [] → exec (.evGroupMove h) s = .next s ∧ exec (.evGroupEvict h) s = .next s) ∧
    (∀ l, g.st = .firing ∨ g.st = .gated ∨ g.st = .cut → s.commandBegun h = false → s.findPlace h 0x4000 = some l →
      State.originOf l < g.origin → turnsTo (.evCompaction h) s
        (s.setGroup h { g with commands := g.commands ++ [{ sub := 2, holder := .pilot, word := 0x4000 }] }) [.evGroupMove h]) ∧
    ((g.st ≠ .firing ∧ g.st ≠ .gated ∧ g.st ≠ .cut) ∨ s.commandBegun h = true → exec (.evCompaction h) s = .next s) ∧
    (∀ c, soleCommand s h c 5 → c.begun = false → g.st = .cut ∨ g.st = .frozen →
      let w := ((s.recordCommand h 5 none).standStill h).spillGroup g.ctx (g.tiles.map (·.2.2))
      (w ≠ .waits → ∃ t, exec (.evGroupEvict h) s = .next t ∧
        (t.group h).st = .evicted ∧ (t.group h).tiles = [] ∧ (t.group h).savedPlace = g.tiles ∧ ended t h 0) ∧
      (w = .waits → ∃ t n, exec (.evGroupEvict h) s = .next t ∧ (t.group h).st = g.st ∧ (t.group h).tiles = g.tiles ∧
        (t.group h).commands = [{ c with recorded := true, no := n, begun := true }] ∧
        Turn.event (.evGroupEvict h) ∈ t.agenda)) ∧
    (g.snapDue = true → g.st = .cut → s.writeSnapshot h = .waits → turnsTo (.evSnapshot h) s s [.evSnapshot h]) ∧
    (g.snapDue = true → g.st = .cut → s.writeSnapshot h ≠ .waits → ∃ t, exec (.evSnapshot h) s = .next t ∧ (t.group h).snapDue = false ∧
      (t.group h).ch.pilot = false ∧ ((t.group h).snapskip = true ∨ (t.group h).snapep = g.snapep + 1) ∧
      (g.ch.pilot = true → Turn.event (.evGroupResume h) ∈ t.agenda)) ∧
    (running g ∨ g.st = .cutting → g.snapDue = false → s.commandBegun h = false → ∃ t, exec (.evSnapshot h) s = .next t ∧
      (t.group h).snapDue = true ∧ (t.group h).st = .cutting ∧ (t.group h).ch.pilot = true) ∧
    (∀ y d n s1, g.snap = some y → (∃ i < 16, (s.link (64 + i)).st = 6) → g.st ≠ .retired →
      s.readList g.ctx (State.baseSource 10 0 h) [] 0 (linePieces ((s.context g.ctx).ssbase + y.off) y.len) = (d, n, none, s1) →
      (s1.recordGood h y d = false → exec (.evDeviceReplace h) s = .next s1) ∧
      ∀ l, s1.recordGood h y d = true → (s1.fromSnapshot h y).findPlace h 0x4000 = some l → ∃ t, exec (.evDeviceReplace h) s = .next t ∧ (t.group h).tiles = l ∧ (t.group h).st = .firing) ∧
    ((∀ i < 16, (s.link (64 + i)).st ≠ 6) ∨ g.snap = none ∨ g.st = .retired → exec (.evDeviceReplace h) s = .next s)

end Sys2Proof.Claims

/-- R339, R343-R353, R418: groups stop, freeze, resume, move, are evicted, snapshot and replaced. -/
def Obligations.GroupEvents : Prop := Sys2Proof.Claims.StopEvents ∧ Sys2Proof.Claims.HoldEvents ∧ Sys2Proof.Claims.PlaceEvents

/-! ## Faults, translation and Lodestone (R223, R287, R298-R309, R369, R375-R378, R383-R391, R398, R400, R407, R408) -/

namespace Sys2Proof.Claims
open Sys2Proof Sys2Proof.Machine

/-- A response operand v, as action act, names record r of a queue's slots (R386). -/
def names (slots : Table Record) (v : Word) (act : Nat) (r : Record) : Prop :=
  find slots (field v 0 12) = some r ∧ r.seq = field v 16 32 ∧ field v 52 10 = 0 ∧ field v 12 4 = 0 ∧ act ∈ actionsOf r.cause

/-- The raiser of a record takes an action now: its context is the one it arose in, and its group, if it has one, neither has retired
nor stands stopped (R386, R387, R390). -/
def actsNow (s : State) (r : Record) : Prop :=
  (∀ x, r.ctx = some x → (s.context x).epoch = r.epoch) ∧ match find s.groups r.group.toNat with
  | some g => g.st ≠ .cut ∧ g.st ≠ .moving ∧ g.st ≠ .evicted ∧ g.st ≠ .frozen ∧ g.st ≠ .retired
  | none => r.group = 0

/-- Record r is the first of its destination that is to be written (R389). -/
def firstOf (s : State) (r : Record) : Prop :=
  ∀ o ∈ s.raised, State.sameDest o r = true → o.id ≠ r.id →
    State.recordRank r < State.recordRank o ∨ (State.recordRank o = State.recordRank r ∧ r.id < o.id)

/-- The raiser of a record still exists (R386, R390). -/
def raiserLives (s : State) (r : Record) : Prop :=
  (∀ x, r.ctx = some x → (s.context x).epoch = r.epoch) ∧
    (r.group ≠ 0 → ∃ g, find s.groups r.group.toNat = some g ∧ g.st ≠ .retired)

/-- Event i brings a response with action a to a context's queue or, as 128, to the H ring (R386). -/
def responds (x : Nat) (v : Word) (a : Nat) (i : Instr) : Prop :=
  (a = 0 ∧ i = .evFaultResponseDismiss x v) ∨ (a = 1 ∧ i = .evFaultResponseRetry x v) ∨ (a = 2 ∧ i = .evFaultResponseSkip x v) ∨
    (a = 3 ∧ i = .evFaultResponseAbort x v)

/-- R383-R389: records are written to the H ring or their context's queue, wait or are dropped; responses free their slots. -/
def FaultEvents : Prop :=
  ∀ s : State,
    (∀ k r, s.raised.find? (·.id == k) = some r → firstOf s r → (r.toH = true ∨ r.ctx = none) →
      (∀ i, s.ring.en = true → 4 ≤ s.ring.log2n → s.ring.log2n ≤ 12 → freeSlot s.ring.slots s.ring.log2n = some i →
        ∃ t, exec (.evFaultRecordWrite k) s = .next t ∧ (∀ o ∈ t.raised, o.id ≠ k) ∧ t.ring.seq = nextSeq s.ring.seq ∧
          t.ring.dropNow = 0 ∧ find t.ring.slots i = some { r with seq := (nextSeq s.ring.seq).toNat } ∧
          t.msix = s.msix ++ [(64, 0, false)] ∧ told s t (.core 192) (wd ((nextSeq s.ring.seq).toNat * 2 ^ 32 + i)) ∧
          (s.sound → ∀ j < 64, getByte t.mem.cells ((firmwarePhys (s.ring.table + 64 * i)).key + j) =
            (Record.encode { r with seq := (nextSeq s.ring.seq).toNat } s.ring.dropNow).getD j 0)) ∧
      (s.ring.en = false ∨ s.ring.log2n < 4 ∨ 12 < s.ring.log2n ∨ freeSlot s.ring.slots s.ring.log2n = none →
        (r.waits = true → exec (.evFaultRecordWrite k) s = .next s) ∧
        (r.waits = false → ∃ t, exec (.evFaultRecordWrite k) s = .next t ∧ (∀ o ∈ t.raised, o.id ≠ k) ∧
          t.ring.drops = min (s.ring.drops + 1) 65535))) ∧
    (∀ k r x, s.raised.find? (·.id == k) = some r → firstOf s r → r.toH = false → r.ctx = some x → let q := (s.context x).fq
      q.enabled = true →
      (∀ i p, freeSlot q.slots q.log2n = some i → (s.recordPlace x (q.base + 64 * i) (r.place / 512)).1 = some p →
        (p.host = true → s.hostOpen x = false → ∃ t, exec (.evFaultRecordWrite k) s = .next t ∧ (∃ o ∈ t.raised, o.id = k) ∧
          Turn.event (.evFaultRecordWrite k) ∈ t.agenda) ∧
        ((p.host = true → s.hostOpen x = true) →
        ∃ t, exec (.evFaultRecordWrite k) s = .next t ∧ (∀ o ∈ t.raised, o.id ≠ k) ∧ (t.context x).fq.seq = nextSeq q.seq ∧
          (t.context x).fq.drop = 0 ∧ find (t.context x).fq.slots i = some { r with seq := (nextSeq q.seq).toNat } ∧
          told s t (.package x q.nch) (wd ((nextSeq q.seq).toNat * 2 ^ 32 + i)))) ∧
      (freeSlot q.slots q.log2n = none → (r.waits = true → exec (.evFaultRecordWrite k) s = .next s) ∧
        (r.waits = false → ∃ t, exec (.evFaultRecordWrite k) s = .next t ∧ (∀ o ∈ t.raised, o.id ≠ k) ∧
          (t.context x).fq.drop = min (q.drop + 1) 65535))) ∧
    (∀ x v a i, x < 128 → responds x v a i → let q := (s.context x).fq
      ((∀ r, ¬names q.slots v a r) → exec i s = .next (s.setContext x { s.context x with fq := { q with badResp := true } })) ∧
      (∀ r, names q.slots v a r → ∃ t, exec i s = .next t ∧ (t.context x).fq.slots = del q.slots (field v 0 12) ∧
        (∀ k, r.raiser = .thread k → r.cause = 4 → actsNow s r → (s.thread k).st = .trapped → t.thread k =
          if a = 1 then { s.thread k with st := .ready, inTrap := false, pcc := { (s.thread k).pcc with lo := (s.thread k).savedAt } }
          else { s.thread k with st := .halted }) ∧
        (r.cause = 2 → a = 1 → r.raiser ≠ .none → actsNow s r →
          t.walks = s.walks ++ [{ id := s.ids, rec_ := r }] ∧ Turn.event (.evPageWalk s.ids) ∈ t.agenda))) ∧
    (∀ v a i, responds 128 v a i ∨ (a = 5 ∧ i = .evUnresolvable v) ∨ (a = 6 ∧ i = .evContain v) →
      ((∀ r, ¬names s.ring.slots v a r) → exec i s = .next s) ∧
      (∀ r, names s.ring.slots v a r → ∃ t, exec i s = .next t ∧ t.ring.slots = del s.ring.slots (field v 0 12) ∧
        (a = 5 → raiserLives s r → (∀ j, r.raiser = .thread j → isCore j = false) →
          ∃ o ∈ t.raised, o.cause = 2 ∧ o.detail = 6 ∧ o.toH = false ∧ o.ctx = r.ctx ∧ o.addr = r.addr) ∧
        (∀ x, a = 6 → raiserLives s r → r.ctx = some x → (s.context x).st ≠ 0 → (s.context x).st < 7 → (t.context x).st = 8))) ∧
    (∀ x v, let q := (s.context x).fq
      exec (.evFaultqConfig x v) s = .next (s.setContext x { s.context x with fq :=
        if q.slots = [] then { q with badResp := q.badResp && field v 61 1 == 0, host := field v 60 1 == 1,
                                      base := field v 12 45 * 2 ^ 12, log2n := field v 8 4, nch := field v 0 8 }
        else { q with badResp := q.badResp && field v 61 1 == 0 } }))

/-- R369, R375-R378, R387, R391, R398: walks asked for again, translations dropped, limiters, tag parity. -/
def TranslationEvents : Prop :=
  ∀ s : State,
    (∀ k w, s.walks.find? (·.id == k) = some w → let u : State := { s with walks := s.walks.filter (·.id ≠ k) }
      let x := w.rec_.ctx.getD 0
      let ask : Asker := { ctx := x, high := true, stack := u.walkStack w.rec_, port := u.walkPort w.rec_ }
      (∀ e u1, u.walk ask (field w.rec_.addr 0 57) {} = .ok (e, u1) → ∃ t, exec (.evPageWalk k) s = .next t ∧
        (∀ o ∈ t.walks, o.id ≠ k) ∧ t.mem = u1.mem ∧
        ∀ j, w.rec_.raiser = .thread j → w.rec_.cause = 2 → (s.thread j).st = .waiting → (s.thread j).wait = .access →
          t.thread j = { s.thread j with wait := .again, pageAbort := none }) ∧
      (∀ f u1, u.walk ask (field w.rec_.addr 0 57) {} = .error (f, u1) → ∃ t, exec (.evPageWalk k) s = .next t ∧
        (∀ o ∈ t.walks, o.id ≠ k) ∧ ∃ o ∈ t.raised, o.raiser = w.rec_.raiser ∧ o.addr = w.rec_.addr ∧
          o.cause = if f.stage2 = true then 3 else 2)) ∧
    (∀ k, s.walks.find? (·.id == k) = none → exec (.evPageWalk k) s = .next s) ∧
    (∀ k i r, s.invals.find? (·.id == k) = some i → ∃ t, exec (.evTlbinvBroadcastArrive k r) s = .next t ∧ bytesKept s t ∧
      ((∀ o ∈ i.waiting, o = r) → ∀ o ∈ t.invals, o.id ≠ k) ∧
      ((∃ o ∈ i.waiting, o ≠ r) → ∃ o ∈ t.invals, o = { i with waiting := i.waiting.filter (· ≠ r) }) ∧
      (∀ p u, r = .helm p u → (t.unit p u).cache = (s.unit p u).cache.filter fun e => !e.dropped i) ∧
      (∀ p n, r = .axlat p n → 40 ≤ n → n < 48 → (t.slot p n).run.cache = (s.slot p n).run.cache.filter fun e => !e.dropped i) ∧
      (∀ w, r = .walker w → look [] t.walkers w = (look [] s.walkers w).filter fun e => !e.dropped i)) ∧
    (∀ p k, let y := s.part p
      let l := look [] y.heldReqs k
      (l = [] → exec (.evLimiterRelease p k) s = .next s) ∧
      (l ≠ [] → (y.rate = 0 ∨ 1024 ≤ s.creditNow p k) →
        turnsTo (.evLimiterRelease p k) s (s.setPart p { y with heldReqs := del y.heldReqs k }) l) ∧
      (l ≠ [] → y.rate ≠ 0 → s.creditNow p k < 1024 → turnsTo (.evLimiterRelease p k) s s [.evLimiterRelease p k])) ∧
    (∀ v a, exec (.evAtsInvalidate v a) s = .next { s with
      atc := s.atc.filter fun e => e.2 ≠ (v, a.toNat / 4096), atsDone := (v, a.toNat / 4096) :: s.atsDone }) ∧
    (∀ k l w, (∃ t, exec (.evTagParityError k l w true) s = .next t ∧ t.mem = { s.mem with dirty := del s.mem.dirty l } ∧
        t.l2 = del s.l2 l ∧ t.contexts = s.contexts ∧
        ∃ o ∈ t.raised, o.cause = 0x10 ∧ o.detail = 1 ∧ o.toH = true) ∧
      (∃ t, exec (.evTagParityError k l w false) s = .next t ∧ t.l2 = del s.l2 l ∧ (∃ o ∈ t.raised, o.cause = 0x10 ∧ o.detail = 2 ∧ o.toH = true) ∧
        (∀ x c, find s.contexts x = some c → c.st ≠ 0 → c.st < 7 → (s.part c.part).ways.getLsbD w = true → (t.context x).st = 8) ∧
        (∀ h, s.sound → find s.mem.dirty l = some h → h.bytes.length = 64 →
          ∀ j < 64, getByte t.mem.cells (l * 64 + j) = h.bytes.getD j 0)))

/-- The mailbox has taken a request with code op, whose buffer reads as b (R407). -/
def asked (s : State) (op : Nat) (b : Option (List Byte)) : Prop :=
  s.lode.busy = true ∧ s.lode.answered = false ∧ s.lode.ready = true ∧ s.lode.op = op ∧ s.lode.req = b

/-- Event i answers the request with a status and a result and leaves what P says (R407). -/
def served (i : Instr) (s : State) (status result : Nat) (P : State → Prop) : Prop :=
  ∃ t, exec i s = .next t ∧ t.lode.answered = true ∧ t.lode.status = status ∧ t.lode.result = BitVec.ofNat 32 result ∧
    Turn.event .evMailboxComplete ∈ t.agenda ∧ P t

/-- The request codes with their events (R408). -/
def requestsOf : List (Nat × Instr) :=
  [(1, .evCreate), (2, .evRetire), (3, .evTiles), (4, .evMigout), (5, .evMigin), (6, .evMigabort), (8, .evGrant), (9, .evReclaim),
    (10, .evAttest), (11, .evKeyslot), (12, .evFwact)]

/-- The tiles of a list of entries bear context x's tag and their permit bits (R302). -/
def ownedBy (t : State) (x : Nat) (l : List Nat) : Prop :=
  ∀ e ∈ l, (t.tile (entryTile e)).owner = some x ∧ (t.tile (entryTile e)).permit = BitVec.ofNat 4 (entryPermit e)

/-- R298-R303, R307, R407, R408: the mailbox and its requests about contexts. -/
def MailboxEvents : Prop :=
  ∀ s : State,
    (∀ op i, (op, i) ∈ requestsOf → asked s op none → (op = 12 → s.lode.flashFail = none) →
      served i s 2 0 fun t => t.contexts = s.contexts ∧ t.tiles = s.tiles) ∧
    (∀ op i, (op, i) ∈ requestsOf → s.lode.op ≠ op ∨ s.lode.busy = false ∨ s.lode.ready = false → exec i s = .next s) ∧
    (s.lode.busy = true → s.lode.answered = true → ∃ t, exec .evMailboxComplete s = .next t ∧
      t.lode = { s.lode with busy := false, answered := false } ∧ t.msix = s.msix ++ [(64, 1, false)] ∧
      told s t (.core 194) (wd (s.lode.result.toNat * 2 ^ 32 + s.lode.status * 2 ^ 16 + s.lode.op))) ∧
    (s.lode.busy = false ∨ s.lode.answered = false → exec .evMailboxComplete s = .next s) ∧
    (∀ d, asked s 1 (some d) → let n := leAt d 256 4
      let l := tileEntries d 260 n
      let x := leAt d 0 1
      let c := s.contextOf d
      260 + 2 * n ≤ d.length → 1 ≤ n → n ≤ 768 → zeroFrom d (260 + 2 * n) = true → s.recordBad d = false →
      s.entriesBad c.part l (l.map entryTile) = false → (s.context x).st = 0 → s.entriesOwned l = false →
      ((({ s with lode := { s.lode with epochs := s.lode.epochs + 1 } } : State).setContext x c).rootPlace x c).isSome = true →
      ∃ t, exec .evCreate s = .next t ∧ t.context x = c ∧ c.st = 1 ∧ ownedBy t x l ∧ t.lode.epochs = s.lode.epochs + 1 ∧
        t.lode.answered = false ∧ Turn.event (.evBuildComplete x) ∈ t.agenda) ∧
    (∀ d, asked s 2 (some d) → leAt d 0 1 < 128 → zeroFrom d 1 = true → let x := leAt d 0 1
      let st := (s.context x).st
      ((1 ≤ st ∧ st ≤ 5) ∨ st = 8 → served .evRetire s 0 0 fun t => contextEnds s t x 7 0 ∧ Turn.event (.evContextRelease x) ∈ t.agenda) ∧
      (st = 0 ∨ st = 6 ∨ st = 7 → served .evRetire s 3 0 fun t => t.contexts = s.contexts)) ∧
    (∀ d n u, asked s 3 (some d) → s.tilesRequest d = { status := 0, result := n, state := some u } → let x := leAt d 0 1
      served .evTiles s 0 n fun t => (t.ownedTiles x).length = n ∧ (t.context x).changes = (s.context x).changes + 1 ∧
        ownedBy t x (tileEntries d 12 (leAt d 4 4)) ∧
        ∀ e ∈ tileEntries d (12 + 2 * leAt d 4 4) (leAt d 8 4), (t.tile (entryTile e)).owner = none) ∧
    (∀ d, asked s 4 (some d) → leAt d 0 1 < 128 → leAt d 1 1 < 16 → zeroAt d 2 6 = true → zeroFrom d 16 = true →
      let x := leAt d 0 1
      ((s.context x).st = 5 → (s.context x).migr = true → s.migrates x = true → served .evMigout s 0 0 fun t =>
        t.context x = { s.context x with st := 6, migration := some (leAt d 8 8, false) }) ∧
      ((s.context x).st ≠ 5 ∨ (s.context x).migr = false ∨ s.migrates x = false →
        served .evMigout s 3 0 fun t => t.contexts = s.contexts)) ∧
    (∀ d, asked s 5 (some d) → let x := leAt d 0 1
      let l := tileEntries d 20 (leAt d 16 4)
      x < 128 → s.bindingBad (leAt d 1 1) (leAt d 2 1) = false → leAt d 3 1 < 16 → zeroAt d 4 4 = true →
      1 ≤ leAt d 16 4 → leAt d 16 4 ≤ 768 → 20 + 2 * leAt d 16 4 ≤ d.length → zeroFrom d (20 + 2 * leAt d 16 4) = true →
      s.entriesBad (leAt d 1 1) l (l.map entryTile) = false → (s.context x).st = 0 → s.entriesOwned l = false →
      served .evMigin s 0 0 fun t => (t.context x).st = 1 ∧ (t.context x).migration = some (leAt d 8 8, true) ∧
        (t.context x).part = leAt d 1 1 ∧ (t.context x).epoch = s.lode.epochs + 1 ∧ ownedBy t x l) ∧
    (∀ d, asked s 6 (some d) → leAt d 0 1 < 128 → zeroFrom d 1 = true → let x := leAt d 0 1
      let c := s.context x
      (c.st = 6 → served .evMigabort s 0 0 fun t => t.context x = { c with st := 5, migration := none } ∧
        told s t (.core 194) (wd (3 * 2 ^ 16 + 4))) ∧
      (c.st = 1 → c.migration ≠ none → served .evMigabort s 0 0 fun t => contextEnds s t x 7 0))

/-- R287, R301, R309, R400, R408: beacon runs, measurement, keys and firmware. -/
def LodestoneEvents : Prop :=
  ∀ s : State,
    (∀ d, asked s 8 (some d) → let x := leAt d 0 1
      let k := leAt d 1 1
      let r := leAt d 2 1
      x < 128 → k < 4 → r < 62 → zeroFrom d 3 = true →
      ((s.context x).bwlen ≠ 0 → (s.context x).st ≠ 0 → (s.context x).st < 7 → s.runOf k r = (.free, false) →
        served .evGrant s 0 0 fun t => (t.stack k).pending = (s.stack k).pending ++ [(r, .granted x)] ∧
          Turn.event (.evBeaconFrame k) ∈ t.agenda) ∧
      ((s.context x).bwlen = 0 ∨ (s.context x).st = 0 ∨ 7 ≤ (s.context x).st →
        served .evGrant s 3 0 fun t => t.stackTab = s.stackTab)) ∧
    (∀ d x, asked s 9 (some d) → let k := leAt d 1 1
      let r := leAt d 2 1
      leAt d 0 1 = 0 → k < 4 → r < 62 → zeroFrom d 3 = true → s.runOf k r = (.granted x, false) →
      ((s.placedOn x k = false ∨ ∃ o < 62, o ≠ r ∧ s.runOf k o = (.granted x, false)) →
        served .evReclaim s 0 0 fun t => (t.stack k).pending = (s.stack k).pending ++ [(r, .reclaim x)]) ∧
      (s.placedOn x k = true → (∀ o < 62, o ≠ r → s.runOf k o ≠ (.granted x, false)) →
        served .evReclaim s 4 0 fun t => t.stackTab = s.stackTab)) ∧
    (∀ d, asked s 10 (some d) → 384 ≤ d.length → leAt d 0 1 < 128 → zeroAt d 1 63 = true → zeroFrom d 128 = true →
      let c := s.context (leAt d 0 1)
      let body := c.measM ++ c.measT ++ toBytes 8 c.changes ++ s.lode.f ++ (d.drop 64).take 64
      2 ≤ c.st → c.st ≤ 6 → served .evAttest s 0 378 fun t => t.contexts = s.contexts ∧
        t.mem = (s.lodeWrite s.lode.reqAt (body ++ State.signature body)).mem) ∧
    (∀ d, asked s 11 (some d) → leAt d 0 1 < 8 → zeroAt d 1 7 = true → 73 ≤ d.length → zeroFrom d 73 = true →
      (∀ g ∈ s.groups, g.2.kernel = .verifying → (s.part (s.context g.2.ctx).part).keymask.getLsbD (leAt d 0 1) = false) →
      (leAt d 8 8 ≠ 0 → served .evKeyslot s 0 0 fun t => find t.lode.keys (leAt d 0 1) =
        some (BitVec.ofNat 64 (leAt d 8 8), (d.drop 16).take 57)) ∧
      (leAt d 8 8 = 0 → served .evKeyslot s 0 0 fun t => t.lode.keys = del s.lode.keys (leAt d 0 1))) ∧
    (∀ d m i s1 s2, asked s 12 (some d) → s.lode.flashFail = none → zeroFrom d 20 = true →
      s.lodeBytes (leAt d 0 8) Config.manifestBytes = (some m, s1) → s1.lodeBytes (leAt d 8 8) (leAt d 16 4) = (some i, s2) →
      State.manifestGood m = true → shake256 i = toBytes 64 (Config.manifestField 2 m) →
      s.lode.counter ≤ Config.manifestField 0 m → (∀ c ∈ s.contexts, c.2.st ≠ 1 ∧ c.2.st ≠ 6) →
      (∀ e ∈ s.threads, isCore e.1 = true → State.stands (s.thread e.1) = true) →
      ∃ t, exec .evFwact s = .next t ∧ t.lode.f = toBytes 64 (Config.manifestField 2 m) ∧
        (∀ x c, find s.contexts x = some c → 2 ≤ c.st → c.st ≤ 6 → toBytes 64 (Config.manifestField 2 m) ∉ c.policy →
          (t.context x).st = 8) ∧
        ((t.lode.answered = true ∧ t.lode.status = 0 ∧ t.lode.counter = max s.lode.counter (Config.manifestField 1 m)) ∨
          (t.lode.answered = false ∧ t.lode.flashFail = some (max s.lode.counter (Config.manifestField 1 m), Config.manifestField 0 m)))) ∧
    (∀ c v, s.lode.flashFail = some (c, v) → s.lode.op = 12 → s.lode.busy = true → s.lode.answered = false →
      served (.evRetriedFlashWrite true) s 0 v (fun t => t.lode.counter = c ∧ t.lode.flashFail = none) ∧
      exec (.evRetriedFlashWrite false) s = .next s) ∧
    (∀ n x, s.boundContext n = some x → let c := s.context x
      let body := c.measM ++ c.measT ++ toBytes 8 c.changes ++ s.lode.f
      (2 ≤ c.st → c.st ≤ 6 → exec (.evSpdmMeasurementRequest n) s =
        .next { s with spdmReply := some (n, body ++ State.signature body) }) ∧
      (c.st < 2 ∨ 6 < c.st → exec (.evSpdmMeasurementRequest n) s = .next s)) ∧
    (∀ n, s.boundContext n = none → exec (.evSpdmMeasurementRequest n) s = .next s)

end Sys2Proof.Claims

/-- R369, R375-R378, R383-R391, R398: fault records, responses, translation, limiters and tag parity. -/
def Obligations.FaultAndTranslationEvents : Prop := Sys2Proof.Claims.FaultEvents ∧ Sys2Proof.Claims.TranslationEvents

/-- R287, R298-R303, R307-R309, R400, R407, R408: Lodestone and its mailbox. -/
def Obligations.LodestoneRequests : Prop := Sys2Proof.Claims.MailboxEvents ∧ Sys2Proof.Claims.LodestoneEvents

/-! ## Encodings, steps, invariants, reset -/

namespace Sys2Proof.Claims
open Sys2Proof Sys2Proof.Machine

/-- Thread t runs an instruction in a step: its turn of the present fc has come, it is READY and its last instruction is over; or
its access that had to wait goes on, which is no new issue (R212, R215). -/
def issuesFor (s u : State) (t : Nat) : Prop :=
  (∃ l, s.now = .thread t :: l ∧ (s.thread t).st = .ready ∧ (s.thread t).frozen = false ∧ (s.thread t).busy ≤ s.fc ∧
    u = { s with now := l, cur := t, issued := put s.issued (t / 4) (t % 4) }) ∨
  (∃ l, s.now = .resume t :: l ∧ (s.thread t).st = .ready ∧ u = { s with now := l, cur := t })

/-- v once its acting thread's instruction, word w, is over or waits: it takes n fc, and a waiting one keeps its word (R212, R216). -/
def completed (v : State) (w n : Nat) : State :=
  v.setTh { v.th with busy := v.fc + n, instr := if v.th.st = .waiting then some (BitVec.ofNat 32 w) else none }

/-- The fc an instruction takes for a thread: 3 to multiply, 20 to divide, 2 for an MTK that does not trap, else 1 (R216). -/
def fcOf (i : Instr) (u : State) : Nat :=
  match i with
  | .mul .. => 3
  | .mulhi .. => 3
  | .mulhiu .. => 3
  | .div .. => 20
  | .divu .. => 20
  | .rem .. => 20
  | .remu .. => 20
  | .mtk _ k => if u.th.priv.toNat < State.writeLevel k then 1 else 2
  | _ => 1

/-- The control-core thread t may fetch at its pc, and the word there can be read (R22, R220, R395, R424): PCC covers it with
EXECUTE, it is aligned, in device memory, on a stack whose UCIe path carries traffic, in a line that is sealed as the firmware's,
not poisoned and not dirty, and that stands in its L2 slice as the firmware's or comes into it without displacing another. -/
def mayFetch (s : State) (t : Nat) : Prop :=
  let c := (s.thread t).pcc
  let p := firmwarePhys c.lo.toNat
  16384 ≤ t ∧ c.tag = true ∧ c.sealType = 0 ∧ c.has permExecute = true ∧ c.inBounds c.lo 4 = true ∧ c.lo.toNat % 4 = 0 ∧
    c.lo.toNat < Config.deviceBytes ∧ s.sealGood p = true ∧ s.mem.poison.contains (p.key / 64) = false ∧
    find s.mem.dirty (p.key / 64) = none ∧ s.pathOpen (stackOf t) p.home = true ∧
    ((find s.l2 (p.key / 64)).map (·.ctx)).getD 128 = 128 ∧
    ((find s.l2 (p.key / 64)).isSome = true ∨ s.fillVictims 128 (p.key / 64) = [])

end Sys2Proof.Claims

/-- A step runs the instruction that is decoded where it fetches (R11, R33, R43, R212, R215, R216, R220): a helm word at the pc of
the thread that issues, or the word it has where its access had to wait; an element word in the slot whose turn it is; a matrix token
at the head of port P; an event. With no turn left in the present fc the next begins. -/
def Obligations.StepRunsDecoded : Prop :=
  open Sys2Proof Sys2Proof.Machine Sys2Proof.Claims in
  ∀ s : State, s.stopped = false →
    (∀ t u i v, issuesFor s u t → (s.thread t).instr = none → mayFetch s t →
      let p := firmwarePhys (s.thread t).pcc.lo.toNat
      let bs := getBytes s.mem.cells p.key 4
      let u1 := (u.loadLine p 4 (s.thread t).pcc.lo {}).2.2.2
      decodeBytes bs = some (i, []) → exec i u1 = .next v → step s = .next (completed v (fromBytes bs) (fcOf i u1))) ∧
    (∀ t u w u1 i v, issuesFor s u t → (s.thread t).instr = none → u.fetchWord = .ok (w, u1) → decodeHelm w = .ok i →
      exec i u1 = .next v → step s = .next (completed v w (fcOf i u1))) ∧
    (∀ t u w u1 e v, issuesFor s u t → (s.thread t).instr = none → u.fetchWord = .ok (w, u1) → decodeHelm w = .error e →
      exec (.evIllegalOp (BitVec.ofNat 32 w)) u1 = .next v → step s = .next (completed v w 1)) ∧
    (∀ t u u1, issuesFor s u t → (s.thread t).instr = none → u.fetchWord = .error u1 →
      step s = .next (u1.setTh { u1.th with busy := u1.fc + 1 })) ∧
    (∀ t u w i v, issuesFor s u t → (s.thread t).instr = some w → decodeHelm w.toNat = .ok i → exec i u = .next v →
      step s = .next (completed v w.toNat (fcOf i u))) ∧
    (∀ l t, s.now = .thread t :: l → (s.thread t).st ≠ .ready ∨ (s.thread t).frozen = true ∨ s.fc < (s.thread t).busy →
      step s = .next { s with now := l }) ∧
    (∀ l t, s.now = .resume t :: l → (s.thread t).st ≠ .ready → step s = .next { s with now := l }) ∧
    (∀ l i, s.now = .event i :: l → step s = exec i { s with now := l }) ∧
    (∀ l p n i, s.now = .element p n :: l → decodeElem (s.slot p n).word.toNat = .ok i →
      step s = exec i { s with now := l, curTile := p, curSlot := n }) ∧
    (∀ l p b i, let u : State := { s with now := l, curTile := p, curSlot := 56 }
      s.now = .matrix p :: l → u.headToken = some b → b.poi = false → decodeMatrix b.data.toNat = .ok i →
      step s = matrixNext p (exec i u)) ∧
    (s.now = [] → step s = .next s.nextFc ∧ s.nextFc.fc = s.fc + 1 ∧ ∀ a ∈ s.agenda, a ∈ s.nextFc.now)

/-- Words of the spec's own examples decode to the instructions they stand for (R32, R37-R41, R43, R46, R51, R59, R60). -/
def Obligations.DecodingRight : Prop :=
  open Sys2Proof in
  decodeHelm 0x10A3FFFE = .ok (.addi 5 3 0xFFFE) ∧ decodeHelm 0x4022FFFD = .ok (.beq 1 2 0xFFFD) ∧
  decodeHelm 0x6488E010 = .ok (.ldc .n32 7 2 0x10) ∧ decodeHelm 0xA0801008 = .ok (.mfk 4 .ylim) ∧
  decodeHelm 0x79112000 = .ok (.csetbounds 4 4 9) ∧ decodeHelm 0x9C040109 = .ok (.bcst 4 9) ∧
  decodeHelm 0x98860207 = .ok (.gmove 4 6 7) ∧ decodeHelm 0x84C00402 = .ok (.srecv 6 2) ∧
  decodeHelm 0xA0271110 = .error .zeroField ∧ decodeHelm 0 = .error .major ∧
  decodeElem 0x100291FF = .ok (.elFma { fsel := 0, rep := 0, cx := 0x148, cy := 0x1FF }) ∧
  decodeElem 0xCA02874B = .ok (.elHbi { fsel := 0, rep := 0, cx := 0x143, cy := 0x14B }) ∧
  decodeMatrix 0x0000001C04020301 = .ok (.mxMma { m := 3, n := 2, k := 4, buf := 0, acc := true, chain := true, bt := true, dcvt := 0 })

/-- Decoding and encoding agree: every operand of every helm, element and matrix instruction is kept, and every helm word and matrix
token has one meaning (R32-R43, R46, R51, R59, R60). -/
def Obligations.DecodeEncode : Prop :=
  open Sys2Proof in
  (∀ i w, i.wf = true → encodeHelm i = some w → decodeHelm w = .ok i) ∧
  (∀ i w, w < 2 ^ 32 → decodeHelm w = .ok i → encodeHelm i = some w ∧ i.wf = true) ∧
  (∀ i w, encodeElem i = some w → decodeElem w = .ok i) ∧
  (∀ i w, w < 2 ^ 32 → decodeElem w = .ok i → encodeElem i = some w) ∧
  (∀ i w, encodeMatrix i = some w → decodeMatrix w = .ok i) ∧
  (∀ i w, w < 2 ^ 64 → decodeMatrix w = .ok i → encodeMatrix i = some w)

/-- The state after package reset: what the register maps give as reset values, the start state of control-core threads (R424),
partition 0 alone valid (R393), nothing ready (R430), every context EMPTY, and the invariant of soundness. -/
def Obligations.ResetState : Prop :=
  open Sys2Proof Sys2Proof.Machine in
  let s := State.reset
  s.sound ∧ s.fc = 0 ∧ s.stopped = false ∧ s.ylim = 20000 ∧
  (∀ t, (s.thread t).rxsb = 0 ∧ (s.thread t).tvec = 0 ∧ (s.thread t).ecause = 0 ∧ (s.thread t).inTrap = false ∧
    (s.thread t).stopReq = false ∧ (s.thread t).scrub = false ∧ (s.thread t).priv = if t < 16384 then 0 else 2) ∧
  (∀ t, 16384 ≤ t → (∀ r, (s.thread t).g[(r : Reg)] = 0) ∧ (∀ r : CReg, r ≠ 1 → (s.thread t).c[r] = {}) ∧
    let c := (s.thread t).c[(1 : CReg)]
    c.tag = true ∧ c.sealType = 0 ∧ c.base = 0 ∧ c.lo = 0 ∧ c.perms = 0x2923 ∧ c.inBounds 0 (2 ^ 57) = true) ∧
  (∀ p < 32, s.regRead (0x140000 + 64 * p) = (if p = 0 then 0x41 else 0x40) ∧ s.regRead (0x140008 + 64 * p) = 0xFFFFFFFF ∧
    s.regRead (0x140010 + 64 * p) = 0) ∧
  (∀ o, 0x150000 ≤ o → o < 0x152000 → s.regRead o = 0) ∧
  (∀ n < 80, s.regRead (0x170000 + 64 * n) = 0x0000040000000200 ∧ s.regRead (0x170018 + 64 * n) = 0 ∧ (s.link n).trains = 0) ∧
  (∀ l < 32, s.regRead (0x190008 + 8 * l) = 0) ∧
  (∀ o ∈ [0x130000, 0x130010, 0x190000, 0x1B0000, 0x1B0010], s.regRead o = 0) ∧
  (∀ n < 64, ∀ o ∈ [0, 8, 16], s.vfWord n o = 0) ∧
  (∀ x, (s.context x).st = 0)

/-- Memory keeps its canonical form through every step, whatever is run: keys rise and no listed byte is 0. -/
def Obligations.StepKeepsMemoryCanonical : Prop :=
  open Sys2Proof Sys2Proof.Machine in
  ∀ s t : State, s.sound → step s = .next t → t.sound
end

