-- ==== Sys2Proof/Laws/State.lean ====
section
/-! SUPPORT. What each update of the state leaves alone: one lemma per update and field. -/

namespace Sys2Proof.Machine.State

@[simp] theorem setThread_fc (s : State) (t : Nat) (x : Thread) : (s.setThread t x).fc = s.fc := rfl
@[simp] theorem setThread_agenda (s : State) (t : Nat) (x : Thread) : (s.setThread t x).agenda = s.agenda := rfl
@[simp] theorem setThread_now (s : State) (t : Nat) (x : Thread) : (s.setThread t x).now = s.now := rfl
@[simp] theorem setThread_issued (s : State) (t : Nat) (x : Thread) : (s.setThread t x).issued = s.issued := rfl
@[simp] theorem setThread_cur (s : State) (t : Nat) (x : Thread) : (s.setThread t x).cur = s.cur := rfl
@[simp] theorem setThread_curTile (s : State) (t : Nat) (x : Thread) : (s.setThread t x).curTile = s.curTile := rfl
@[simp] theorem setThread_curSlot (s : State) (t : Nat) (x : Thread) : (s.setThread t x).curSlot = s.curSlot := rfl
@[simp] theorem setThread_fresh (s : State) (t : Nat) (x : Thread) : (s.setThread t x).fresh = s.fresh := rfl
@[simp] theorem setThread_ids (s : State) (t : Nat) (x : Thread) : (s.setThread t x).ids = s.ids := rfl
@[simp] theorem setThread_tiles (s : State) (t : Nat) (x : Thread) : (s.setThread t x).tiles = s.tiles := rfl
@[simp] theorem setThread_mem (s : State) (t : Nat) (x : Thread) : (s.setThread t x).mem = s.mem := rfl
@[simp] theorem setThread_chans (s : State) (t : Nat) (x : Thread) : (s.setThread t x).chans = s.chans := rfl
@[simp] theorem setThread_homes (s : State) (t : Nat) (x : Thread) : (s.setThread t x).homes = s.homes := rfl
@[simp] theorem setThread_engines (s : State) (t : Nat) (x : Thread) : (s.setThread t x).engines = s.engines := rfl
@[simp] theorem setThread_invals (s : State) (t : Nat) (x : Thread) : (s.setThread t x).invals = s.invals := rfl
@[simp] theorem setThread_walks (s : State) (t : Nat) (x : Thread) : (s.setThread t x).walks = s.walks := rfl
@[simp] theorem setThread_raised (s : State) (t : Nat) (x : Thread) : (s.setThread t x).raised = s.raised := rfl
@[simp] theorem setThread_contexts (s : State) (t : Nat) (x : Thread) : (s.setThread t x).contexts = s.contexts := rfl
@[simp] theorem setThread_s1root (s : State) (t : Nat) (x : Thread) : (s.setThread t x).s1root = s.s1root := rfl
@[simp] theorem setThread_s2root (s : State) (t : Nat) (x : Thread) : (s.setThread t x).s2root = s.s2root := rfl
@[simp] theorem setThread_atsRefused (s : State) (t : Nat) (x : Thread) : (s.setThread t x).atsRefused = s.atsRefused := rfl
@[simp] theorem setThread_atc (s : State) (t : Nat) (x : Thread) : (s.setThread t x).atc = s.atc := rfl
@[simp] theorem setThread_atsDone (s : State) (t : Nat) (x : Thread) : (s.setThread t x).atsDone = s.atsDone := rfl
@[simp] theorem setThread_walkers (s : State) (t : Nat) (x : Thread) : (s.setThread t x).walkers = s.walkers := rfl
@[simp] theorem setThread_queues (s : State) (t : Nat) (x : Thread) : (s.setThread t x).queues = s.queues := rfl
@[simp] theorem setThread_lastPart (s : State) (t : Nat) (x : Thread) : (s.setThread t x).lastPart = s.lastPart := rfl
@[simp] theorem setThread_lastAdmit (s : State) (t : Nat) (x : Thread) : (s.setThread t x).lastAdmit = s.lastAdmit := rfl
@[simp] theorem setThread_groups (s : State) (t : Nat) (x : Thread) : (s.setThread t x).groups = s.groups := rfl
@[simp] theorem setThread_parts (s : State) (t : Nat) (x : Thread) : (s.setThread t x).parts = s.parts := rfl
@[simp] theorem setThread_ifaces (s : State) (t : Nat) (x : Thread) : (s.setThread t x).ifaces = s.ifaces := rfl
@[simp] theorem setThread_stackTab (s : State) (t : Nat) (x : Thread) : (s.setThread t x).stackTab = s.stackTab := rfl
@[simp] theorem setThread_layers (s : State) (t : Nat) (x : Thread) : (s.setThread t x).layers = s.layers := rfl
@[simp] theorem setThread_links (s : State) (t : Nat) (x : Thread) : (s.setThread t x).links = s.links := rfl
@[simp] theorem setThread_ring (s : State) (t : Nat) (x : Thread) : (s.setThread t x).ring = s.ring := rfl
@[simp] theorem setThread_lode (s : State) (t : Nat) (x : Thread) : (s.setThread t x).lode = s.lode := rfl
@[simp] theorem setThread_ylim (s : State) (t : Nat) (x : Thread) : (s.setThread t x).ylim = s.ylim := rfl
@[simp] theorem setThread_vcs (s : State) (t : Nat) (x : Thread) : (s.setThread t x).vcs = s.vcs := rfl
@[simp] theorem setThread_l1gen (s : State) (t : Nat) (x : Thread) : (s.setThread t x).l1gen = s.l1gen := rfl
@[simp] theorem setThread_l2 (s : State) (t : Nat) (x : Thread) : (s.setThread t x).l2 = s.l2 := rfl
@[simp] theorem setThread_tenants (s : State) (t : Nat) (x : Thread) : (s.setThread t x).tenants = s.tenants := rfl
@[simp] theorem setThread_l1 (s : State) (t : Nat) (x : Thread) : (s.setThread t x).l1 = s.l1 := rfl
@[simp] theorem setThread_mcPort (s : State) (t : Nat) (x : Thread) : (s.setThread t x).mcPort = s.mcPort := rfl
@[simp] theorem setThread_mcStack (s : State) (t : Nat) (x : Thread) : (s.setThread t x).mcStack = s.mcStack := rfl
@[simp] theorem setThread_flash (s : State) (t : Nat) (x : Thread) : (s.setThread t x).flash = s.flash := rfl
@[simp] theorem setThread_dis (s : State) (t : Nat) (x : Thread) : (s.setThread t x).dis = s.dis := rfl
@[simp] theorem setThread_pass (s : State) (t : Nat) (x : Thread) : (s.setThread t x).pass = s.pass := rfl
@[simp] theorem setThread_msix (s : State) (t : Nat) (x : Thread) : (s.setThread t x).msix = s.msix := rfl
@[simp] theorem setThread_hostDma (s : State) (t : Nat) (x : Thread) : (s.setThread t x).hostDma = s.hostDma := rfl
@[simp] theorem setThread_hostReply (s : State) (t : Nat) (x : Thread) : (s.setThread t x).hostReply = s.hostReply := rfl
@[simp] theorem setThread_spdmReply (s : State) (t : Nat) (x : Thread) : (s.setThread t x).spdmReply = s.spdmReply := rfl
@[simp] theorem setThread_fwEntry (s : State) (t : Nat) (x : Thread) : (s.setThread t x).fwEntry = s.fwEntry := rfl
@[simp] theorem setThread_coreReports (s : State) (t : Nat) (x : Thread) : (s.setThread t x).coreReports = s.coreReports := rfl
@[simp] theorem setThread_stopped (s : State) (t : Nat) (x : Thread) : (s.setThread t x).stopped = s.stopped := rfl

@[simp] theorem setTh_fc (s : State) (x : Thread) : (s.setTh x).fc = s.fc := rfl
@[simp] theorem setTh_agenda (s : State) (x : Thread) : (s.setTh x).agenda = s.agenda := rfl
@[simp] theorem setTh_now (s : State) (x : Thread) : (s.setTh x).now = s.now := rfl
@[simp] theorem setTh_issued (s : State) (x : Thread) : (s.setTh x).issued = s.issued := rfl
@[simp] theorem setTh_cur (s : State) (x : Thread) : (s.setTh x).cur = s.cur := rfl
@[simp] theorem setTh_curTile (s : State) (x : Thread) : (s.setTh x).curTile = s.curTile := rfl
@[simp] theorem setTh_curSlot (s : State) (x : Thread) : (s.setTh x).curSlot = s.curSlot := rfl
@[simp] theorem setTh_fresh (s : State) (x : Thread) : (s.setTh x).fresh = s.fresh := rfl
@[simp] theorem setTh_ids (s : State) (x : Thread) : (s.setTh x).ids = s.ids := rfl
@[simp] theorem setTh_tiles (s : State) (x : Thread) : (s.setTh x).tiles = s.tiles := rfl
@[simp] theorem setTh_mem (s : State) (x : Thread) : (s.setTh x).mem = s.mem := rfl
@[simp] theorem setTh_chans (s : State) (x : Thread) : (s.setTh x).chans = s.chans := rfl
@[simp] theorem setTh_homes (s : State) (x : Thread) : (s.setTh x).homes = s.homes := rfl
@[simp] theorem setTh_engines (s : State) (x : Thread) : (s.setTh x).engines = s.engines := rfl
@[simp] theorem setTh_invals (s : State) (x : Thread) : (s.setTh x).invals = s.invals := rfl
@[simp] theorem setTh_walks (s : State) (x : Thread) : (s.setTh x).walks = s.walks := rfl
@[simp] theorem setTh_raised (s : State) (x : Thread) : (s.setTh x).raised = s.raised := rfl
@[simp] theorem setTh_contexts (s : State) (x : Thread) : (s.setTh x).contexts = s.contexts := rfl
@[simp] theorem setTh_s1root (s : State) (x : Thread) : (s.setTh x).s1root = s.s1root := rfl
@[simp] theorem setTh_s2root (s : State) (x : Thread) : (s.setTh x).s2root = s.s2root := rfl
@[simp] theorem setTh_atsRefused (s : State) (x : Thread) : (s.setTh x).atsRefused = s.atsRefused := rfl
@[simp] theorem setTh_atc (s : State) (x : Thread) : (s.setTh x).atc = s.atc := rfl
@[simp] theorem setTh_atsDone (s : State) (x : Thread) : (s.setTh x).atsDone = s.atsDone := rfl
@[simp] theorem setTh_walkers (s : State) (x : Thread) : (s.setTh x).walkers = s.walkers := rfl
@[simp] theorem setTh_queues (s : State) (x : Thread) : (s.setTh x).queues = s.queues := rfl
@[simp] theorem setTh_lastPart (s : State) (x : Thread) : (s.setTh x).lastPart = s.lastPart := rfl
@[simp] theorem setTh_lastAdmit (s : State) (x : Thread) : (s.setTh x).lastAdmit = s.lastAdmit := rfl
@[simp] theorem setTh_groups (s : State) (x : Thread) : (s.setTh x).groups = s.groups := rfl
@[simp] theorem setTh_parts (s : State) (x : Thread) : (s.setTh x).parts = s.parts := rfl
@[simp] theorem setTh_ifaces (s : State) (x : Thread) : (s.setTh x).ifaces = s.ifaces := rfl
@[simp] theorem setTh_stackTab (s : State) (x : Thread) : (s.setTh x).stackTab = s.stackTab := rfl
@[simp] theorem setTh_layers (s : State) (x : Thread) : (s.setTh x).layers = s.layers := rfl
@[simp] theorem setTh_links (s : State) (x : Thread) : (s.setTh x).links = s.links := rfl
@[simp] theorem setTh_ring (s : State) (x : Thread) : (s.setTh x).ring = s.ring := rfl
@[simp] theorem setTh_lode (s : State) (x : Thread) : (s.setTh x).lode = s.lode := rfl
@[simp] theorem setTh_ylim (s : State) (x : Thread) : (s.setTh x).ylim = s.ylim := rfl
@[simp] theorem setTh_vcs (s : State) (x : Thread) : (s.setTh x).vcs = s.vcs := rfl
@[simp] theorem setTh_l1gen (s : State) (x : Thread) : (s.setTh x).l1gen = s.l1gen := rfl
@[simp] theorem setTh_l2 (s : State) (x : Thread) : (s.setTh x).l2 = s.l2 := rfl
@[simp] theorem setTh_tenants (s : State) (x : Thread) : (s.setTh x).tenants = s.tenants := rfl
@[simp] theorem setTh_l1 (s : State) (x : Thread) : (s.setTh x).l1 = s.l1 := rfl
@[simp] theorem setTh_mcPort (s : State) (x : Thread) : (s.setTh x).mcPort = s.mcPort := rfl
@[simp] theorem setTh_mcStack (s : State) (x : Thread) : (s.setTh x).mcStack = s.mcStack := rfl
@[simp] theorem setTh_flash (s : State) (x : Thread) : (s.setTh x).flash = s.flash := rfl
@[simp] theorem setTh_dis (s : State) (x : Thread) : (s.setTh x).dis = s.dis := rfl
@[simp] theorem setTh_pass (s : State) (x : Thread) : (s.setTh x).pass = s.pass := rfl
@[simp] theorem setTh_msix (s : State) (x : Thread) : (s.setTh x).msix = s.msix := rfl
@[simp] theorem setTh_hostDma (s : State) (x : Thread) : (s.setTh x).hostDma = s.hostDma := rfl
@[simp] theorem setTh_hostReply (s : State) (x : Thread) : (s.setTh x).hostReply = s.hostReply := rfl
@[simp] theorem setTh_spdmReply (s : State) (x : Thread) : (s.setTh x).spdmReply = s.spdmReply := rfl
@[simp] theorem setTh_fwEntry (s : State) (x : Thread) : (s.setTh x).fwEntry = s.fwEntry := rfl
@[simp] theorem setTh_coreReports (s : State) (x : Thread) : (s.setTh x).coreReports = s.coreReports := rfl
@[simp] theorem setTh_stopped (s : State) (x : Thread) : (s.setTh x).stopped = s.stopped := rfl

@[simp] theorem setTile_fc (s : State) (p : Nat) (x : Tile) : (s.setTile p x).fc = s.fc := rfl
@[simp] theorem setTile_agenda (s : State) (p : Nat) (x : Tile) : (s.setTile p x).agenda = s.agenda := rfl
@[simp] theorem setTile_now (s : State) (p : Nat) (x : Tile) : (s.setTile p x).now = s.now := rfl
@[simp] theorem setTile_issued (s : State) (p : Nat) (x : Tile) : (s.setTile p x).issued = s.issued := rfl
@[simp] theorem setTile_cur (s : State) (p : Nat) (x : Tile) : (s.setTile p x).cur = s.cur := rfl
@[simp] theorem setTile_curTile (s : State) (p : Nat) (x : Tile) : (s.setTile p x).curTile = s.curTile := rfl
@[simp] theorem setTile_curSlot (s : State) (p : Nat) (x : Tile) : (s.setTile p x).curSlot = s.curSlot := rfl
@[simp] theorem setTile_fresh (s : State) (p : Nat) (x : Tile) : (s.setTile p x).fresh = s.fresh := rfl
@[simp] theorem setTile_ids (s : State) (p : Nat) (x : Tile) : (s.setTile p x).ids = s.ids := rfl
@[simp] theorem setTile_threads (s : State) (p : Nat) (x : Tile) : (s.setTile p x).threads = s.threads := rfl
@[simp] theorem setTile_mem (s : State) (p : Nat) (x : Tile) : (s.setTile p x).mem = s.mem := rfl
@[simp] theorem setTile_chans (s : State) (p : Nat) (x : Tile) : (s.setTile p x).chans = s.chans := rfl
@[simp] theorem setTile_homes (s : State) (p : Nat) (x : Tile) : (s.setTile p x).homes = s.homes := rfl
@[simp] theorem setTile_engines (s : State) (p : Nat) (x : Tile) : (s.setTile p x).engines = s.engines := rfl
@[simp] theorem setTile_invals (s : State) (p : Nat) (x : Tile) : (s.setTile p x).invals = s.invals := rfl
@[simp] theorem setTile_walks (s : State) (p : Nat) (x : Tile) : (s.setTile p x).walks = s.walks := rfl
@[simp] theorem setTile_raised (s : State) (p : Nat) (x : Tile) : (s.setTile p x).raised = s.raised := rfl
@[simp] theorem setTile_contexts (s : State) (p : Nat) (x : Tile) : (s.setTile p x).contexts = s.contexts := rfl
@[simp] theorem setTile_s1root (s : State) (p : Nat) (x : Tile) : (s.setTile p x).s1root = s.s1root := rfl
@[simp] theorem setTile_s2root (s : State) (p : Nat) (x : Tile) : (s.setTile p x).s2root = s.s2root := rfl
@[simp] theorem setTile_atsRefused (s : State) (p : Nat) (x : Tile) : (s.setTile p x).atsRefused = s.atsRefused := rfl
@[simp] theorem setTile_atc (s : State) (p : Nat) (x : Tile) : (s.setTile p x).atc = s.atc := rfl
@[simp] theorem setTile_atsDone (s : State) (p : Nat) (x : Tile) : (s.setTile p x).atsDone = s.atsDone := rfl
@[simp] theorem setTile_walkers (s : State) (p : Nat) (x : Tile) : (s.setTile p x).walkers = s.walkers := rfl
@[simp] theorem setTile_queues (s : State) (p : Nat) (x : Tile) : (s.setTile p x).queues = s.queues := rfl
@[simp] theorem setTile_lastPart (s : State) (p : Nat) (x : Tile) : (s.setTile p x).lastPart = s.lastPart := rfl
@[simp] theorem setTile_lastAdmit (s : State) (p : Nat) (x : Tile) : (s.setTile p x).lastAdmit = s.lastAdmit := rfl
@[simp] theorem setTile_groups (s : State) (p : Nat) (x : Tile) : (s.setTile p x).groups = s.groups := rfl
@[simp] theorem setTile_parts (s : State) (p : Nat) (x : Tile) : (s.setTile p x).parts = s.parts := rfl
@[simp] theorem setTile_ifaces (s : State) (p : Nat) (x : Tile) : (s.setTile p x).ifaces = s.ifaces := rfl
@[simp] theorem setTile_stackTab (s : State) (p : Nat) (x : Tile) : (s.setTile p x).stackTab = s.stackTab := rfl
@[simp] theorem setTile_layers (s : State) (p : Nat) (x : Tile) : (s.setTile p x).layers = s.layers := rfl
@[simp] theorem setTile_links (s : State) (p : Nat) (x : Tile) : (s.setTile p x).links = s.links := rfl
@[simp] theorem setTile_ring (s : State) (p : Nat) (x : Tile) : (s.setTile p x).ring = s.ring := rfl
@[simp] theorem setTile_lode (s : State) (p : Nat) (x : Tile) : (s.setTile p x).lode = s.lode := rfl
@[simp] theorem setTile_ylim (s : State) (p : Nat) (x : Tile) : (s.setTile p x).ylim = s.ylim := rfl
@[simp] theorem setTile_vcs (s : State) (p : Nat) (x : Tile) : (s.setTile p x).vcs = s.vcs := rfl
@[simp] theorem setTile_l1gen (s : State) (p : Nat) (x : Tile) : (s.setTile p x).l1gen = s.l1gen := rfl
@[simp] theorem setTile_l2 (s : State) (p : Nat) (x : Tile) : (s.setTile p x).l2 = s.l2 := rfl
@[simp] theorem setTile_tenants (s : State) (p : Nat) (x : Tile) : (s.setTile p x).tenants = s.tenants := rfl
@[simp] theorem setTile_l1 (s : State) (p : Nat) (x : Tile) : (s.setTile p x).l1 = s.l1 := rfl
@[simp] theorem setTile_mcPort (s : State) (p : Nat) (x : Tile) : (s.setTile p x).mcPort = s.mcPort := rfl
@[simp] theorem setTile_mcStack (s : State) (p : Nat) (x : Tile) : (s.setTile p x).mcStack = s.mcStack := rfl
@[simp] theorem setTile_flash (s : State) (p : Nat) (x : Tile) : (s.setTile p x).flash = s.flash := rfl
@[simp] theorem setTile_dis (s : State) (p : Nat) (x : Tile) : (s.setTile p x).dis = s.dis := rfl
@[simp] theorem setTile_pass (s : State) (p : Nat) (x : Tile) : (s.setTile p x).pass = s.pass := rfl
@[simp] theorem setTile_msix (s : State) (p : Nat) (x : Tile) : (s.setTile p x).msix = s.msix := rfl
@[simp] theorem setTile_hostDma (s : State) (p : Nat) (x : Tile) : (s.setTile p x).hostDma = s.hostDma := rfl
@[simp] theorem setTile_hostReply (s : State) (p : Nat) (x : Tile) : (s.setTile p x).hostReply = s.hostReply := rfl
@[simp] theorem setTile_spdmReply (s : State) (p : Nat) (x : Tile) : (s.setTile p x).spdmReply = s.spdmReply := rfl
@[simp] theorem setTile_fwEntry (s : State) (p : Nat) (x : Tile) : (s.setTile p x).fwEntry = s.fwEntry := rfl
@[simp] theorem setTile_coreReports (s : State) (p : Nat) (x : Tile) : (s.setTile p x).coreReports = s.coreReports := rfl
@[simp] theorem setTile_stopped (s : State) (p : Nat) (x : Tile) : (s.setTile p x).stopped = s.stopped := rfl

@[simp] theorem setSlot_fc (s : State) (p n : Nat) (x : Slot) : (s.setSlot p n x).fc = s.fc := rfl
@[simp] theorem setSlot_agenda (s : State) (p n : Nat) (x : Slot) : (s.setSlot p n x).agenda = s.agenda := rfl
@[simp] theorem setSlot_now (s : State) (p n : Nat) (x : Slot) : (s.setSlot p n x).now = s.now := rfl
@[simp] theorem setSlot_issued (s : State) (p n : Nat) (x : Slot) : (s.setSlot p n x).issued = s.issued := rfl
@[simp] theorem setSlot_cur (s : State) (p n : Nat) (x : Slot) : (s.setSlot p n x).cur = s.cur := rfl
@[simp] theorem setSlot_curTile (s : State) (p n : Nat) (x : Slot) : (s.setSlot p n x).curTile = s.curTile := rfl
@[simp] theorem setSlot_curSlot (s : State) (p n : Nat) (x : Slot) : (s.setSlot p n x).curSlot = s.curSlot := rfl
@[simp] theorem setSlot_fresh (s : State) (p n : Nat) (x : Slot) : (s.setSlot p n x).fresh = s.fresh := rfl
@[simp] theorem setSlot_ids (s : State) (p n : Nat) (x : Slot) : (s.setSlot p n x).ids = s.ids := rfl
@[simp] theorem setSlot_threads (s : State) (p n : Nat) (x : Slot) : (s.setSlot p n x).threads = s.threads := rfl
@[simp] theorem setSlot_mem (s : State) (p n : Nat) (x : Slot) : (s.setSlot p n x).mem = s.mem := rfl
@[simp] theorem setSlot_chans (s : State) (p n : Nat) (x : Slot) : (s.setSlot p n x).chans = s.chans := rfl
@[simp] theorem setSlot_homes (s : State) (p n : Nat) (x : Slot) : (s.setSlot p n x).homes = s.homes := rfl
@[simp] theorem setSlot_engines (s : State) (p n : Nat) (x : Slot) : (s.setSlot p n x).engines = s.engines := rfl
@[simp] theorem setSlot_invals (s : State) (p n : Nat) (x : Slot) : (s.setSlot p n x).invals = s.invals := rfl
@[simp] theorem setSlot_walks (s : State) (p n : Nat) (x : Slot) : (s.setSlot p n x).walks = s.walks := rfl
@[simp] theorem setSlot_raised (s : State) (p n : Nat) (x : Slot) : (s.setSlot p n x).raised = s.raised := rfl
@[simp] theorem setSlot_contexts (s : State) (p n : Nat) (x : Slot) : (s.setSlot p n x).contexts = s.contexts := rfl
@[simp] theorem setSlot_s1root (s : State) (p n : Nat) (x : Slot) : (s.setSlot p n x).s1root = s.s1root := rfl
@[simp] theorem setSlot_s2root (s : State) (p n : Nat) (x : Slot) : (s.setSlot p n x).s2root = s.s2root := rfl
@[simp] theorem setSlot_atsRefused (s : State) (p n : Nat) (x : Slot) : (s.setSlot p n x).atsRefused = s.atsRefused := rfl
@[simp] theorem setSlot_atc (s : State) (p n : Nat) (x : Slot) : (s.setSlot p n x).atc = s.atc := rfl
@[simp] theorem setSlot_atsDone (s : State) (p n : Nat) (x : Slot) : (s.setSlot p n x).atsDone = s.atsDone := rfl
@[simp] theorem setSlot_walkers (s : State) (p n : Nat) (x : Slot) : (s.setSlot p n x).walkers = s.walkers := rfl
@[simp] theorem setSlot_queues (s : State) (p n : Nat) (x : Slot) : (s.setSlot p n x).queues = s.queues := rfl
@[simp] theorem setSlot_lastPart (s : State) (p n : Nat) (x : Slot) : (s.setSlot p n x).lastPart = s.lastPart := rfl
@[simp] theorem setSlot_lastAdmit (s : State) (p n : Nat) (x : Slot) : (s.setSlot p n x).lastAdmit = s.lastAdmit := rfl
@[simp] theorem setSlot_groups (s : State) (p n : Nat) (x : Slot) : (s.setSlot p n x).groups = s.groups := rfl
@[simp] theorem setSlot_parts (s : State) (p n : Nat) (x : Slot) : (s.setSlot p n x).parts = s.parts := rfl
@[simp] theorem setSlot_ifaces (s : State) (p n : Nat) (x : Slot) : (s.setSlot p n x).ifaces = s.ifaces := rfl
@[simp] theorem setSlot_stackTab (s : State) (p n : Nat) (x : Slot) : (s.setSlot p n x).stackTab = s.stackTab := rfl
@[simp] theorem setSlot_layers (s : State) (p n : Nat) (x : Slot) : (s.setSlot p n x).layers = s.layers := rfl
@[simp] theorem setSlot_links (s : State) (p n : Nat) (x : Slot) : (s.setSlot p n x).links = s.links := rfl
@[simp] theorem setSlot_ring (s : State) (p n : Nat) (x : Slot) : (s.setSlot p n x).ring = s.ring := rfl
@[simp] theorem setSlot_lode (s : State) (p n : Nat) (x : Slot) : (s.setSlot p n x).lode = s.lode := rfl
@[simp] theorem setSlot_ylim (s : State) (p n : Nat) (x : Slot) : (s.setSlot p n x).ylim = s.ylim := rfl
@[simp] theorem setSlot_vcs (s : State) (p n : Nat) (x : Slot) : (s.setSlot p n x).vcs = s.vcs := rfl
@[simp] theorem setSlot_l1gen (s : State) (p n : Nat) (x : Slot) : (s.setSlot p n x).l1gen = s.l1gen := rfl
@[simp] theorem setSlot_l2 (s : State) (p n : Nat) (x : Slot) : (s.setSlot p n x).l2 = s.l2 := rfl
@[simp] theorem setSlot_tenants (s : State) (p n : Nat) (x : Slot) : (s.setSlot p n x).tenants = s.tenants := rfl
@[simp] theorem setSlot_l1 (s : State) (p n : Nat) (x : Slot) : (s.setSlot p n x).l1 = s.l1 := rfl
@[simp] theorem setSlot_mcPort (s : State) (p n : Nat) (x : Slot) : (s.setSlot p n x).mcPort = s.mcPort := rfl
@[simp] theorem setSlot_mcStack (s : State) (p n : Nat) (x : Slot) : (s.setSlot p n x).mcStack = s.mcStack := rfl
@[simp] theorem setSlot_flash (s : State) (p n : Nat) (x : Slot) : (s.setSlot p n x).flash = s.flash := rfl
@[simp] theorem setSlot_dis (s : State) (p n : Nat) (x : Slot) : (s.setSlot p n x).dis = s.dis := rfl
@[simp] theorem setSlot_pass (s : State) (p n : Nat) (x : Slot) : (s.setSlot p n x).pass = s.pass := rfl
@[simp] theorem setSlot_msix (s : State) (p n : Nat) (x : Slot) : (s.setSlot p n x).msix = s.msix := rfl
@[simp] theorem setSlot_hostDma (s : State) (p n : Nat) (x : Slot) : (s.setSlot p n x).hostDma = s.hostDma := rfl
@[simp] theorem setSlot_hostReply (s : State) (p n : Nat) (x : Slot) : (s.setSlot p n x).hostReply = s.hostReply := rfl
@[simp] theorem setSlot_spdmReply (s : State) (p n : Nat) (x : Slot) : (s.setSlot p n x).spdmReply = s.spdmReply := rfl
@[simp] theorem setSlot_fwEntry (s : State) (p n : Nat) (x : Slot) : (s.setSlot p n x).fwEntry = s.fwEntry := rfl
@[simp] theorem setSlot_coreReports (s : State) (p n : Nat) (x : Slot) : (s.setSlot p n x).coreReports = s.coreReports := rfl
@[simp] theorem setSlot_stopped (s : State) (p n : Nat) (x : Slot) : (s.setSlot p n x).stopped = s.stopped := rfl

@[simp] theorem setUnit_fc (s : State) (p u : Nat) (x : Unit) : (s.setUnit p u x).fc = s.fc := rfl
@[simp] theorem setUnit_agenda (s : State) (p u : Nat) (x : Unit) : (s.setUnit p u x).agenda = s.agenda := rfl
@[simp] theorem setUnit_now (s : State) (p u : Nat) (x : Unit) : (s.setUnit p u x).now = s.now := rfl
@[simp] theorem setUnit_issued (s : State) (p u : Nat) (x : Unit) : (s.setUnit p u x).issued = s.issued := rfl
@[simp] theorem setUnit_cur (s : State) (p u : Nat) (x : Unit) : (s.setUnit p u x).cur = s.cur := rfl
@[simp] theorem setUnit_curTile (s : State) (p u : Nat) (x : Unit) : (s.setUnit p u x).curTile = s.curTile := rfl
@[simp] theorem setUnit_curSlot (s : State) (p u : Nat) (x : Unit) : (s.setUnit p u x).curSlot = s.curSlot := rfl
@[simp] theorem setUnit_fresh (s : State) (p u : Nat) (x : Unit) : (s.setUnit p u x).fresh = s.fresh := rfl
@[simp] theorem setUnit_ids (s : State) (p u : Nat) (x : Unit) : (s.setUnit p u x).ids = s.ids := rfl
@[simp] theorem setUnit_threads (s : State) (p u : Nat) (x : Unit) : (s.setUnit p u x).threads = s.threads := rfl
@[simp] theorem setUnit_mem (s : State) (p u : Nat) (x : Unit) : (s.setUnit p u x).mem = s.mem := rfl
@[simp] theorem setUnit_chans (s : State) (p u : Nat) (x : Unit) : (s.setUnit p u x).chans = s.chans := rfl
@[simp] theorem setUnit_homes (s : State) (p u : Nat) (x : Unit) : (s.setUnit p u x).homes = s.homes := rfl
@[simp] theorem setUnit_engines (s : State) (p u : Nat) (x : Unit) : (s.setUnit p u x).engines = s.engines := rfl
@[simp] theorem setUnit_invals (s : State) (p u : Nat) (x : Unit) : (s.setUnit p u x).invals = s.invals := rfl
@[simp] theorem setUnit_walks (s : State) (p u : Nat) (x : Unit) : (s.setUnit p u x).walks = s.walks := rfl
@[simp] theorem setUnit_raised (s : State) (p u : Nat) (x : Unit) : (s.setUnit p u x).raised = s.raised := rfl
@[simp] theorem setUnit_contexts (s : State) (p u : Nat) (x : Unit) : (s.setUnit p u x).contexts = s.contexts := rfl
@[simp] theorem setUnit_s1root (s : State) (p u : Nat) (x : Unit) : (s.setUnit p u x).s1root = s.s1root := rfl
@[simp] theorem setUnit_s2root (s : State) (p u : Nat) (x : Unit) : (s.setUnit p u x).s2root = s.s2root := rfl
@[simp] theorem setUnit_atsRefused (s : State) (p u : Nat) (x : Unit) : (s.setUnit p u x).atsRefused = s.atsRefused := rfl
@[simp] theorem setUnit_atc (s : State) (p u : Nat) (x : Unit) : (s.setUnit p u x).atc = s.atc := rfl
@[simp] theorem setUnit_atsDone (s : State) (p u : Nat) (x : Unit) : (s.setUnit p u x).atsDone = s.atsDone := rfl
@[simp] theorem setUnit_walkers (s : State) (p u : Nat) (x : Unit) : (s.setUnit p u x).walkers = s.walkers := rfl
@[simp] theorem setUnit_queues (s : State) (p u : Nat) (x : Unit) : (s.setUnit p u x).queues = s.queues := rfl
@[simp] theorem setUnit_lastPart (s : State) (p u : Nat) (x : Unit) : (s.setUnit p u x).lastPart = s.lastPart := rfl
@[simp] theorem setUnit_lastAdmit (s : State) (p u : Nat) (x : Unit) : (s.setUnit p u x).lastAdmit = s.lastAdmit := rfl
@[simp] theorem setUnit_groups (s : State) (p u : Nat) (x : Unit) : (s.setUnit p u x).groups = s.groups := rfl
@[simp] theorem setUnit_parts (s : State) (p u : Nat) (x : Unit) : (s.setUnit p u x).parts = s.parts := rfl
@[simp] theorem setUnit_ifaces (s : State) (p u : Nat) (x : Unit) : (s.setUnit p u x).ifaces = s.ifaces := rfl
@[simp] theorem setUnit_stackTab (s : State) (p u : Nat) (x : Unit) : (s.setUnit p u x).stackTab = s.stackTab := rfl
@[simp] theorem setUnit_layers (s : State) (p u : Nat) (x : Unit) : (s.setUnit p u x).layers = s.layers := rfl
@[simp] theorem setUnit_links (s : State) (p u : Nat) (x : Unit) : (s.setUnit p u x).links = s.links := rfl
@[simp] theorem setUnit_ring (s : State) (p u : Nat) (x : Unit) : (s.setUnit p u x).ring = s.ring := rfl
@[simp] theorem setUnit_lode (s : State) (p u : Nat) (x : Unit) : (s.setUnit p u x).lode = s.lode := rfl
@[simp] theorem setUnit_ylim (s : State) (p u : Nat) (x : Unit) : (s.setUnit p u x).ylim = s.ylim := rfl
@[simp] theorem setUnit_vcs (s : State) (p u : Nat) (x : Unit) : (s.setUnit p u x).vcs = s.vcs := rfl
@[simp] theorem setUnit_l1gen (s : State) (p u : Nat) (x : Unit) : (s.setUnit p u x).l1gen = s.l1gen := rfl
@[simp] theorem setUnit_l2 (s : State) (p u : Nat) (x : Unit) : (s.setUnit p u x).l2 = s.l2 := rfl
@[simp] theorem setUnit_tenants (s : State) (p u : Nat) (x : Unit) : (s.setUnit p u x).tenants = s.tenants := rfl
@[simp] theorem setUnit_l1 (s : State) (p u : Nat) (x : Unit) : (s.setUnit p u x).l1 = s.l1 := rfl
@[simp] theorem setUnit_mcPort (s : State) (p u : Nat) (x : Unit) : (s.setUnit p u x).mcPort = s.mcPort := rfl
@[simp] theorem setUnit_mcStack (s : State) (p u : Nat) (x : Unit) : (s.setUnit p u x).mcStack = s.mcStack := rfl
@[simp] theorem setUnit_flash (s : State) (p u : Nat) (x : Unit) : (s.setUnit p u x).flash = s.flash := rfl
@[simp] theorem setUnit_dis (s : State) (p u : Nat) (x : Unit) : (s.setUnit p u x).dis = s.dis := rfl
@[simp] theorem setUnit_pass (s : State) (p u : Nat) (x : Unit) : (s.setUnit p u x).pass = s.pass := rfl
@[simp] theorem setUnit_msix (s : State) (p u : Nat) (x : Unit) : (s.setUnit p u x).msix = s.msix := rfl
@[simp] theorem setUnit_hostDma (s : State) (p u : Nat) (x : Unit) : (s.setUnit p u x).hostDma = s.hostDma := rfl
@[simp] theorem setUnit_hostReply (s : State) (p u : Nat) (x : Unit) : (s.setUnit p u x).hostReply = s.hostReply := rfl
@[simp] theorem setUnit_spdmReply (s : State) (p u : Nat) (x : Unit) : (s.setUnit p u x).spdmReply = s.spdmReply := rfl
@[simp] theorem setUnit_fwEntry (s : State) (p u : Nat) (x : Unit) : (s.setUnit p u x).fwEntry = s.fwEntry := rfl
@[simp] theorem setUnit_coreReports (s : State) (p u : Nat) (x : Unit) : (s.setUnit p u x).coreReports = s.coreReports := rfl
@[simp] theorem setUnit_stopped (s : State) (p u : Nat) (x : Unit) : (s.setUnit p u x).stopped = s.stopped := rfl

@[simp] theorem setContext_fc (s : State) (x : Nat) (c : Context) : (s.setContext x c).fc = s.fc := rfl
@[simp] theorem setContext_agenda (s : State) (x : Nat) (c : Context) : (s.setContext x c).agenda = s.agenda := rfl
@[simp] theorem setContext_now (s : State) (x : Nat) (c : Context) : (s.setContext x c).now = s.now := rfl
@[simp] theorem setContext_issued (s : State) (x : Nat) (c : Context) : (s.setContext x c).issued = s.issued := rfl
@[simp] theorem setContext_cur (s : State) (x : Nat) (c : Context) : (s.setContext x c).cur = s.cur := rfl
@[simp] theorem setContext_curTile (s : State) (x : Nat) (c : Context) : (s.setContext x c).curTile = s.curTile := rfl
@[simp] theorem setContext_curSlot (s : State) (x : Nat) (c : Context) : (s.setContext x c).curSlot = s.curSlot := rfl
@[simp] theorem setContext_fresh (s : State) (x : Nat) (c : Context) : (s.setContext x c).fresh = s.fresh := rfl
@[simp] theorem setContext_ids (s : State) (x : Nat) (c : Context) : (s.setContext x c).ids = s.ids := rfl
@[simp] theorem setContext_threads (s : State) (x : Nat) (c : Context) : (s.setContext x c).threads = s.threads := rfl
@[simp] theorem setContext_tiles (s : State) (x : Nat) (c : Context) : (s.setContext x c).tiles = s.tiles := rfl
@[simp] theorem setContext_mem (s : State) (x : Nat) (c : Context) : (s.setContext x c).mem = s.mem := rfl
@[simp] theorem setContext_chans (s : State) (x : Nat) (c : Context) : (s.setContext x c).chans = s.chans := rfl
@[simp] theorem setContext_homes (s : State) (x : Nat) (c : Context) : (s.setContext x c).homes = s.homes := rfl
@[simp] theorem setContext_engines (s : State) (x : Nat) (c : Context) : (s.setContext x c).engines = s.engines := rfl
@[simp] theorem setContext_invals (s : State) (x : Nat) (c : Context) : (s.setContext x c).invals = s.invals := rfl
@[simp] theorem setContext_walks (s : State) (x : Nat) (c : Context) : (s.setContext x c).walks = s.walks := rfl
@[simp] theorem setContext_raised (s : State) (x : Nat) (c : Context) : (s.setContext x c).raised = s.raised := rfl
@[simp] theorem setContext_s1root (s : State) (x : Nat) (c : Context) : (s.setContext x c).s1root = s.s1root := rfl
@[simp] theorem setContext_s2root (s : State) (x : Nat) (c : Context) : (s.setContext x c).s2root = s.s2root := rfl
@[simp] theorem setContext_atsRefused (s : State) (x : Nat) (c : Context) : (s.setContext x c).atsRefused = s.atsRefused := rfl
@[simp] theorem setContext_atc (s : State) (x : Nat) (c : Context) : (s.setContext x c).atc = s.atc := rfl
@[simp] theorem setContext_atsDone (s : State) (x : Nat) (c : Context) : (s.setContext x c).atsDone = s.atsDone := rfl
@[simp] theorem setContext_walkers (s : State) (x : Nat) (c : Context) : (s.setContext x c).walkers = s.walkers := rfl
@[simp] theorem setContext_queues (s : State) (x : Nat) (c : Context) : (s.setContext x c).queues = s.queues := rfl
@[simp] theorem setContext_lastPart (s : State) (x : Nat) (c : Context) : (s.setContext x c).lastPart = s.lastPart := rfl
@[simp] theorem setContext_lastAdmit (s : State) (x : Nat) (c : Context) : (s.setContext x c).lastAdmit = s.lastAdmit := rfl
@[simp] theorem setContext_groups (s : State) (x : Nat) (c : Context) : (s.setContext x c).groups = s.groups := rfl
@[simp] theorem setContext_parts (s : State) (x : Nat) (c : Context) : (s.setContext x c).parts = s.parts := rfl
@[simp] theorem setContext_ifaces (s : State) (x : Nat) (c : Context) : (s.setContext x c).ifaces = s.ifaces := rfl
@[simp] theorem setContext_stackTab (s : State) (x : Nat) (c : Context) : (s.setContext x c).stackTab = s.stackTab := rfl
@[simp] theorem setContext_layers (s : State) (x : Nat) (c : Context) : (s.setContext x c).layers = s.layers := rfl
@[simp] theorem setContext_links (s : State) (x : Nat) (c : Context) : (s.setContext x c).links = s.links := rfl
@[simp] theorem setContext_ring (s : State) (x : Nat) (c : Context) : (s.setContext x c).ring = s.ring := rfl
@[simp] theorem setContext_lode (s : State) (x : Nat) (c : Context) : (s.setContext x c).lode = s.lode := rfl
@[simp] theorem setContext_ylim (s : State) (x : Nat) (c : Context) : (s.setContext x c).ylim = s.ylim := rfl
@[simp] theorem setContext_vcs (s : State) (x : Nat) (c : Context) : (s.setContext x c).vcs = s.vcs := rfl
@[simp] theorem setContext_l1gen (s : State) (x : Nat) (c : Context) : (s.setContext x c).l1gen = s.l1gen := rfl
@[simp] theorem setContext_l2 (s : State) (x : Nat) (c : Context) : (s.setContext x c).l2 = s.l2 := rfl
@[simp] theorem setContext_tenants (s : State) (x : Nat) (c : Context) : (s.setContext x c).tenants = s.tenants := rfl
@[simp] theorem setContext_l1 (s : State) (x : Nat) (c : Context) : (s.setContext x c).l1 = s.l1 := rfl
@[simp] theorem setContext_mcPort (s : State) (x : Nat) (c : Context) : (s.setContext x c).mcPort = s.mcPort := rfl
@[simp] theorem setContext_mcStack (s : State) (x : Nat) (c : Context) : (s.setContext x c).mcStack = s.mcStack := rfl
@[simp] theorem setContext_flash (s : State) (x : Nat) (c : Context) : (s.setContext x c).flash = s.flash := rfl
@[simp] theorem setContext_dis (s : State) (x : Nat) (c : Context) : (s.setContext x c).dis = s.dis := rfl
@[simp] theorem setContext_pass (s : State) (x : Nat) (c : Context) : (s.setContext x c).pass = s.pass := rfl
@[simp] theorem setContext_msix (s : State) (x : Nat) (c : Context) : (s.setContext x c).msix = s.msix := rfl
@[simp] theorem setContext_hostDma (s : State) (x : Nat) (c : Context) : (s.setContext x c).hostDma = s.hostDma := rfl
@[simp] theorem setContext_hostReply (s : State) (x : Nat) (c : Context) : (s.setContext x c).hostReply = s.hostReply := rfl
@[simp] theorem setContext_spdmReply (s : State) (x : Nat) (c : Context) : (s.setContext x c).spdmReply = s.spdmReply := rfl
@[simp] theorem setContext_fwEntry (s : State) (x : Nat) (c : Context) : (s.setContext x c).fwEntry = s.fwEntry := rfl
@[simp] theorem setContext_coreReports (s : State) (x : Nat) (c : Context) : (s.setContext x c).coreReports = s.coreReports := rfl
@[simp] theorem setContext_stopped (s : State) (x : Nat) (c : Context) : (s.setContext x c).stopped = s.stopped := rfl

@[simp] theorem setGroup_fc (s : State) (g : Nat) (x : Group) : (s.setGroup g x).fc = s.fc := rfl
@[simp] theorem setGroup_agenda (s : State) (g : Nat) (x : Group) : (s.setGroup g x).agenda = s.agenda := rfl
@[simp] theorem setGroup_now (s : State) (g : Nat) (x : Group) : (s.setGroup g x).now = s.now := rfl
@[simp] theorem setGroup_issued (s : State) (g : Nat) (x : Group) : (s.setGroup g x).issued = s.issued := rfl
@[simp] theorem setGroup_cur (s : State) (g : Nat) (x : Group) : (s.setGroup g x).cur = s.cur := rfl
@[simp] theorem setGroup_curTile (s : State) (g : Nat) (x : Group) : (s.setGroup g x).curTile = s.curTile := rfl
@[simp] theorem setGroup_curSlot (s : State) (g : Nat) (x : Group) : (s.setGroup g x).curSlot = s.curSlot := rfl
@[simp] theorem setGroup_fresh (s : State) (g : Nat) (x : Group) : (s.setGroup g x).fresh = s.fresh := rfl
@[simp] theorem setGroup_ids (s : State) (g : Nat) (x : Group) : (s.setGroup g x).ids = s.ids := rfl
@[simp] theorem setGroup_threads (s : State) (g : Nat) (x : Group) : (s.setGroup g x).threads = s.threads := rfl
@[simp] theorem setGroup_tiles (s : State) (g : Nat) (x : Group) : (s.setGroup g x).tiles = s.tiles := rfl
@[simp] theorem setGroup_mem (s : State) (g : Nat) (x : Group) : (s.setGroup g x).mem = s.mem := rfl
@[simp] theorem setGroup_chans (s : State) (g : Nat) (x : Group) : (s.setGroup g x).chans = s.chans := rfl
@[simp] theorem setGroup_homes (s : State) (g : Nat) (x : Group) : (s.setGroup g x).homes = s.homes := rfl
@[simp] theorem setGroup_engines (s : State) (g : Nat) (x : Group) : (s.setGroup g x).engines = s.engines := rfl
@[simp] theorem setGroup_invals (s : State) (g : Nat) (x : Group) : (s.setGroup g x).invals = s.invals := rfl
@[simp] theorem setGroup_walks (s : State) (g : Nat) (x : Group) : (s.setGroup g x).walks = s.walks := rfl
@[simp] theorem setGroup_raised (s : State) (g : Nat) (x : Group) : (s.setGroup g x).raised = s.raised := rfl
@[simp] theorem setGroup_contexts (s : State) (g : Nat) (x : Group) : (s.setGroup g x).contexts = s.contexts := rfl
@[simp] theorem setGroup_s1root (s : State) (g : Nat) (x : Group) : (s.setGroup g x).s1root = s.s1root := rfl
@[simp] theorem setGroup_s2root (s : State) (g : Nat) (x : Group) : (s.setGroup g x).s2root = s.s2root := rfl
@[simp] theorem setGroup_atsRefused (s : State) (g : Nat) (x : Group) : (s.setGroup g x).atsRefused = s.atsRefused := rfl
@[simp] theorem setGroup_atc (s : State) (g : Nat) (x : Group) : (s.setGroup g x).atc = s.atc := rfl
@[simp] theorem setGroup_atsDone (s : State) (g : Nat) (x : Group) : (s.setGroup g x).atsDone = s.atsDone := rfl
@[simp] theorem setGroup_walkers (s : State) (g : Nat) (x : Group) : (s.setGroup g x).walkers = s.walkers := rfl
@[simp] theorem setGroup_queues (s : State) (g : Nat) (x : Group) : (s.setGroup g x).queues = s.queues := rfl
@[simp] theorem setGroup_lastPart (s : State) (g : Nat) (x : Group) : (s.setGroup g x).lastPart = s.lastPart := rfl
@[simp] theorem setGroup_lastAdmit (s : State) (g : Nat) (x : Group) : (s.setGroup g x).lastAdmit = s.lastAdmit := rfl
@[simp] theorem setGroup_parts (s : State) (g : Nat) (x : Group) : (s.setGroup g x).parts = s.parts := rfl
@[simp] theorem setGroup_ifaces (s : State) (g : Nat) (x : Group) : (s.setGroup g x).ifaces = s.ifaces := rfl
@[simp] theorem setGroup_stackTab (s : State) (g : Nat) (x : Group) : (s.setGroup g x).stackTab = s.stackTab := rfl
@[simp] theorem setGroup_layers (s : State) (g : Nat) (x : Group) : (s.setGroup g x).layers = s.layers := rfl
@[simp] theorem setGroup_links (s : State) (g : Nat) (x : Group) : (s.setGroup g x).links = s.links := rfl
@[simp] theorem setGroup_ring (s : State) (g : Nat) (x : Group) : (s.setGroup g x).ring = s.ring := rfl
@[simp] theorem setGroup_lode (s : State) (g : Nat) (x : Group) : (s.setGroup g x).lode = s.lode := rfl
@[simp] theorem setGroup_ylim (s : State) (g : Nat) (x : Group) : (s.setGroup g x).ylim = s.ylim := rfl
@[simp] theorem setGroup_vcs (s : State) (g : Nat) (x : Group) : (s.setGroup g x).vcs = s.vcs := rfl
@[simp] theorem setGroup_l1gen (s : State) (g : Nat) (x : Group) : (s.setGroup g x).l1gen = s.l1gen := rfl
@[simp] theorem setGroup_l2 (s : State) (g : Nat) (x : Group) : (s.setGroup g x).l2 = s.l2 := rfl
@[simp] theorem setGroup_tenants (s : State) (g : Nat) (x : Group) : (s.setGroup g x).tenants = s.tenants := rfl
@[simp] theorem setGroup_l1 (s : State) (g : Nat) (x : Group) : (s.setGroup g x).l1 = s.l1 := rfl
@[simp] theorem setGroup_mcPort (s : State) (g : Nat) (x : Group) : (s.setGroup g x).mcPort = s.mcPort := rfl
@[simp] theorem setGroup_mcStack (s : State) (g : Nat) (x : Group) : (s.setGroup g x).mcStack = s.mcStack := rfl
@[simp] theorem setGroup_flash (s : State) (g : Nat) (x : Group) : (s.setGroup g x).flash = s.flash := rfl
@[simp] theorem setGroup_dis (s : State) (g : Nat) (x : Group) : (s.setGroup g x).dis = s.dis := rfl
@[simp] theorem setGroup_pass (s : State) (g : Nat) (x : Group) : (s.setGroup g x).pass = s.pass := rfl
@[simp] theorem setGroup_msix (s : State) (g : Nat) (x : Group) : (s.setGroup g x).msix = s.msix := rfl
@[simp] theorem setGroup_hostDma (s : State) (g : Nat) (x : Group) : (s.setGroup g x).hostDma = s.hostDma := rfl
@[simp] theorem setGroup_hostReply (s : State) (g : Nat) (x : Group) : (s.setGroup g x).hostReply = s.hostReply := rfl
@[simp] theorem setGroup_spdmReply (s : State) (g : Nat) (x : Group) : (s.setGroup g x).spdmReply = s.spdmReply := rfl
@[simp] theorem setGroup_fwEntry (s : State) (g : Nat) (x : Group) : (s.setGroup g x).fwEntry = s.fwEntry := rfl
@[simp] theorem setGroup_coreReports (s : State) (g : Nat) (x : Group) : (s.setGroup g x).coreReports = s.coreReports := rfl
@[simp] theorem setGroup_stopped (s : State) (g : Nat) (x : Group) : (s.setGroup g x).stopped = s.stopped := rfl

@[simp] theorem setQueue_fc (s : State) (q : Nat) (x : Queue) : (s.setQueue q x).fc = s.fc := rfl
@[simp] theorem setQueue_agenda (s : State) (q : Nat) (x : Queue) : (s.setQueue q x).agenda = s.agenda := rfl
@[simp] theorem setQueue_now (s : State) (q : Nat) (x : Queue) : (s.setQueue q x).now = s.now := rfl
@[simp] theorem setQueue_issued (s : State) (q : Nat) (x : Queue) : (s.setQueue q x).issued = s.issued := rfl
@[simp] theorem setQueue_cur (s : State) (q : Nat) (x : Queue) : (s.setQueue q x).cur = s.cur := rfl
@[simp] theorem setQueue_curTile (s : State) (q : Nat) (x : Queue) : (s.setQueue q x).curTile = s.curTile := rfl
@[simp] theorem setQueue_curSlot (s : State) (q : Nat) (x : Queue) : (s.setQueue q x).curSlot = s.curSlot := rfl
@[simp] theorem setQueue_fresh (s : State) (q : Nat) (x : Queue) : (s.setQueue q x).fresh = s.fresh := rfl
@[simp] theorem setQueue_ids (s : State) (q : Nat) (x : Queue) : (s.setQueue q x).ids = s.ids := rfl
@[simp] theorem setQueue_threads (s : State) (q : Nat) (x : Queue) : (s.setQueue q x).threads = s.threads := rfl
@[simp] theorem setQueue_tiles (s : State) (q : Nat) (x : Queue) : (s.setQueue q x).tiles = s.tiles := rfl
@[simp] theorem setQueue_mem (s : State) (q : Nat) (x : Queue) : (s.setQueue q x).mem = s.mem := rfl
@[simp] theorem setQueue_chans (s : State) (q : Nat) (x : Queue) : (s.setQueue q x).chans = s.chans := rfl
@[simp] theorem setQueue_homes (s : State) (q : Nat) (x : Queue) : (s.setQueue q x).homes = s.homes := rfl
@[simp] theorem setQueue_engines (s : State) (q : Nat) (x : Queue) : (s.setQueue q x).engines = s.engines := rfl
@[simp] theorem setQueue_invals (s : State) (q : Nat) (x : Queue) : (s.setQueue q x).invals = s.invals := rfl
@[simp] theorem setQueue_walks (s : State) (q : Nat) (x : Queue) : (s.setQueue q x).walks = s.walks := rfl
@[simp] theorem setQueue_raised (s : State) (q : Nat) (x : Queue) : (s.setQueue q x).raised = s.raised := rfl
@[simp] theorem setQueue_contexts (s : State) (q : Nat) (x : Queue) : (s.setQueue q x).contexts = s.contexts := rfl
@[simp] theorem setQueue_s1root (s : State) (q : Nat) (x : Queue) : (s.setQueue q x).s1root = s.s1root := rfl
@[simp] theorem setQueue_s2root (s : State) (q : Nat) (x : Queue) : (s.setQueue q x).s2root = s.s2root := rfl
@[simp] theorem setQueue_atsRefused (s : State) (q : Nat) (x : Queue) : (s.setQueue q x).atsRefused = s.atsRefused := rfl
@[simp] theorem setQueue_atc (s : State) (q : Nat) (x : Queue) : (s.setQueue q x).atc = s.atc := rfl
@[simp] theorem setQueue_atsDone (s : State) (q : Nat) (x : Queue) : (s.setQueue q x).atsDone = s.atsDone := rfl
@[simp] theorem setQueue_walkers (s : State) (q : Nat) (x : Queue) : (s.setQueue q x).walkers = s.walkers := rfl
@[simp] theorem setQueue_lastPart (s : State) (q : Nat) (x : Queue) : (s.setQueue q x).lastPart = s.lastPart := rfl
@[simp] theorem setQueue_lastAdmit (s : State) (q : Nat) (x : Queue) : (s.setQueue q x).lastAdmit = s.lastAdmit := rfl
@[simp] theorem setQueue_groups (s : State) (q : Nat) (x : Queue) : (s.setQueue q x).groups = s.groups := rfl
@[simp] theorem setQueue_parts (s : State) (q : Nat) (x : Queue) : (s.setQueue q x).parts = s.parts := rfl
@[simp] theorem setQueue_ifaces (s : State) (q : Nat) (x : Queue) : (s.setQueue q x).ifaces = s.ifaces := rfl
@[simp] theorem setQueue_stackTab (s : State) (q : Nat) (x : Queue) : (s.setQueue q x).stackTab = s.stackTab := rfl
@[simp] theorem setQueue_layers (s : State) (q : Nat) (x : Queue) : (s.setQueue q x).layers = s.layers := rfl
@[simp] theorem setQueue_links (s : State) (q : Nat) (x : Queue) : (s.setQueue q x).links = s.links := rfl
@[simp] theorem setQueue_ring (s : State) (q : Nat) (x : Queue) : (s.setQueue q x).ring = s.ring := rfl
@[simp] theorem setQueue_lode (s : State) (q : Nat) (x : Queue) : (s.setQueue q x).lode = s.lode := rfl
@[simp] theorem setQueue_ylim (s : State) (q : Nat) (x : Queue) : (s.setQueue q x).ylim = s.ylim := rfl
@[simp] theorem setQueue_vcs (s : State) (q : Nat) (x : Queue) : (s.setQueue q x).vcs = s.vcs := rfl
@[simp] theorem setQueue_l1gen (s : State) (q : Nat) (x : Queue) : (s.setQueue q x).l1gen = s.l1gen := rfl
@[simp] theorem setQueue_l2 (s : State) (q : Nat) (x : Queue) : (s.setQueue q x).l2 = s.l2 := rfl
@[simp] theorem setQueue_tenants (s : State) (q : Nat) (x : Queue) : (s.setQueue q x).tenants = s.tenants := rfl
@[simp] theorem setQueue_l1 (s : State) (q : Nat) (x : Queue) : (s.setQueue q x).l1 = s.l1 := rfl
@[simp] theorem setQueue_mcPort (s : State) (q : Nat) (x : Queue) : (s.setQueue q x).mcPort = s.mcPort := rfl
@[simp] theorem setQueue_mcStack (s : State) (q : Nat) (x : Queue) : (s.setQueue q x).mcStack = s.mcStack := rfl
@[simp] theorem setQueue_flash (s : State) (q : Nat) (x : Queue) : (s.setQueue q x).flash = s.flash := rfl
@[simp] theorem setQueue_dis (s : State) (q : Nat) (x : Queue) : (s.setQueue q x).dis = s.dis := rfl
@[simp] theorem setQueue_pass (s : State) (q : Nat) (x : Queue) : (s.setQueue q x).pass = s.pass := rfl
@[simp] theorem setQueue_msix (s : State) (q : Nat) (x : Queue) : (s.setQueue q x).msix = s.msix := rfl
@[simp] theorem setQueue_hostDma (s : State) (q : Nat) (x : Queue) : (s.setQueue q x).hostDma = s.hostDma := rfl
@[simp] theorem setQueue_hostReply (s : State) (q : Nat) (x : Queue) : (s.setQueue q x).hostReply = s.hostReply := rfl
@[simp] theorem setQueue_spdmReply (s : State) (q : Nat) (x : Queue) : (s.setQueue q x).spdmReply = s.spdmReply := rfl
@[simp] theorem setQueue_fwEntry (s : State) (q : Nat) (x : Queue) : (s.setQueue q x).fwEntry = s.fwEntry := rfl
@[simp] theorem setQueue_coreReports (s : State) (q : Nat) (x : Queue) : (s.setQueue q x).coreReports = s.coreReports := rfl
@[simp] theorem setQueue_stopped (s : State) (q : Nat) (x : Queue) : (s.setQueue q x).stopped = s.stopped := rfl

@[simp] theorem setPart_fc (s : State) (p : Nat) (x : Partition) : (s.setPart p x).fc = s.fc := rfl
@[simp] theorem setPart_agenda (s : State) (p : Nat) (x : Partition) : (s.setPart p x).agenda = s.agenda := rfl
@[simp] theorem setPart_now (s : State) (p : Nat) (x : Partition) : (s.setPart p x).now = s.now := rfl
@[simp] theorem setPart_issued (s : State) (p : Nat) (x : Partition) : (s.setPart p x).issued = s.issued := rfl
@[simp] theorem setPart_cur (s : State) (p : Nat) (x : Partition) : (s.setPart p x).cur = s.cur := rfl
@[simp] theorem setPart_curTile (s : State) (p : Nat) (x : Partition) : (s.setPart p x).curTile = s.curTile := rfl
@[simp] theorem setPart_curSlot (s : State) (p : Nat) (x : Partition) : (s.setPart p x).curSlot = s.curSlot := rfl
@[simp] theorem setPart_fresh (s : State) (p : Nat) (x : Partition) : (s.setPart p x).fresh = s.fresh := rfl
@[simp] theorem setPart_ids (s : State) (p : Nat) (x : Partition) : (s.setPart p x).ids = s.ids := rfl
@[simp] theorem setPart_threads (s : State) (p : Nat) (x : Partition) : (s.setPart p x).threads = s.threads := rfl
@[simp] theorem setPart_tiles (s : State) (p : Nat) (x : Partition) : (s.setPart p x).tiles = s.tiles := rfl
@[simp] theorem setPart_mem (s : State) (p : Nat) (x : Partition) : (s.setPart p x).mem = s.mem := rfl
@[simp] theorem setPart_chans (s : State) (p : Nat) (x : Partition) : (s.setPart p x).chans = s.chans := rfl
@[simp] theorem setPart_homes (s : State) (p : Nat) (x : Partition) : (s.setPart p x).homes = s.homes := rfl
@[simp] theorem setPart_engines (s : State) (p : Nat) (x : Partition) : (s.setPart p x).engines = s.engines := rfl
@[simp] theorem setPart_invals (s : State) (p : Nat) (x : Partition) : (s.setPart p x).invals = s.invals := rfl
@[simp] theorem setPart_walks (s : State) (p : Nat) (x : Partition) : (s.setPart p x).walks = s.walks := rfl
@[simp] theorem setPart_raised (s : State) (p : Nat) (x : Partition) : (s.setPart p x).raised = s.raised := rfl
@[simp] theorem setPart_contexts (s : State) (p : Nat) (x : Partition) : (s.setPart p x).contexts = s.contexts := rfl
@[simp] theorem setPart_s1root (s : State) (p : Nat) (x : Partition) : (s.setPart p x).s1root = s.s1root := rfl
@[simp] theorem setPart_s2root (s : State) (p : Nat) (x : Partition) : (s.setPart p x).s2root = s.s2root := rfl
@[simp] theorem setPart_atsRefused (s : State) (p : Nat) (x : Partition) : (s.setPart p x).atsRefused = s.atsRefused := rfl
@[simp] theorem setPart_atc (s : State) (p : Nat) (x : Partition) : (s.setPart p x).atc = s.atc := rfl
@[simp] theorem setPart_atsDone (s : State) (p : Nat) (x : Partition) : (s.setPart p x).atsDone = s.atsDone := rfl
@[simp] theorem setPart_walkers (s : State) (p : Nat) (x : Partition) : (s.setPart p x).walkers = s.walkers := rfl
@[simp] theorem setPart_queues (s : State) (p : Nat) (x : Partition) : (s.setPart p x).queues = s.queues := rfl
@[simp] theorem setPart_lastPart (s : State) (p : Nat) (x : Partition) : (s.setPart p x).lastPart = s.lastPart := rfl
@[simp] theorem setPart_lastAdmit (s : State) (p : Nat) (x : Partition) : (s.setPart p x).lastAdmit = s.lastAdmit := rfl
@[simp] theorem setPart_groups (s : State) (p : Nat) (x : Partition) : (s.setPart p x).groups = s.groups := rfl
@[simp] theorem setPart_ifaces (s : State) (p : Nat) (x : Partition) : (s.setPart p x).ifaces = s.ifaces := rfl
@[simp] theorem setPart_stackTab (s : State) (p : Nat) (x : Partition) : (s.setPart p x).stackTab = s.stackTab := rfl
@[simp] theorem setPart_layers (s : State) (p : Nat) (x : Partition) : (s.setPart p x).layers = s.layers := rfl
@[simp] theorem setPart_links (s : State) (p : Nat) (x : Partition) : (s.setPart p x).links = s.links := rfl
@[simp] theorem setPart_ring (s : State) (p : Nat) (x : Partition) : (s.setPart p x).ring = s.ring := rfl
@[simp] theorem setPart_lode (s : State) (p : Nat) (x : Partition) : (s.setPart p x).lode = s.lode := rfl
@[simp] theorem setPart_ylim (s : State) (p : Nat) (x : Partition) : (s.setPart p x).ylim = s.ylim := rfl
@[simp] theorem setPart_vcs (s : State) (p : Nat) (x : Partition) : (s.setPart p x).vcs = s.vcs := rfl
@[simp] theorem setPart_l1gen (s : State) (p : Nat) (x : Partition) : (s.setPart p x).l1gen = s.l1gen := rfl
@[simp] theorem setPart_l2 (s : State) (p : Nat) (x : Partition) : (s.setPart p x).l2 = s.l2 := rfl
@[simp] theorem setPart_tenants (s : State) (p : Nat) (x : Partition) : (s.setPart p x).tenants = s.tenants := rfl
@[simp] theorem setPart_l1 (s : State) (p : Nat) (x : Partition) : (s.setPart p x).l1 = s.l1 := rfl
@[simp] theorem setPart_mcPort (s : State) (p : Nat) (x : Partition) : (s.setPart p x).mcPort = s.mcPort := rfl
@[simp] theorem setPart_mcStack (s : State) (p : Nat) (x : Partition) : (s.setPart p x).mcStack = s.mcStack := rfl
@[simp] theorem setPart_flash (s : State) (p : Nat) (x : Partition) : (s.setPart p x).flash = s.flash := rfl
@[simp] theorem setPart_dis (s : State) (p : Nat) (x : Partition) : (s.setPart p x).dis = s.dis := rfl
@[simp] theorem setPart_pass (s : State) (p : Nat) (x : Partition) : (s.setPart p x).pass = s.pass := rfl
@[simp] theorem setPart_msix (s : State) (p : Nat) (x : Partition) : (s.setPart p x).msix = s.msix := rfl
@[simp] theorem setPart_hostDma (s : State) (p : Nat) (x : Partition) : (s.setPart p x).hostDma = s.hostDma := rfl
@[simp] theorem setPart_hostReply (s : State) (p : Nat) (x : Partition) : (s.setPart p x).hostReply = s.hostReply := rfl
@[simp] theorem setPart_spdmReply (s : State) (p : Nat) (x : Partition) : (s.setPart p x).spdmReply = s.spdmReply := rfl
@[simp] theorem setPart_fwEntry (s : State) (p : Nat) (x : Partition) : (s.setPart p x).fwEntry = s.fwEntry := rfl
@[simp] theorem setPart_coreReports (s : State) (p : Nat) (x : Partition) : (s.setPart p x).coreReports = s.coreReports := rfl
@[simp] theorem setPart_stopped (s : State) (p : Nat) (x : Partition) : (s.setPart p x).stopped = s.stopped := rfl

@[simp] theorem setIface_fc (s : State) (n : Nat) (x : Iface) : (s.setIface n x).fc = s.fc := rfl
@[simp] theorem setIface_agenda (s : State) (n : Nat) (x : Iface) : (s.setIface n x).agenda = s.agenda := rfl
@[simp] theorem setIface_now (s : State) (n : Nat) (x : Iface) : (s.setIface n x).now = s.now := rfl
@[simp] theorem setIface_issued (s : State) (n : Nat) (x : Iface) : (s.setIface n x).issued = s.issued := rfl
@[simp] theorem setIface_cur (s : State) (n : Nat) (x : Iface) : (s.setIface n x).cur = s.cur := rfl
@[simp] theorem setIface_curTile (s : State) (n : Nat) (x : Iface) : (s.setIface n x).curTile = s.curTile := rfl
@[simp] theorem setIface_curSlot (s : State) (n : Nat) (x : Iface) : (s.setIface n x).curSlot = s.curSlot := rfl
@[simp] theorem setIface_fresh (s : State) (n : Nat) (x : Iface) : (s.setIface n x).fresh = s.fresh := rfl
@[simp] theorem setIface_ids (s : State) (n : Nat) (x : Iface) : (s.setIface n x).ids = s.ids := rfl
@[simp] theorem setIface_threads (s : State) (n : Nat) (x : Iface) : (s.setIface n x).threads = s.threads := rfl
@[simp] theorem setIface_tiles (s : State) (n : Nat) (x : Iface) : (s.setIface n x).tiles = s.tiles := rfl
@[simp] theorem setIface_mem (s : State) (n : Nat) (x : Iface) : (s.setIface n x).mem = s.mem := rfl
@[simp] theorem setIface_chans (s : State) (n : Nat) (x : Iface) : (s.setIface n x).chans = s.chans := rfl
@[simp] theorem setIface_homes (s : State) (n : Nat) (x : Iface) : (s.setIface n x).homes = s.homes := rfl
@[simp] theorem setIface_engines (s : State) (n : Nat) (x : Iface) : (s.setIface n x).engines = s.engines := rfl
@[simp] theorem setIface_invals (s : State) (n : Nat) (x : Iface) : (s.setIface n x).invals = s.invals := rfl
@[simp] theorem setIface_walks (s : State) (n : Nat) (x : Iface) : (s.setIface n x).walks = s.walks := rfl
@[simp] theorem setIface_raised (s : State) (n : Nat) (x : Iface) : (s.setIface n x).raised = s.raised := rfl
@[simp] theorem setIface_contexts (s : State) (n : Nat) (x : Iface) : (s.setIface n x).contexts = s.contexts := rfl
@[simp] theorem setIface_s1root (s : State) (n : Nat) (x : Iface) : (s.setIface n x).s1root = s.s1root := rfl
@[simp] theorem setIface_s2root (s : State) (n : Nat) (x : Iface) : (s.setIface n x).s2root = s.s2root := rfl
@[simp] theorem setIface_atsRefused (s : State) (n : Nat) (x : Iface) : (s.setIface n x).atsRefused = s.atsRefused := rfl
@[simp] theorem setIface_atc (s : State) (n : Nat) (x : Iface) : (s.setIface n x).atc = s.atc := rfl
@[simp] theorem setIface_atsDone (s : State) (n : Nat) (x : Iface) : (s.setIface n x).atsDone = s.atsDone := rfl
@[simp] theorem setIface_walkers (s : State) (n : Nat) (x : Iface) : (s.setIface n x).walkers = s.walkers := rfl
@[simp] theorem setIface_queues (s : State) (n : Nat) (x : Iface) : (s.setIface n x).queues = s.queues := rfl
@[simp] theorem setIface_lastPart (s : State) (n : Nat) (x : Iface) : (s.setIface n x).lastPart = s.lastPart := rfl
@[simp] theorem setIface_lastAdmit (s : State) (n : Nat) (x : Iface) : (s.setIface n x).lastAdmit = s.lastAdmit := rfl
@[simp] theorem setIface_groups (s : State) (n : Nat) (x : Iface) : (s.setIface n x).groups = s.groups := rfl
@[simp] theorem setIface_parts (s : State) (n : Nat) (x : Iface) : (s.setIface n x).parts = s.parts := rfl
@[simp] theorem setIface_stackTab (s : State) (n : Nat) (x : Iface) : (s.setIface n x).stackTab = s.stackTab := rfl
@[simp] theorem setIface_layers (s : State) (n : Nat) (x : Iface) : (s.setIface n x).layers = s.layers := rfl
@[simp] theorem setIface_links (s : State) (n : Nat) (x : Iface) : (s.setIface n x).links = s.links := rfl
@[simp] theorem setIface_ring (s : State) (n : Nat) (x : Iface) : (s.setIface n x).ring = s.ring := rfl
@[simp] theorem setIface_lode (s : State) (n : Nat) (x : Iface) : (s.setIface n x).lode = s.lode := rfl
@[simp] theorem setIface_ylim (s : State) (n : Nat) (x : Iface) : (s.setIface n x).ylim = s.ylim := rfl
@[simp] theorem setIface_vcs (s : State) (n : Nat) (x : Iface) : (s.setIface n x).vcs = s.vcs := rfl
@[simp] theorem setIface_l1gen (s : State) (n : Nat) (x : Iface) : (s.setIface n x).l1gen = s.l1gen := rfl
@[simp] theorem setIface_l2 (s : State) (n : Nat) (x : Iface) : (s.setIface n x).l2 = s.l2 := rfl
@[simp] theorem setIface_tenants (s : State) (n : Nat) (x : Iface) : (s.setIface n x).tenants = s.tenants := rfl
@[simp] theorem setIface_l1 (s : State) (n : Nat) (x : Iface) : (s.setIface n x).l1 = s.l1 := rfl
@[simp] theorem setIface_mcPort (s : State) (n : Nat) (x : Iface) : (s.setIface n x).mcPort = s.mcPort := rfl
@[simp] theorem setIface_mcStack (s : State) (n : Nat) (x : Iface) : (s.setIface n x).mcStack = s.mcStack := rfl
@[simp] theorem setIface_flash (s : State) (n : Nat) (x : Iface) : (s.setIface n x).flash = s.flash := rfl
@[simp] theorem setIface_dis (s : State) (n : Nat) (x : Iface) : (s.setIface n x).dis = s.dis := rfl
@[simp] theorem setIface_pass (s : State) (n : Nat) (x : Iface) : (s.setIface n x).pass = s.pass := rfl
@[simp] theorem setIface_msix (s : State) (n : Nat) (x : Iface) : (s.setIface n x).msix = s.msix := rfl
@[simp] theorem setIface_hostDma (s : State) (n : Nat) (x : Iface) : (s.setIface n x).hostDma = s.hostDma := rfl
@[simp] theorem setIface_hostReply (s : State) (n : Nat) (x : Iface) : (s.setIface n x).hostReply = s.hostReply := rfl
@[simp] theorem setIface_spdmReply (s : State) (n : Nat) (x : Iface) : (s.setIface n x).spdmReply = s.spdmReply := rfl
@[simp] theorem setIface_fwEntry (s : State) (n : Nat) (x : Iface) : (s.setIface n x).fwEntry = s.fwEntry := rfl
@[simp] theorem setIface_coreReports (s : State) (n : Nat) (x : Iface) : (s.setIface n x).coreReports = s.coreReports := rfl
@[simp] theorem setIface_stopped (s : State) (n : Nat) (x : Iface) : (s.setIface n x).stopped = s.stopped := rfl

@[simp] theorem setStack_fc (s : State) (k : Nat) (x : Stack) : (s.setStack k x).fc = s.fc := rfl
@[simp] theorem setStack_agenda (s : State) (k : Nat) (x : Stack) : (s.setStack k x).agenda = s.agenda := rfl
@[simp] theorem setStack_now (s : State) (k : Nat) (x : Stack) : (s.setStack k x).now = s.now := rfl
@[simp] theorem setStack_issued (s : State) (k : Nat) (x : Stack) : (s.setStack k x).issued = s.issued := rfl
@[simp] theorem setStack_cur (s : State) (k : Nat) (x : Stack) : (s.setStack k x).cur = s.cur := rfl
@[simp] theorem setStack_curTile (s : State) (k : Nat) (x : Stack) : (s.setStack k x).curTile = s.curTile := rfl
@[simp] theorem setStack_curSlot (s : State) (k : Nat) (x : Stack) : (s.setStack k x).curSlot = s.curSlot := rfl
@[simp] theorem setStack_fresh (s : State) (k : Nat) (x : Stack) : (s.setStack k x).fresh = s.fresh := rfl
@[simp] theorem setStack_ids (s : State) (k : Nat) (x : Stack) : (s.setStack k x).ids = s.ids := rfl
@[simp] theorem setStack_threads (s : State) (k : Nat) (x : Stack) : (s.setStack k x).threads = s.threads := rfl
@[simp] theorem setStack_tiles (s : State) (k : Nat) (x : Stack) : (s.setStack k x).tiles = s.tiles := rfl
@[simp] theorem setStack_mem (s : State) (k : Nat) (x : Stack) : (s.setStack k x).mem = s.mem := rfl
@[simp] theorem setStack_chans (s : State) (k : Nat) (x : Stack) : (s.setStack k x).chans = s.chans := rfl
@[simp] theorem setStack_homes (s : State) (k : Nat) (x : Stack) : (s.setStack k x).homes = s.homes := rfl
@[simp] theorem setStack_engines (s : State) (k : Nat) (x : Stack) : (s.setStack k x).engines = s.engines := rfl
@[simp] theorem setStack_invals (s : State) (k : Nat) (x : Stack) : (s.setStack k x).invals = s.invals := rfl
@[simp] theorem setStack_walks (s : State) (k : Nat) (x : Stack) : (s.setStack k x).walks = s.walks := rfl
@[simp] theorem setStack_raised (s : State) (k : Nat) (x : Stack) : (s.setStack k x).raised = s.raised := rfl
@[simp] theorem setStack_contexts (s : State) (k : Nat) (x : Stack) : (s.setStack k x).contexts = s.contexts := rfl
@[simp] theorem setStack_s1root (s : State) (k : Nat) (x : Stack) : (s.setStack k x).s1root = s.s1root := rfl
@[simp] theorem setStack_s2root (s : State) (k : Nat) (x : Stack) : (s.setStack k x).s2root = s.s2root := rfl
@[simp] theorem setStack_atsRefused (s : State) (k : Nat) (x : Stack) : (s.setStack k x).atsRefused = s.atsRefused := rfl
@[simp] theorem setStack_atc (s : State) (k : Nat) (x : Stack) : (s.setStack k x).atc = s.atc := rfl
@[simp] theorem setStack_atsDone (s : State) (k : Nat) (x : Stack) : (s.setStack k x).atsDone = s.atsDone := rfl
@[simp] theorem setStack_walkers (s : State) (k : Nat) (x : Stack) : (s.setStack k x).walkers = s.walkers := rfl
@[simp] theorem setStack_queues (s : State) (k : Nat) (x : Stack) : (s.setStack k x).queues = s.queues := rfl
@[simp] theorem setStack_lastPart (s : State) (k : Nat) (x : Stack) : (s.setStack k x).lastPart = s.lastPart := rfl
@[simp] theorem setStack_lastAdmit (s : State) (k : Nat) (x : Stack) : (s.setStack k x).lastAdmit = s.lastAdmit := rfl
@[simp] theorem setStack_groups (s : State) (k : Nat) (x : Stack) : (s.setStack k x).groups = s.groups := rfl
@[simp] theorem setStack_parts (s : State) (k : Nat) (x : Stack) : (s.setStack k x).parts = s.parts := rfl
@[simp] theorem setStack_ifaces (s : State) (k : Nat) (x : Stack) : (s.setStack k x).ifaces = s.ifaces := rfl
@[simp] theorem setStack_layers (s : State) (k : Nat) (x : Stack) : (s.setStack k x).layers = s.layers := rfl
@[simp] theorem setStack_links (s : State) (k : Nat) (x : Stack) : (s.setStack k x).links = s.links := rfl
@[simp] theorem setStack_ring (s : State) (k : Nat) (x : Stack) : (s.setStack k x).ring = s.ring := rfl
@[simp] theorem setStack_lode (s : State) (k : Nat) (x : Stack) : (s.setStack k x).lode = s.lode := rfl
@[simp] theorem setStack_ylim (s : State) (k : Nat) (x : Stack) : (s.setStack k x).ylim = s.ylim := rfl
@[simp] theorem setStack_vcs (s : State) (k : Nat) (x : Stack) : (s.setStack k x).vcs = s.vcs := rfl
@[simp] theorem setStack_l1gen (s : State) (k : Nat) (x : Stack) : (s.setStack k x).l1gen = s.l1gen := rfl
@[simp] theorem setStack_l2 (s : State) (k : Nat) (x : Stack) : (s.setStack k x).l2 = s.l2 := rfl
@[simp] theorem setStack_tenants (s : State) (k : Nat) (x : Stack) : (s.setStack k x).tenants = s.tenants := rfl
@[simp] theorem setStack_l1 (s : State) (k : Nat) (x : Stack) : (s.setStack k x).l1 = s.l1 := rfl
@[simp] theorem setStack_mcPort (s : State) (k : Nat) (x : Stack) : (s.setStack k x).mcPort = s.mcPort := rfl
@[simp] theorem setStack_mcStack (s : State) (k : Nat) (x : Stack) : (s.setStack k x).mcStack = s.mcStack := rfl
@[simp] theorem setStack_flash (s : State) (k : Nat) (x : Stack) : (s.setStack k x).flash = s.flash := rfl
@[simp] theorem setStack_dis (s : State) (k : Nat) (x : Stack) : (s.setStack k x).dis = s.dis := rfl
@[simp] theorem setStack_pass (s : State) (k : Nat) (x : Stack) : (s.setStack k x).pass = s.pass := rfl
@[simp] theorem setStack_msix (s : State) (k : Nat) (x : Stack) : (s.setStack k x).msix = s.msix := rfl
@[simp] theorem setStack_hostDma (s : State) (k : Nat) (x : Stack) : (s.setStack k x).hostDma = s.hostDma := rfl
@[simp] theorem setStack_hostReply (s : State) (k : Nat) (x : Stack) : (s.setStack k x).hostReply = s.hostReply := rfl
@[simp] theorem setStack_spdmReply (s : State) (k : Nat) (x : Stack) : (s.setStack k x).spdmReply = s.spdmReply := rfl
@[simp] theorem setStack_fwEntry (s : State) (k : Nat) (x : Stack) : (s.setStack k x).fwEntry = s.fwEntry := rfl
@[simp] theorem setStack_coreReports (s : State) (k : Nat) (x : Stack) : (s.setStack k x).coreReports = s.coreReports := rfl
@[simp] theorem setStack_stopped (s : State) (k : Nat) (x : Stack) : (s.setStack k x).stopped = s.stopped := rfl

@[simp] theorem setLayer_fc (s : State) (l : Nat) (x : Layer) : (s.setLayer l x).fc = s.fc := rfl
@[simp] theorem setLayer_agenda (s : State) (l : Nat) (x : Layer) : (s.setLayer l x).agenda = s.agenda := rfl
@[simp] theorem setLayer_now (s : State) (l : Nat) (x : Layer) : (s.setLayer l x).now = s.now := rfl
@[simp] theorem setLayer_issued (s : State) (l : Nat) (x : Layer) : (s.setLayer l x).issued = s.issued := rfl
@[simp] theorem setLayer_cur (s : State) (l : Nat) (x : Layer) : (s.setLayer l x).cur = s.cur := rfl
@[simp] theorem setLayer_curTile (s : State) (l : Nat) (x : Layer) : (s.setLayer l x).curTile = s.curTile := rfl
@[simp] theorem setLayer_curSlot (s : State) (l : Nat) (x : Layer) : (s.setLayer l x).curSlot = s.curSlot := rfl
@[simp] theorem setLayer_fresh (s : State) (l : Nat) (x : Layer) : (s.setLayer l x).fresh = s.fresh := rfl
@[simp] theorem setLayer_ids (s : State) (l : Nat) (x : Layer) : (s.setLayer l x).ids = s.ids := rfl
@[simp] theorem setLayer_threads (s : State) (l : Nat) (x : Layer) : (s.setLayer l x).threads = s.threads := rfl
@[simp] theorem setLayer_tiles (s : State) (l : Nat) (x : Layer) : (s.setLayer l x).tiles = s.tiles := rfl
@[simp] theorem setLayer_mem (s : State) (l : Nat) (x : Layer) : (s.setLayer l x).mem = s.mem := rfl
@[simp] theorem setLayer_chans (s : State) (l : Nat) (x : Layer) : (s.setLayer l x).chans = s.chans := rfl
@[simp] theorem setLayer_homes (s : State) (l : Nat) (x : Layer) : (s.setLayer l x).homes = s.homes := rfl
@[simp] theorem setLayer_engines (s : State) (l : Nat) (x : Layer) : (s.setLayer l x).engines = s.engines := rfl
@[simp] theorem setLayer_invals (s : State) (l : Nat) (x : Layer) : (s.setLayer l x).invals = s.invals := rfl
@[simp] theorem setLayer_walks (s : State) (l : Nat) (x : Layer) : (s.setLayer l x).walks = s.walks := rfl
@[simp] theorem setLayer_raised (s : State) (l : Nat) (x : Layer) : (s.setLayer l x).raised = s.raised := rfl
@[simp] theorem setLayer_contexts (s : State) (l : Nat) (x : Layer) : (s.setLayer l x).contexts = s.contexts := rfl
@[simp] theorem setLayer_s1root (s : State) (l : Nat) (x : Layer) : (s.setLayer l x).s1root = s.s1root := rfl
@[simp] theorem setLayer_s2root (s : State) (l : Nat) (x : Layer) : (s.setLayer l x).s2root = s.s2root := rfl
@[simp] theorem setLayer_atsRefused (s : State) (l : Nat) (x : Layer) : (s.setLayer l x).atsRefused = s.atsRefused := rfl
@[simp] theorem setLayer_atc (s : State) (l : Nat) (x : Layer) : (s.setLayer l x).atc = s.atc := rfl
@[simp] theorem setLayer_atsDone (s : State) (l : Nat) (x : Layer) : (s.setLayer l x).atsDone = s.atsDone := rfl
@[simp] theorem setLayer_walkers (s : State) (l : Nat) (x : Layer) : (s.setLayer l x).walkers = s.walkers := rfl
@[simp] theorem setLayer_queues (s : State) (l : Nat) (x : Layer) : (s.setLayer l x).queues = s.queues := rfl
@[simp] theorem setLayer_lastPart (s : State) (l : Nat) (x : Layer) : (s.setLayer l x).lastPart = s.lastPart := rfl
@[simp] theorem setLayer_lastAdmit (s : State) (l : Nat) (x : Layer) : (s.setLayer l x).lastAdmit = s.lastAdmit := rfl
@[simp] theorem setLayer_groups (s : State) (l : Nat) (x : Layer) : (s.setLayer l x).groups = s.groups := rfl
@[simp] theorem setLayer_parts (s : State) (l : Nat) (x : Layer) : (s.setLayer l x).parts = s.parts := rfl
@[simp] theorem setLayer_ifaces (s : State) (l : Nat) (x : Layer) : (s.setLayer l x).ifaces = s.ifaces := rfl
@[simp] theorem setLayer_stackTab (s : State) (l : Nat) (x : Layer) : (s.setLayer l x).stackTab = s.stackTab := rfl
@[simp] theorem setLayer_links (s : State) (l : Nat) (x : Layer) : (s.setLayer l x).links = s.links := rfl
@[simp] theorem setLayer_ring (s : State) (l : Nat) (x : Layer) : (s.setLayer l x).ring = s.ring := rfl
@[simp] theorem setLayer_lode (s : State) (l : Nat) (x : Layer) : (s.setLayer l x).lode = s.lode := rfl
@[simp] theorem setLayer_ylim (s : State) (l : Nat) (x : Layer) : (s.setLayer l x).ylim = s.ylim := rfl
@[simp] theorem setLayer_vcs (s : State) (l : Nat) (x : Layer) : (s.setLayer l x).vcs = s.vcs := rfl
@[simp] theorem setLayer_l1gen (s : State) (l : Nat) (x : Layer) : (s.setLayer l x).l1gen = s.l1gen := rfl
@[simp] theorem setLayer_l2 (s : State) (l : Nat) (x : Layer) : (s.setLayer l x).l2 = s.l2 := rfl
@[simp] theorem setLayer_tenants (s : State) (l : Nat) (x : Layer) : (s.setLayer l x).tenants = s.tenants := rfl
@[simp] theorem setLayer_l1 (s : State) (l : Nat) (x : Layer) : (s.setLayer l x).l1 = s.l1 := rfl
@[simp] theorem setLayer_mcPort (s : State) (l : Nat) (x : Layer) : (s.setLayer l x).mcPort = s.mcPort := rfl
@[simp] theorem setLayer_mcStack (s : State) (l : Nat) (x : Layer) : (s.setLayer l x).mcStack = s.mcStack := rfl
@[simp] theorem setLayer_flash (s : State) (l : Nat) (x : Layer) : (s.setLayer l x).flash = s.flash := rfl
@[simp] theorem setLayer_dis (s : State) (l : Nat) (x : Layer) : (s.setLayer l x).dis = s.dis := rfl
@[simp] theorem setLayer_pass (s : State) (l : Nat) (x : Layer) : (s.setLayer l x).pass = s.pass := rfl
@[simp] theorem setLayer_msix (s : State) (l : Nat) (x : Layer) : (s.setLayer l x).msix = s.msix := rfl
@[simp] theorem setLayer_hostDma (s : State) (l : Nat) (x : Layer) : (s.setLayer l x).hostDma = s.hostDma := rfl
@[simp] theorem setLayer_hostReply (s : State) (l : Nat) (x : Layer) : (s.setLayer l x).hostReply = s.hostReply := rfl
@[simp] theorem setLayer_spdmReply (s : State) (l : Nat) (x : Layer) : (s.setLayer l x).spdmReply = s.spdmReply := rfl
@[simp] theorem setLayer_fwEntry (s : State) (l : Nat) (x : Layer) : (s.setLayer l x).fwEntry = s.fwEntry := rfl
@[simp] theorem setLayer_coreReports (s : State) (l : Nat) (x : Layer) : (s.setLayer l x).coreReports = s.coreReports := rfl
@[simp] theorem setLayer_stopped (s : State) (l : Nat) (x : Layer) : (s.setLayer l x).stopped = s.stopped := rfl

@[simp] theorem setLink_fc (s : State) (n : Nat) (x : Link) : (s.setLink n x).fc = s.fc := rfl
@[simp] theorem setLink_agenda (s : State) (n : Nat) (x : Link) : (s.setLink n x).agenda = s.agenda := rfl
@[simp] theorem setLink_now (s : State) (n : Nat) (x : Link) : (s.setLink n x).now = s.now := rfl
@[simp] theorem setLink_issued (s : State) (n : Nat) (x : Link) : (s.setLink n x).issued = s.issued := rfl
@[simp] theorem setLink_cur (s : State) (n : Nat) (x : Link) : (s.setLink n x).cur = s.cur := rfl
@[simp] theorem setLink_curTile (s : State) (n : Nat) (x : Link) : (s.setLink n x).curTile = s.curTile := rfl
@[simp] theorem setLink_curSlot (s : State) (n : Nat) (x : Link) : (s.setLink n x).curSlot = s.curSlot := rfl
@[simp] theorem setLink_fresh (s : State) (n : Nat) (x : Link) : (s.setLink n x).fresh = s.fresh := rfl
@[simp] theorem setLink_ids (s : State) (n : Nat) (x : Link) : (s.setLink n x).ids = s.ids := rfl
@[simp] theorem setLink_threads (s : State) (n : Nat) (x : Link) : (s.setLink n x).threads = s.threads := rfl
@[simp] theorem setLink_tiles (s : State) (n : Nat) (x : Link) : (s.setLink n x).tiles = s.tiles := rfl
@[simp] theorem setLink_mem (s : State) (n : Nat) (x : Link) : (s.setLink n x).mem = s.mem := rfl
@[simp] theorem setLink_chans (s : State) (n : Nat) (x : Link) : (s.setLink n x).chans = s.chans := rfl
@[simp] theorem setLink_homes (s : State) (n : Nat) (x : Link) : (s.setLink n x).homes = s.homes := rfl
@[simp] theorem setLink_engines (s : State) (n : Nat) (x : Link) : (s.setLink n x).engines = s.engines := rfl
@[simp] theorem setLink_invals (s : State) (n : Nat) (x : Link) : (s.setLink n x).invals = s.invals := rfl
@[simp] theorem setLink_walks (s : State) (n : Nat) (x : Link) : (s.setLink n x).walks = s.walks := rfl
@[simp] theorem setLink_raised (s : State) (n : Nat) (x : Link) : (s.setLink n x).raised = s.raised := rfl
@[simp] theorem setLink_contexts (s : State) (n : Nat) (x : Link) : (s.setLink n x).contexts = s.contexts := rfl
@[simp] theorem setLink_s1root (s : State) (n : Nat) (x : Link) : (s.setLink n x).s1root = s.s1root := rfl
@[simp] theorem setLink_s2root (s : State) (n : Nat) (x : Link) : (s.setLink n x).s2root = s.s2root := rfl
@[simp] theorem setLink_atsRefused (s : State) (n : Nat) (x : Link) : (s.setLink n x).atsRefused = s.atsRefused := rfl
@[simp] theorem setLink_atc (s : State) (n : Nat) (x : Link) : (s.setLink n x).atc = s.atc := rfl
@[simp] theorem setLink_atsDone (s : State) (n : Nat) (x : Link) : (s.setLink n x).atsDone = s.atsDone := rfl
@[simp] theorem setLink_walkers (s : State) (n : Nat) (x : Link) : (s.setLink n x).walkers = s.walkers := rfl
@[simp] theorem setLink_queues (s : State) (n : Nat) (x : Link) : (s.setLink n x).queues = s.queues := rfl
@[simp] theorem setLink_lastPart (s : State) (n : Nat) (x : Link) : (s.setLink n x).lastPart = s.lastPart := rfl
@[simp] theorem setLink_lastAdmit (s : State) (n : Nat) (x : Link) : (s.setLink n x).lastAdmit = s.lastAdmit := rfl
@[simp] theorem setLink_groups (s : State) (n : Nat) (x : Link) : (s.setLink n x).groups = s.groups := rfl
@[simp] theorem setLink_parts (s : State) (n : Nat) (x : Link) : (s.setLink n x).parts = s.parts := rfl
@[simp] theorem setLink_ifaces (s : State) (n : Nat) (x : Link) : (s.setLink n x).ifaces = s.ifaces := rfl
@[simp] theorem setLink_stackTab (s : State) (n : Nat) (x : Link) : (s.setLink n x).stackTab = s.stackTab := rfl
@[simp] theorem setLink_layers (s : State) (n : Nat) (x : Link) : (s.setLink n x).layers = s.layers := rfl
@[simp] theorem setLink_ring (s : State) (n : Nat) (x : Link) : (s.setLink n x).ring = s.ring := rfl
@[simp] theorem setLink_lode (s : State) (n : Nat) (x : Link) : (s.setLink n x).lode = s.lode := rfl
@[simp] theorem setLink_ylim (s : State) (n : Nat) (x : Link) : (s.setLink n x).ylim = s.ylim := rfl
@[simp] theorem setLink_vcs (s : State) (n : Nat) (x : Link) : (s.setLink n x).vcs = s.vcs := rfl
@[simp] theorem setLink_l1gen (s : State) (n : Nat) (x : Link) : (s.setLink n x).l1gen = s.l1gen := rfl
@[simp] theorem setLink_l2 (s : State) (n : Nat) (x : Link) : (s.setLink n x).l2 = s.l2 := rfl
@[simp] theorem setLink_tenants (s : State) (n : Nat) (x : Link) : (s.setLink n x).tenants = s.tenants := rfl
@[simp] theorem setLink_l1 (s : State) (n : Nat) (x : Link) : (s.setLink n x).l1 = s.l1 := rfl
@[simp] theorem setLink_mcPort (s : State) (n : Nat) (x : Link) : (s.setLink n x).mcPort = s.mcPort := rfl
@[simp] theorem setLink_mcStack (s : State) (n : Nat) (x : Link) : (s.setLink n x).mcStack = s.mcStack := rfl
@[simp] theorem setLink_flash (s : State) (n : Nat) (x : Link) : (s.setLink n x).flash = s.flash := rfl
@[simp] theorem setLink_dis (s : State) (n : Nat) (x : Link) : (s.setLink n x).dis = s.dis := rfl
@[simp] theorem setLink_pass (s : State) (n : Nat) (x : Link) : (s.setLink n x).pass = s.pass := rfl
@[simp] theorem setLink_msix (s : State) (n : Nat) (x : Link) : (s.setLink n x).msix = s.msix := rfl
@[simp] theorem setLink_hostDma (s : State) (n : Nat) (x : Link) : (s.setLink n x).hostDma = s.hostDma := rfl
@[simp] theorem setLink_hostReply (s : State) (n : Nat) (x : Link) : (s.setLink n x).hostReply = s.hostReply := rfl
@[simp] theorem setLink_spdmReply (s : State) (n : Nat) (x : Link) : (s.setLink n x).spdmReply = s.spdmReply := rfl
@[simp] theorem setLink_fwEntry (s : State) (n : Nat) (x : Link) : (s.setLink n x).fwEntry = s.fwEntry := rfl
@[simp] theorem setLink_coreReports (s : State) (n : Nat) (x : Link) : (s.setLink n x).coreReports = s.coreReports := rfl
@[simp] theorem setLink_stopped (s : State) (n : Nat) (x : Link) : (s.setLink n x).stopped = s.stopped := rfl

@[simp] theorem setChan_fc (s : State) (c : ChanId) (x : Chan) : (s.setChan c x).fc = s.fc := rfl
@[simp] theorem setChan_agenda (s : State) (c : ChanId) (x : Chan) : (s.setChan c x).agenda = s.agenda := rfl
@[simp] theorem setChan_now (s : State) (c : ChanId) (x : Chan) : (s.setChan c x).now = s.now := rfl
@[simp] theorem setChan_issued (s : State) (c : ChanId) (x : Chan) : (s.setChan c x).issued = s.issued := rfl
@[simp] theorem setChan_cur (s : State) (c : ChanId) (x : Chan) : (s.setChan c x).cur = s.cur := rfl
@[simp] theorem setChan_curTile (s : State) (c : ChanId) (x : Chan) : (s.setChan c x).curTile = s.curTile := rfl
@[simp] theorem setChan_curSlot (s : State) (c : ChanId) (x : Chan) : (s.setChan c x).curSlot = s.curSlot := rfl
@[simp] theorem setChan_fresh (s : State) (c : ChanId) (x : Chan) : (s.setChan c x).fresh = s.fresh := rfl
@[simp] theorem setChan_ids (s : State) (c : ChanId) (x : Chan) : (s.setChan c x).ids = s.ids := rfl
@[simp] theorem setChan_threads (s : State) (c : ChanId) (x : Chan) : (s.setChan c x).threads = s.threads := rfl
@[simp] theorem setChan_tiles (s : State) (c : ChanId) (x : Chan) : (s.setChan c x).tiles = s.tiles := rfl
@[simp] theorem setChan_mem (s : State) (c : ChanId) (x : Chan) : (s.setChan c x).mem = s.mem := rfl
@[simp] theorem setChan_homes (s : State) (c : ChanId) (x : Chan) : (s.setChan c x).homes = s.homes := rfl
@[simp] theorem setChan_engines (s : State) (c : ChanId) (x : Chan) : (s.setChan c x).engines = s.engines := rfl
@[simp] theorem setChan_invals (s : State) (c : ChanId) (x : Chan) : (s.setChan c x).invals = s.invals := rfl
@[simp] theorem setChan_walks (s : State) (c : ChanId) (x : Chan) : (s.setChan c x).walks = s.walks := rfl
@[simp] theorem setChan_raised (s : State) (c : ChanId) (x : Chan) : (s.setChan c x).raised = s.raised := rfl
@[simp] theorem setChan_contexts (s : State) (c : ChanId) (x : Chan) : (s.setChan c x).contexts = s.contexts := rfl
@[simp] theorem setChan_s1root (s : State) (c : ChanId) (x : Chan) : (s.setChan c x).s1root = s.s1root := rfl
@[simp] theorem setChan_s2root (s : State) (c : ChanId) (x : Chan) : (s.setChan c x).s2root = s.s2root := rfl
@[simp] theorem setChan_atsRefused (s : State) (c : ChanId) (x : Chan) : (s.setChan c x).atsRefused = s.atsRefused := rfl
@[simp] theorem setChan_atc (s : State) (c : ChanId) (x : Chan) : (s.setChan c x).atc = s.atc := rfl
@[simp] theorem setChan_atsDone (s : State) (c : ChanId) (x : Chan) : (s.setChan c x).atsDone = s.atsDone := rfl
@[simp] theorem setChan_walkers (s : State) (c : ChanId) (x : Chan) : (s.setChan c x).walkers = s.walkers := rfl
@[simp] theorem setChan_queues (s : State) (c : ChanId) (x : Chan) : (s.setChan c x).queues = s.queues := rfl
@[simp] theorem setChan_lastPart (s : State) (c : ChanId) (x : Chan) : (s.setChan c x).lastPart = s.lastPart := rfl
@[simp] theorem setChan_lastAdmit (s : State) (c : ChanId) (x : Chan) : (s.setChan c x).lastAdmit = s.lastAdmit := rfl
@[simp] theorem setChan_groups (s : State) (c : ChanId) (x : Chan) : (s.setChan c x).groups = s.groups := rfl
@[simp] theorem setChan_parts (s : State) (c : ChanId) (x : Chan) : (s.setChan c x).parts = s.parts := rfl
@[simp] theorem setChan_ifaces (s : State) (c : ChanId) (x : Chan) : (s.setChan c x).ifaces = s.ifaces := rfl
@[simp] theorem setChan_stackTab (s : State) (c : ChanId) (x : Chan) : (s.setChan c x).stackTab = s.stackTab := rfl
@[simp] theorem setChan_layers (s : State) (c : ChanId) (x : Chan) : (s.setChan c x).layers = s.layers := rfl
@[simp] theorem setChan_links (s : State) (c : ChanId) (x : Chan) : (s.setChan c x).links = s.links := rfl
@[simp] theorem setChan_ring (s : State) (c : ChanId) (x : Chan) : (s.setChan c x).ring = s.ring := rfl
@[simp] theorem setChan_lode (s : State) (c : ChanId) (x : Chan) : (s.setChan c x).lode = s.lode := rfl
@[simp] theorem setChan_ylim (s : State) (c : ChanId) (x : Chan) : (s.setChan c x).ylim = s.ylim := rfl
@[simp] theorem setChan_vcs (s : State) (c : ChanId) (x : Chan) : (s.setChan c x).vcs = s.vcs := rfl
@[simp] theorem setChan_l1gen (s : State) (c : ChanId) (x : Chan) : (s.setChan c x).l1gen = s.l1gen := rfl
@[simp] theorem setChan_l2 (s : State) (c : ChanId) (x : Chan) : (s.setChan c x).l2 = s.l2 := rfl
@[simp] theorem setChan_tenants (s : State) (c : ChanId) (x : Chan) : (s.setChan c x).tenants = s.tenants := rfl
@[simp] theorem setChan_l1 (s : State) (c : ChanId) (x : Chan) : (s.setChan c x).l1 = s.l1 := rfl
@[simp] theorem setChan_mcPort (s : State) (c : ChanId) (x : Chan) : (s.setChan c x).mcPort = s.mcPort := rfl
@[simp] theorem setChan_mcStack (s : State) (c : ChanId) (x : Chan) : (s.setChan c x).mcStack = s.mcStack := rfl
@[simp] theorem setChan_flash (s : State) (c : ChanId) (x : Chan) : (s.setChan c x).flash = s.flash := rfl
@[simp] theorem setChan_dis (s : State) (c : ChanId) (x : Chan) : (s.setChan c x).dis = s.dis := rfl
@[simp] theorem setChan_pass (s : State) (c : ChanId) (x : Chan) : (s.setChan c x).pass = s.pass := rfl
@[simp] theorem setChan_msix (s : State) (c : ChanId) (x : Chan) : (s.setChan c x).msix = s.msix := rfl
@[simp] theorem setChan_hostDma (s : State) (c : ChanId) (x : Chan) : (s.setChan c x).hostDma = s.hostDma := rfl
@[simp] theorem setChan_hostReply (s : State) (c : ChanId) (x : Chan) : (s.setChan c x).hostReply = s.hostReply := rfl
@[simp] theorem setChan_spdmReply (s : State) (c : ChanId) (x : Chan) : (s.setChan c x).spdmReply = s.spdmReply := rfl
@[simp] theorem setChan_fwEntry (s : State) (c : ChanId) (x : Chan) : (s.setChan c x).fwEntry = s.fwEntry := rfl
@[simp] theorem setChan_coreReports (s : State) (c : ChanId) (x : Chan) : (s.setChan c x).coreReports = s.coreReports := rfl
@[simp] theorem setChan_stopped (s : State) (c : ChanId) (x : Chan) : (s.setChan c x).stopped = s.stopped := rfl

@[simp] theorem setHome_fc (s : State) (h : HomeId) (x : Home) : (s.setHome h x).fc = s.fc := rfl
@[simp] theorem setHome_agenda (s : State) (h : HomeId) (x : Home) : (s.setHome h x).agenda = s.agenda := rfl
@[simp] theorem setHome_now (s : State) (h : HomeId) (x : Home) : (s.setHome h x).now = s.now := rfl
@[simp] theorem setHome_issued (s : State) (h : HomeId) (x : Home) : (s.setHome h x).issued = s.issued := rfl
@[simp] theorem setHome_cur (s : State) (h : HomeId) (x : Home) : (s.setHome h x).cur = s.cur := rfl
@[simp] theorem setHome_curTile (s : State) (h : HomeId) (x : Home) : (s.setHome h x).curTile = s.curTile := rfl
@[simp] theorem setHome_curSlot (s : State) (h : HomeId) (x : Home) : (s.setHome h x).curSlot = s.curSlot := rfl
@[simp] theorem setHome_fresh (s : State) (h : HomeId) (x : Home) : (s.setHome h x).fresh = s.fresh := rfl
@[simp] theorem setHome_ids (s : State) (h : HomeId) (x : Home) : (s.setHome h x).ids = s.ids := rfl
@[simp] theorem setHome_threads (s : State) (h : HomeId) (x : Home) : (s.setHome h x).threads = s.threads := rfl
@[simp] theorem setHome_tiles (s : State) (h : HomeId) (x : Home) : (s.setHome h x).tiles = s.tiles := rfl
@[simp] theorem setHome_mem (s : State) (h : HomeId) (x : Home) : (s.setHome h x).mem = s.mem := rfl
@[simp] theorem setHome_chans (s : State) (h : HomeId) (x : Home) : (s.setHome h x).chans = s.chans := rfl
@[simp] theorem setHome_engines (s : State) (h : HomeId) (x : Home) : (s.setHome h x).engines = s.engines := rfl
@[simp] theorem setHome_invals (s : State) (h : HomeId) (x : Home) : (s.setHome h x).invals = s.invals := rfl
@[simp] theorem setHome_walks (s : State) (h : HomeId) (x : Home) : (s.setHome h x).walks = s.walks := rfl
@[simp] theorem setHome_raised (s : State) (h : HomeId) (x : Home) : (s.setHome h x).raised = s.raised := rfl
@[simp] theorem setHome_contexts (s : State) (h : HomeId) (x : Home) : (s.setHome h x).contexts = s.contexts := rfl
@[simp] theorem setHome_s1root (s : State) (h : HomeId) (x : Home) : (s.setHome h x).s1root = s.s1root := rfl
@[simp] theorem setHome_s2root (s : State) (h : HomeId) (x : Home) : (s.setHome h x).s2root = s.s2root := rfl
@[simp] theorem setHome_atsRefused (s : State) (h : HomeId) (x : Home) : (s.setHome h x).atsRefused = s.atsRefused := rfl
@[simp] theorem setHome_atc (s : State) (h : HomeId) (x : Home) : (s.setHome h x).atc = s.atc := rfl
@[simp] theorem setHome_atsDone (s : State) (h : HomeId) (x : Home) : (s.setHome h x).atsDone = s.atsDone := rfl
@[simp] theorem setHome_walkers (s : State) (h : HomeId) (x : Home) : (s.setHome h x).walkers = s.walkers := rfl
@[simp] theorem setHome_queues (s : State) (h : HomeId) (x : Home) : (s.setHome h x).queues = s.queues := rfl
@[simp] theorem setHome_lastPart (s : State) (h : HomeId) (x : Home) : (s.setHome h x).lastPart = s.lastPart := rfl
@[simp] theorem setHome_lastAdmit (s : State) (h : HomeId) (x : Home) : (s.setHome h x).lastAdmit = s.lastAdmit := rfl
@[simp] theorem setHome_groups (s : State) (h : HomeId) (x : Home) : (s.setHome h x).groups = s.groups := rfl
@[simp] theorem setHome_parts (s : State) (h : HomeId) (x : Home) : (s.setHome h x).parts = s.parts := rfl
@[simp] theorem setHome_ifaces (s : State) (h : HomeId) (x : Home) : (s.setHome h x).ifaces = s.ifaces := rfl
@[simp] theorem setHome_stackTab (s : State) (h : HomeId) (x : Home) : (s.setHome h x).stackTab = s.stackTab := rfl
@[simp] theorem setHome_layers (s : State) (h : HomeId) (x : Home) : (s.setHome h x).layers = s.layers := rfl
@[simp] theorem setHome_links (s : State) (h : HomeId) (x : Home) : (s.setHome h x).links = s.links := rfl
@[simp] theorem setHome_ring (s : State) (h : HomeId) (x : Home) : (s.setHome h x).ring = s.ring := rfl
@[simp] theorem setHome_lode (s : State) (h : HomeId) (x : Home) : (s.setHome h x).lode = s.lode := rfl
@[simp] theorem setHome_ylim (s : State) (h : HomeId) (x : Home) : (s.setHome h x).ylim = s.ylim := rfl
@[simp] theorem setHome_vcs (s : State) (h : HomeId) (x : Home) : (s.setHome h x).vcs = s.vcs := rfl
@[simp] theorem setHome_l1gen (s : State) (h : HomeId) (x : Home) : (s.setHome h x).l1gen = s.l1gen := rfl
@[simp] theorem setHome_l2 (s : State) (h : HomeId) (x : Home) : (s.setHome h x).l2 = s.l2 := rfl
@[simp] theorem setHome_tenants (s : State) (h : HomeId) (x : Home) : (s.setHome h x).tenants = s.tenants := rfl
@[simp] theorem setHome_l1 (s : State) (h : HomeId) (x : Home) : (s.setHome h x).l1 = s.l1 := rfl
@[simp] theorem setHome_mcPort (s : State) (h : HomeId) (x : Home) : (s.setHome h x).mcPort = s.mcPort := rfl
@[simp] theorem setHome_mcStack (s : State) (h : HomeId) (x : Home) : (s.setHome h x).mcStack = s.mcStack := rfl
@[simp] theorem setHome_flash (s : State) (h : HomeId) (x : Home) : (s.setHome h x).flash = s.flash := rfl
@[simp] theorem setHome_dis (s : State) (h : HomeId) (x : Home) : (s.setHome h x).dis = s.dis := rfl
@[simp] theorem setHome_pass (s : State) (h : HomeId) (x : Home) : (s.setHome h x).pass = s.pass := rfl
@[simp] theorem setHome_msix (s : State) (h : HomeId) (x : Home) : (s.setHome h x).msix = s.msix := rfl
@[simp] theorem setHome_hostDma (s : State) (h : HomeId) (x : Home) : (s.setHome h x).hostDma = s.hostDma := rfl
@[simp] theorem setHome_hostReply (s : State) (h : HomeId) (x : Home) : (s.setHome h x).hostReply = s.hostReply := rfl
@[simp] theorem setHome_spdmReply (s : State) (h : HomeId) (x : Home) : (s.setHome h x).spdmReply = s.spdmReply := rfl
@[simp] theorem setHome_fwEntry (s : State) (h : HomeId) (x : Home) : (s.setHome h x).fwEntry = s.fwEntry := rfl
@[simp] theorem setHome_coreReports (s : State) (h : HomeId) (x : Home) : (s.setHome h x).coreReports = s.coreReports := rfl
@[simp] theorem setHome_stopped (s : State) (h : HomeId) (x : Home) : (s.setHome h x).stopped = s.stopped := rfl

@[simp] theorem post_fc (s : State) (i : Instr) : (s.post i).fc = s.fc := rfl
@[simp] theorem post_now (s : State) (i : Instr) : (s.post i).now = s.now := rfl
@[simp] theorem post_issued (s : State) (i : Instr) : (s.post i).issued = s.issued := rfl
@[simp] theorem post_cur (s : State) (i : Instr) : (s.post i).cur = s.cur := rfl
@[simp] theorem post_curTile (s : State) (i : Instr) : (s.post i).curTile = s.curTile := rfl
@[simp] theorem post_curSlot (s : State) (i : Instr) : (s.post i).curSlot = s.curSlot := rfl
@[simp] theorem post_fresh (s : State) (i : Instr) : (s.post i).fresh = s.fresh := rfl
@[simp] theorem post_ids (s : State) (i : Instr) : (s.post i).ids = s.ids := rfl
@[simp] theorem post_threads (s : State) (i : Instr) : (s.post i).threads = s.threads := rfl
@[simp] theorem post_tiles (s : State) (i : Instr) : (s.post i).tiles = s.tiles := rfl
@[simp] theorem post_mem (s : State) (i : Instr) : (s.post i).mem = s.mem := rfl
@[simp] theorem post_chans (s : State) (i : Instr) : (s.post i).chans = s.chans := rfl
@[simp] theorem post_homes (s : State) (i : Instr) : (s.post i).homes = s.homes := rfl
@[simp] theorem post_engines (s : State) (i : Instr) : (s.post i).engines = s.engines := rfl
@[simp] theorem post_invals (s : State) (i : Instr) : (s.post i).invals = s.invals := rfl
@[simp] theorem post_walks (s : State) (i : Instr) : (s.post i).walks = s.walks := rfl
@[simp] theorem post_raised (s : State) (i : Instr) : (s.post i).raised = s.raised := rfl
@[simp] theorem post_contexts (s : State) (i : Instr) : (s.post i).contexts = s.contexts := rfl
@[simp] theorem post_s1root (s : State) (i : Instr) : (s.post i).s1root = s.s1root := rfl
@[simp] theorem post_s2root (s : State) (i : Instr) : (s.post i).s2root = s.s2root := rfl
@[simp] theorem post_atsRefused (s : State) (i : Instr) : (s.post i).atsRefused = s.atsRefused := rfl
@[simp] theorem post_atc (s : State) (i : Instr) : (s.post i).atc = s.atc := rfl
@[simp] theorem post_atsDone (s : State) (i : Instr) : (s.post i).atsDone = s.atsDone := rfl
@[simp] theorem post_walkers (s : State) (i : Instr) : (s.post i).walkers = s.walkers := rfl
@[simp] theorem post_queues (s : State) (i : Instr) : (s.post i).queues = s.queues := rfl
@[simp] theorem post_lastPart (s : State) (i : Instr) : (s.post i).lastPart = s.lastPart := rfl
@[simp] theorem post_lastAdmit (s : State) (i : Instr) : (s.post i).lastAdmit = s.lastAdmit := rfl
@[simp] theorem post_groups (s : State) (i : Instr) : (s.post i).groups = s.groups := rfl
@[simp] theorem post_parts (s : State) (i : Instr) : (s.post i).parts = s.parts := rfl
@[simp] theorem post_ifaces (s : State) (i : Instr) : (s.post i).ifaces = s.ifaces := rfl
@[simp] theorem post_stackTab (s : State) (i : Instr) : (s.post i).stackTab = s.stackTab := rfl
@[simp] theorem post_layers (s : State) (i : Instr) : (s.post i).layers = s.layers := rfl
@[simp] theorem post_links (s : State) (i : Instr) : (s.post i).links = s.links := rfl
@[simp] theorem post_ring (s : State) (i : Instr) : (s.post i).ring = s.ring := rfl
@[simp] theorem post_lode (s : State) (i : Instr) : (s.post i).lode = s.lode := rfl
@[simp] theorem post_ylim (s : State) (i : Instr) : (s.post i).ylim = s.ylim := rfl
@[simp] theorem post_vcs (s : State) (i : Instr) : (s.post i).vcs = s.vcs := rfl
@[simp] theorem post_l1gen (s : State) (i : Instr) : (s.post i).l1gen = s.l1gen := rfl
@[simp] theorem post_l2 (s : State) (i : Instr) : (s.post i).l2 = s.l2 := rfl
@[simp] theorem post_tenants (s : State) (i : Instr) : (s.post i).tenants = s.tenants := rfl
@[simp] theorem post_l1 (s : State) (i : Instr) : (s.post i).l1 = s.l1 := rfl
@[simp] theorem post_mcPort (s : State) (i : Instr) : (s.post i).mcPort = s.mcPort := rfl
@[simp] theorem post_mcStack (s : State) (i : Instr) : (s.post i).mcStack = s.mcStack := rfl
@[simp] theorem post_flash (s : State) (i : Instr) : (s.post i).flash = s.flash := rfl
@[simp] theorem post_dis (s : State) (i : Instr) : (s.post i).dis = s.dis := rfl
@[simp] theorem post_pass (s : State) (i : Instr) : (s.post i).pass = s.pass := rfl
@[simp] theorem post_msix (s : State) (i : Instr) : (s.post i).msix = s.msix := rfl
@[simp] theorem post_hostDma (s : State) (i : Instr) : (s.post i).hostDma = s.hostDma := rfl
@[simp] theorem post_hostReply (s : State) (i : Instr) : (s.post i).hostReply = s.hostReply := rfl
@[simp] theorem post_spdmReply (s : State) (i : Instr) : (s.post i).spdmReply = s.spdmReply := rfl
@[simp] theorem post_fwEntry (s : State) (i : Instr) : (s.post i).fwEntry = s.fwEntry := rfl
@[simp] theorem post_coreReports (s : State) (i : Instr) : (s.post i).coreReports = s.coreReports := rfl
@[simp] theorem post_stopped (s : State) (i : Instr) : (s.post i).stopped = s.stopped := rfl

@[simp] theorem used_fc (s : State) : (s.used).fc = s.fc := rfl
@[simp] theorem used_agenda (s : State) : (s.used).agenda = s.agenda := rfl
@[simp] theorem used_now (s : State) : (s.used).now = s.now := rfl
@[simp] theorem used_issued (s : State) : (s.used).issued = s.issued := rfl
@[simp] theorem used_cur (s : State) : (s.used).cur = s.cur := rfl
@[simp] theorem used_curTile (s : State) : (s.used).curTile = s.curTile := rfl
@[simp] theorem used_curSlot (s : State) : (s.used).curSlot = s.curSlot := rfl
@[simp] theorem used_ids (s : State) : (s.used).ids = s.ids := rfl
@[simp] theorem used_threads (s : State) : (s.used).threads = s.threads := rfl
@[simp] theorem used_tiles (s : State) : (s.used).tiles = s.tiles := rfl
@[simp] theorem used_mem (s : State) : (s.used).mem = s.mem := rfl
@[simp] theorem used_chans (s : State) : (s.used).chans = s.chans := rfl
@[simp] theorem used_homes (s : State) : (s.used).homes = s.homes := rfl
@[simp] theorem used_engines (s : State) : (s.used).engines = s.engines := rfl
@[simp] theorem used_invals (s : State) : (s.used).invals = s.invals := rfl
@[simp] theorem used_walks (s : State) : (s.used).walks = s.walks := rfl
@[simp] theorem used_raised (s : State) : (s.used).raised = s.raised := rfl
@[simp] theorem used_contexts (s : State) : (s.used).contexts = s.contexts := rfl
@[simp] theorem used_s1root (s : State) : (s.used).s1root = s.s1root := rfl
@[simp] theorem used_s2root (s : State) : (s.used).s2root = s.s2root := rfl
@[simp] theorem used_atsRefused (s : State) : (s.used).atsRefused = s.atsRefused := rfl
@[simp] theorem used_atc (s : State) : (s.used).atc = s.atc := rfl
@[simp] theorem used_atsDone (s : State) : (s.used).atsDone = s.atsDone := rfl
@[simp] theorem used_walkers (s : State) : (s.used).walkers = s.walkers := rfl
@[simp] theorem used_queues (s : State) : (s.used).queues = s.queues := rfl
@[simp] theorem used_lastPart (s : State) : (s.used).lastPart = s.lastPart := rfl
@[simp] theorem used_lastAdmit (s : State) : (s.used).lastAdmit = s.lastAdmit := rfl
@[simp] theorem used_groups (s : State) : (s.used).groups = s.groups := rfl
@[simp] theorem used_parts (s : State) : (s.used).parts = s.parts := rfl
@[simp] theorem used_ifaces (s : State) : (s.used).ifaces = s.ifaces := rfl
@[simp] theorem used_stackTab (s : State) : (s.used).stackTab = s.stackTab := rfl
@[simp] theorem used_layers (s : State) : (s.used).layers = s.layers := rfl
@[simp] theorem used_links (s : State) : (s.used).links = s.links := rfl
@[simp] theorem used_ring (s : State) : (s.used).ring = s.ring := rfl
@[simp] theorem used_lode (s : State) : (s.used).lode = s.lode := rfl
@[simp] theorem used_ylim (s : State) : (s.used).ylim = s.ylim := rfl
@[simp] theorem used_vcs (s : State) : (s.used).vcs = s.vcs := rfl
@[simp] theorem used_l1gen (s : State) : (s.used).l1gen = s.l1gen := rfl
@[simp] theorem used_l2 (s : State) : (s.used).l2 = s.l2 := rfl
@[simp] theorem used_tenants (s : State) : (s.used).tenants = s.tenants := rfl
@[simp] theorem used_l1 (s : State) : (s.used).l1 = s.l1 := rfl
@[simp] theorem used_mcPort (s : State) : (s.used).mcPort = s.mcPort := rfl
@[simp] theorem used_mcStack (s : State) : (s.used).mcStack = s.mcStack := rfl
@[simp] theorem used_flash (s : State) : (s.used).flash = s.flash := rfl
@[simp] theorem used_dis (s : State) : (s.used).dis = s.dis := rfl
@[simp] theorem used_pass (s : State) : (s.used).pass = s.pass := rfl
@[simp] theorem used_msix (s : State) : (s.used).msix = s.msix := rfl
@[simp] theorem used_hostDma (s : State) : (s.used).hostDma = s.hostDma := rfl
@[simp] theorem used_hostReply (s : State) : (s.used).hostReply = s.hostReply := rfl
@[simp] theorem used_spdmReply (s : State) : (s.used).spdmReply = s.spdmReply := rfl
@[simp] theorem used_fwEntry (s : State) : (s.used).fwEntry = s.fwEntry := rfl
@[simp] theorem used_coreReports (s : State) : (s.used).coreReports = s.coreReports := rfl
@[simp] theorem used_stopped (s : State) : (s.used).stopped = s.stopped := rfl

@[simp] theorem setMemory_fc (s : State) (m : Memory) : (s.setMemory m).fc = s.fc := rfl
@[simp] theorem setMemory_agenda (s : State) (m : Memory) : (s.setMemory m).agenda = s.agenda := rfl
@[simp] theorem setMemory_now (s : State) (m : Memory) : (s.setMemory m).now = s.now := rfl
@[simp] theorem setMemory_issued (s : State) (m : Memory) : (s.setMemory m).issued = s.issued := rfl
@[simp] theorem setMemory_cur (s : State) (m : Memory) : (s.setMemory m).cur = s.cur := rfl
@[simp] theorem setMemory_curTile (s : State) (m : Memory) : (s.setMemory m).curTile = s.curTile := rfl
@[simp] theorem setMemory_curSlot (s : State) (m : Memory) : (s.setMemory m).curSlot = s.curSlot := rfl
@[simp] theorem setMemory_fresh (s : State) (m : Memory) : (s.setMemory m).fresh = s.fresh := rfl
@[simp] theorem setMemory_ids (s : State) (m : Memory) : (s.setMemory m).ids = s.ids := rfl
@[simp] theorem setMemory_threads (s : State) (m : Memory) : (s.setMemory m).threads = s.threads := rfl
@[simp] theorem setMemory_tiles (s : State) (m : Memory) : (s.setMemory m).tiles = s.tiles := rfl
@[simp] theorem setMemory_chans (s : State) (m : Memory) : (s.setMemory m).chans = s.chans := rfl
@[simp] theorem setMemory_homes (s : State) (m : Memory) : (s.setMemory m).homes = s.homes := rfl
@[simp] theorem setMemory_engines (s : State) (m : Memory) : (s.setMemory m).engines = s.engines := rfl
@[simp] theorem setMemory_invals (s : State) (m : Memory) : (s.setMemory m).invals = s.invals := rfl
@[simp] theorem setMemory_walks (s : State) (m : Memory) : (s.setMemory m).walks = s.walks := rfl
@[simp] theorem setMemory_raised (s : State) (m : Memory) : (s.setMemory m).raised = s.raised := rfl
@[simp] theorem setMemory_contexts (s : State) (m : Memory) : (s.setMemory m).contexts = s.contexts := rfl
@[simp] theorem setMemory_s1root (s : State) (m : Memory) : (s.setMemory m).s1root = s.s1root := rfl
@[simp] theorem setMemory_s2root (s : State) (m : Memory) : (s.setMemory m).s2root = s.s2root := rfl
@[simp] theorem setMemory_atsRefused (s : State) (m : Memory) : (s.setMemory m).atsRefused = s.atsRefused := rfl
@[simp] theorem setMemory_atc (s : State) (m : Memory) : (s.setMemory m).atc = s.atc := rfl
@[simp] theorem setMemory_atsDone (s : State) (m : Memory) : (s.setMemory m).atsDone = s.atsDone := rfl
@[simp] theorem setMemory_walkers (s : State) (m : Memory) : (s.setMemory m).walkers = s.walkers := rfl
@[simp] theorem setMemory_queues (s : State) (m : Memory) : (s.setMemory m).queues = s.queues := rfl
@[simp] theorem setMemory_lastPart (s : State) (m : Memory) : (s.setMemory m).lastPart = s.lastPart := rfl
@[simp] theorem setMemory_lastAdmit (s : State) (m : Memory) : (s.setMemory m).lastAdmit = s.lastAdmit := rfl
@[simp] theorem setMemory_groups (s : State) (m : Memory) : (s.setMemory m).groups = s.groups := rfl
@[simp] theorem setMemory_parts (s : State) (m : Memory) : (s.setMemory m).parts = s.parts := rfl
@[simp] theorem setMemory_ifaces (s : State) (m : Memory) : (s.setMemory m).ifaces = s.ifaces := rfl
@[simp] theorem setMemory_stackTab (s : State) (m : Memory) : (s.setMemory m).stackTab = s.stackTab := rfl
@[simp] theorem setMemory_layers (s : State) (m : Memory) : (s.setMemory m).layers = s.layers := rfl
@[simp] theorem setMemory_links (s : State) (m : Memory) : (s.setMemory m).links = s.links := rfl
@[simp] theorem setMemory_ring (s : State) (m : Memory) : (s.setMemory m).ring = s.ring := rfl
@[simp] theorem setMemory_lode (s : State) (m : Memory) : (s.setMemory m).lode = s.lode := rfl
@[simp] theorem setMemory_ylim (s : State) (m : Memory) : (s.setMemory m).ylim = s.ylim := rfl
@[simp] theorem setMemory_vcs (s : State) (m : Memory) : (s.setMemory m).vcs = s.vcs := rfl
@[simp] theorem setMemory_l1gen (s : State) (m : Memory) : (s.setMemory m).l1gen = s.l1gen := rfl
@[simp] theorem setMemory_l2 (s : State) (m : Memory) : (s.setMemory m).l2 = s.l2 := rfl
@[simp] theorem setMemory_tenants (s : State) (m : Memory) : (s.setMemory m).tenants = s.tenants := rfl
@[simp] theorem setMemory_l1 (s : State) (m : Memory) : (s.setMemory m).l1 = s.l1 := rfl
@[simp] theorem setMemory_mcPort (s : State) (m : Memory) : (s.setMemory m).mcPort = s.mcPort := rfl
@[simp] theorem setMemory_mcStack (s : State) (m : Memory) : (s.setMemory m).mcStack = s.mcStack := rfl
@[simp] theorem setMemory_flash (s : State) (m : Memory) : (s.setMemory m).flash = s.flash := rfl
@[simp] theorem setMemory_dis (s : State) (m : Memory) : (s.setMemory m).dis = s.dis := rfl
@[simp] theorem setMemory_pass (s : State) (m : Memory) : (s.setMemory m).pass = s.pass := rfl
@[simp] theorem setMemory_msix (s : State) (m : Memory) : (s.setMemory m).msix = s.msix := rfl
@[simp] theorem setMemory_hostDma (s : State) (m : Memory) : (s.setMemory m).hostDma = s.hostDma := rfl
@[simp] theorem setMemory_hostReply (s : State) (m : Memory) : (s.setMemory m).hostReply = s.hostReply := rfl
@[simp] theorem setMemory_spdmReply (s : State) (m : Memory) : (s.setMemory m).spdmReply = s.spdmReply := rfl
@[simp] theorem setMemory_fwEntry (s : State) (m : Memory) : (s.setMemory m).fwEntry = s.fwEntry := rfl
@[simp] theorem setMemory_coreReports (s : State) (m : Memory) : (s.setMemory m).coreReports = s.coreReports := rfl
@[simp] theorem setMemory_stopped (s : State) (m : Memory) : (s.setMemory m).stopped = s.stopped := rfl

end Sys2Proof.Machine.State
end

