-- ==== Sys2Proof/Laws/Memory.lean ====
section
/-! SUPPORT. Tables, bytes in canonical form, and the memory operations that keep it. -/

namespace Sys2Proof.Machine

/-! ## Tables -/

/-- The keys of a table rise strictly and exceed a bound. -/
def risesFrom {α : Type} (b : Nat) : Table α → Bool
  | [] => true
  | (j, _) :: t => b ≤ j && risesFrom (j + 1) t

theorem risesFrom_mono {α : Type} {b c : Nat} {t : Table α} (h : risesFrom c t = true) (hb : b ≤ c) :
    risesFrom b t = true := by
  cases t with
  | nil => rfl
  | cons p t => simp only [risesFrom, Bool.and_eq_true, decide_eq_true_eq] at *; exact ⟨by omega, h.2⟩

theorem risesFrom_put {α : Type} {b k : Nat} (hk : b ≤ k) (v : α) :
    ∀ {t : Table α}, risesFrom b t = true → risesFrom b (put t k v) = true := by
  intro t
  induction t generalizing b with
  | nil => intro _; simp [put, risesFrom, hk]
  | cons p t ih =>
    obtain ⟨j, u⟩ := p
    intro h
    simp only [risesFrom, Bool.and_eq_true, decide_eq_true_eq] at h
    simp only [put]
    split
    · simp only [risesFrom, Bool.and_eq_true, decide_eq_true_eq]; exact ⟨hk, by omega, h.2⟩
    · split
      · subst_vars; simp only [risesFrom, Bool.and_eq_true, decide_eq_true_eq]; exact h
      · simp only [risesFrom, Bool.and_eq_true, decide_eq_true_eq]
        exact ⟨h.1, ih (by omega) h.2⟩

theorem risesFrom_del {α : Type} {b k : Nat} :
    ∀ {t : Table α}, risesFrom b t = true → risesFrom b (del t k) = true := by
  intro t
  induction t generalizing b with
  | nil => exact id
  | cons p t ih =>
    obtain ⟨j, u⟩ := p
    intro h
    simp only [risesFrom, Bool.and_eq_true, decide_eq_true_eq] at h
    simp only [del]
    split
    · exact risesFrom_mono h.2 (by omega)
    · simp only [risesFrom, Bool.and_eq_true, decide_eq_true_eq]; exact ⟨h.1, ih h.2⟩

theorem find_below {α : Type} {b k : Nat} : ∀ {t : Table α}, risesFrom b t = true → k < b → find t k = none := by
  intro t h hk
  cases t with
  | nil => rfl
  | cons p t =>
    obtain ⟨j, u⟩ := p
    simp only [risesFrom, Bool.and_eq_true, decide_eq_true_eq] at h
    simp only [find]
    rw [if_neg (by omega), if_pos (by omega)]

/-- An entry set reads back. -/
@[simp] theorem find_put_same {α : Type} (t : Table α) (k : Nat) (v : α) : find (put t k v) k = some v := by
  induction t with
  | nil => simp [put, find]
  | cons p t ih =>
    obtain ⟨j, u⟩ := p
    simp only [put]
    split
    · simp [find]
    · split
      · simp [find]
      · simp only [find, if_neg ‹¬j = k›, if_neg ‹¬k < j›, ih]

/-- Setting an entry leaves every other one alone. -/
theorem find_put_other {α : Type} (t : Table α) {k m : Nat} (v : α) (h : m ≠ k) : find (put t k v) m = find t m := by
  induction t with
  | nil => simp [put, find, Ne.symm h]
  | cons p t ih =>
    obtain ⟨j, u⟩ := p
    simp only [put]
    split
    · simp only [find]
      by_cases h1 : m < k
      · rw [if_neg (Ne.symm h), if_pos h1, if_neg (by omega), if_pos (by omega)]
      · rw [if_neg (Ne.symm h), if_neg h1]
    · split
      · subst_vars
        simp only [find, if_neg (Ne.symm h)]
      · simp only [find, ih]

@[simp] theorem look_put_same {α : Type} (d : α) (t : Table α) (k : Nat) (v : α) : look d (put t k v) k = v := by
  simp [look]

theorem look_put_other {α : Type} (d : α) (t : Table α) {k m : Nat} (v : α) (h : m ≠ k) :
    look d (put t k v) m = look d t m := by
  simp [look, find_put_other t v h]

/-- In a rising table a removed entry is gone. -/
theorem find_del_same {α : Type} {b k : Nat} : ∀ {t : Table α}, risesFrom b t = true → find (del t k) k = none := by
  intro t
  induction t generalizing b with
  | nil => intro _; rfl
  | cons p t ih =>
    obtain ⟨j, u⟩ := p
    intro h
    simp only [risesFrom, Bool.and_eq_true, decide_eq_true_eq] at h
    simp only [del]
    split
    · exact find_below h.2 (by omega)
    · simp only [find, if_neg ‹¬j = k›]
      split
      · rfl
      · exact ih h.2

/-- In a rising table a removal leaves every other entry alone. -/
theorem find_del_other {α : Type} {b k m : Nat} (hm : m ≠ k) :
    ∀ {t : Table α}, risesFrom b t = true → find (del t k) m = find t m := by
  intro t
  induction t generalizing b with
  | nil => intro _; rfl
  | cons p t ih =>
    obtain ⟨j, u⟩ := p
    intro h
    simp only [risesFrom, Bool.and_eq_true, decide_eq_true_eq] at h
    simp only [del]
    split
    · subst_vars
      simp only [find, if_neg (Ne.symm hm)]
      split
      · exact find_below h.2 (by omega)
      · rfl
    · simp only [find, ih h.2]

/-! ## Bytes in canonical form -/

/-- The canonical form: rising keys, and no listed 0. -/
theorem cellsWf_iff (m : List Host.Cell) :
    cellsWf m = true ↔ risesFrom 0 (m : Table Byte) = true ∧ ∀ c ∈ m, c.2 ≠ 0 := by
  have key : ∀ (m : List Host.Cell) (b : Nat), (∀ c, m.head? = some c → b ≤ c.1) →
      (cellsWf m = true ↔ risesFrom b (m : Table Byte) = true ∧ ∀ c ∈ m, c.2 ≠ 0) := by
    intro m
    induction m with
    | nil => intro b _; simp [cellsWf, risesFrom]
    | cons p t ih =>
      obtain ⟨j, v⟩ := p
      intro b hb
      have hj : b ≤ j := hb (j, v) rfl
      cases t with
      | nil => simp [cellsWf, risesFrom, hj]
      | cons q t =>
        obtain ⟨k, w⟩ := q
        by_cases hk : j + 1 ≤ k
        · have := ih (j + 1) (by intro c hc; simp at hc; subst hc; exact hk)
          simp only [cellsWf, Bool.and_eq_true, decide_eq_true_eq, bne_iff_ne, ne_eq]
          rw [this]
          simp only [risesFrom, Bool.and_eq_true, decide_eq_true_eq, List.forall_mem_cons]
          constructor
          · rintro ⟨⟨h1, h2⟩, h3, h4⟩; exact ⟨⟨hj, h3⟩, h1, h4⟩
          · rintro ⟨⟨_, h3⟩, h1, h4⟩; exact ⟨⟨h1, by omega⟩, h3, h4⟩
        · constructor
          · intro h; simp only [cellsWf, Bool.and_eq_true, decide_eq_true_eq] at h; omega
          · rintro ⟨h, _⟩; simp only [risesFrom, Bool.and_eq_true, decide_eq_true_eq] at h; omega
  exact key m 0 (fun _ _ => Nat.zero_le _)

theorem mem_put_of {α : Type} {t : Table α} {k : Nat} {v : α} {c : Nat × α} (h : c ∈ put t k v) :
    c = (k, v) ∨ c ∈ t := by
  induction t with
  | nil => simp [put] at h; exact .inl h
  | cons p t ih =>
    obtain ⟨j, u⟩ := p
    simp only [put] at h
    split at h
    · simp at h; rcases h with h | h | h
      · exact .inl h
      · exact .inr (by simp [h])
      · exact .inr (by simp [h])
    · split at h
      · simp at h; rcases h with h | h
        · exact .inl h
        · exact .inr (by simp [h])
      · simp at h; rcases h with h | h
        · exact .inr (by simp [h])
        · rcases ih h with h | h
          · exact .inl h
          · exact .inr (by simp [h])

theorem mem_del_of {α : Type} {t : Table α} {k : Nat} {c : Nat × α} (h : c ∈ del t k) : c ∈ t := by
  induction t with
  | nil => exact h
  | cons p t ih =>
    obtain ⟨j, u⟩ := p
    simp only [del] at h
    split at h
    · exact List.mem_cons_of_mem _ h
    · rcases List.mem_cons.1 h with h | h
      · exact h ▸ List.mem_cons_self
      · exact List.mem_cons_of_mem _ (ih h)

/-- Writing a byte keeps the canonical form. -/
theorem cellsWf_setByte {m : List Host.Cell} (h : cellsWf m = true) (k : Nat) (v : Byte) :
    cellsWf (setByte m k v) = true := by
  rw [cellsWf_iff] at *
  unfold setByte
  split
  · exact ⟨risesFrom_del h.1, fun c hc => h.2 c (mem_del_of hc)⟩
  · refine ⟨risesFrom_put (Nat.zero_le _) v h.1, fun c hc => ?_⟩
    rcases mem_put_of hc with h1 | h1
    · subst h1; assumption
    · exact h.2 c h1

/-- Writing bytes keeps the canonical form. -/
theorem cellsWf_setBytes {m : List Host.Cell} (h : cellsWf m = true) (k : Nat) (bs : List Byte) :
    cellsWf (setBytes m k bs) = true := by
  induction bs generalizing m k with
  | nil => exact h
  | cons b bs ih => exact ih (cellsWf_setByte h k b) (k + 1)

/-- A written byte reads back. -/
theorem getByte_setByte_same {m : List Host.Cell} (h : cellsWf m = true) (k : Nat) (v : Byte) :
    getByte (setByte m k v) k = v := by
  rw [cellsWf_iff] at h
  unfold setByte getByte
  split
  · simp [look, find_del_same h.1, *]
  · simp

/-- Writing a byte leaves every other byte alone. -/
theorem getByte_setByte_other {m : List Host.Cell} (h : cellsWf m = true) {k j : Nat} (v : Byte) (hj : j ≠ k) :
    getByte (setByte m k v) j = getByte m j := by
  rw [cellsWf_iff] at h
  unfold setByte getByte
  split
  · simp [look, find_del_other hj h.1]
  · exact look_put_other _ _ _ hj

/-- Bytes outside the written range are left alone. -/
theorem getByte_setBytes_outside {m : List Host.Cell} (h : cellsWf m = true) (k : Nat) (bs : List Byte) {j : Nat}
    (hj : j < k ∨ k + bs.length ≤ j) : getByte (setBytes m k bs) j = getByte m j := by
  induction bs generalizing m k with
  | nil => rfl
  | cons b bs ih =>
    simp only [List.length_cons] at hj
    simp only [setBytes]
    rw [ih (cellsWf_setByte h k b) (k + 1) (by omega), getByte_setByte_other h _ (by omega)]

/-- Written bytes read back. -/
theorem getBytes_setBytes_same {m : List Host.Cell} (h : cellsWf m = true) (k : Nat) (bs : List Byte) :
    getBytes (setBytes m k bs) k bs.length = bs := by
  induction bs generalizing m k with
  | nil => rfl
  | cons b bs ih =>
    simp only [List.length_cons, getBytes, setBytes]
    rw [ih (cellsWf_setByte h k b) (k + 1),
      getByte_setBytes_outside (cellsWf_setByte h k b) (k + 1) bs (by omega), getByte_setByte_same h]

/-! ## Memory operations -/

namespace State
variable {s : State}

theorem wf_setCells (h : s.memWf = true) (k : Nat) (bs : List Byte) (m : Memory)
    (hm : m.cells = setBytes s.mem.cells k bs) : (s.setMemory m).memWf = true := by
  simp only [memWf, Memory.wf, setMemory] at *
  rw [hm]; exact cellsWf_setBytes h k bs

theorem wf_sameCells (h : s.memWf = true) (m : Memory) (hm : m.cells = s.mem.cells) :
    (s.setMemory m).memWf = true := by
  simp only [memWf, Memory.wf, setMemory] at *; rw [hm]; exact h

theorem wf_dropLine (h : s.memWf = true) (l : Nat) : (s.dropLine l).memWf = true := by
  unfold dropLine; split
  · exact h
  · exact wf_setCells h _ _ _ rfl

theorem wf_poisonLine (h : s.memWf = true) (p : Phys) : (s.poisonLine p).memWf = true :=
  wf_sameCells h _ rfl

theorem wf_raise (h : s.memWf = true) (r : Record) : (s.raise r).memWf = true := h

theorem wf_used (h : s.memWf = true) : s.used.memWf = true := h

theorem wf_writeBack (h : s.memWf = true) (l : Nat) : (s.writeBack l).memWf = true := wf_sameCells h _ rfl

/-- A charge leaves memory alone. -/
@[simp] theorem mem_chargeWalk (s : State) (x k : Nat) : (s.chargeWalk x k).mem = s.mem := by
  unfold chargeWalk; dsimp only; split <;> rfl

/-- An eviction from a slice keeps the canonical form. -/
theorem wf_evictLine (h : s.memWf = true) (l : Nat) : (s.evictLine l).memWf = true := by
  unfold evictLine; dsimp only; split
  · split
    · exact wf_dropLine h l
    · exact (congrArg Memory.wf (mem_chargeWalk ..)).trans (wf_writeBack h l)
  · exact h

theorem wf_evictAll (ls : List Nat) : ∀ {s : State}, s.memWf = true → (ls.foldl evictLine s).memWf = true := by
  induction ls with
  | nil => exact id
  | cons l ls ih => exact fun h => ih (wf_evictLine h l)

theorem wf_fillLine (h : s.memWf = true) (x l : Nat) : (s.fillLine x l).memWf = true := wf_evictAll _ h

/-- An access at its slice keeps the canonical form. -/
theorem wf_reach (h : s.memWf = true) (p : Phys) : (s.reach p).memWf = true := by
  unfold reach; split
  · exact h
  · split
    · exact h
    · apply wf_fillLine; split
      · exact wf_evictLine h _
      · exact h

/-- A line that its slice holds for the access's context is reached as it stands. -/
@[simp] theorem reach_of_held {p : Phys} (hh : p.host = false) (h : s.l2Holds p = true) : s.reach p = s := by
  simp [reach, h, hh]

theorem wf_openedBy (h : s.memWf = true) (l : Nat) (x y : Seal) (b : Bool) : (s.openedBy l x y b).memWf = true :=
  wf_setCells h _ _ _ rfl

theorem wf_reopened (h : s.memWf = true) (p : Phys) : (s.reopened p).memWf = true := by
  unfold reopened; dsimp only; split
  · exact h
  · split
    · exact wf_openedBy h _ _ _ _
    · exact wf_openedBy h _ _ _ _
    · exact h

/-- An access whose stamp the line bears opens it as it stands. -/
@[simp] theorem reopened_of_good {p : Phys} (h : s.sealGood p = true) : s.reopened p = s := by simp [reopened, h]

/-- A line whose seal is the access's passes its check as it stands. -/
@[simp] theorem checkLine_of_good {p : Phys} (h : s.sealGood p = true) (va : Word) (r : Record) :
    s.checkLine p va r = s := by simp [checkLine, h]

theorem wf_checkLine (h : s.memWf = true) (p : Phys) (va : Word) (r : Record) :
    (s.checkLine p va r).memWf = true := by
  unfold checkLine; dsimp only; split
  · exact wf_reopened h p
  · split
    · exact wf_poisonLine h p
    · exact wf_raise (wf_poisonLine h p) _

theorem wf_consumeMark (h : s.memWf = true) (p : Phys) : (s.consumeMark p).memWf = true := by
  unfold consumeMark; split
  · split
    · exact wf_evictLine h _
    · exact h
  · exact h

theorem wf_evictMarked (h : s.memWf = true) (p : Phys) : (s.evictMarked p).memWf = true := by
  unfold evictMarked; split
  · split
    · exact wf_used (wf_evictLine h _)
    · exact h
  · exact h

/-- A line made ready for an access keeps the canonical form. -/
theorem wf_lineReady (h : s.memWf = true) (p : Phys) (va : Word) (r : Record) : (s.lineReady p va r).memWf = true :=
  wf_checkLine (wf_reach (wf_evictMarked h p) p) _ _ _

theorem wf_makeDirty (h : s.memWf = true) (p : Phys) : (s.makeDirty p).memWf = true := by
  unfold makeDirty; split
  · exact h
  · dsimp only; exact wf_sameCells (wf_reach h p) _ rfl

theorem wf_writeLine (h : s.memWf = true) (p : Phys) (bs : List Byte) (a b : Bool) :
    (s.writeLine p bs a b).memWf = true :=
  wf_setCells (wf_makeDirty h p) _ _ _ rfl

/-- A store within a line keeps the canonical form. -/
theorem wf_storeLine (h : s.memWf = true) (p : Phys) (bs : List Byte) (a b : Bool) :
    (s.storeLine p bs a b).memWf = true := by
  unfold storeLine; split
  · exact wf_raise h _
  · exact wf_writeLine h p bs a b

/-- A store keeps the canonical form. -/
theorem wf_store (h : s.memWf = true) (p : Phys) (bs : List Byte) (a b : Bool) (va : Word) (r : Record) :
    (s.store p bs a b va r).memWf = true := by
  unfold store; apply wf_storeLine; split
  · exact h
  · exact wf_lineReady h p va r

/-- A read keeps the canonical form. -/
theorem wf_loadLine (h : s.memWf = true) (p : Phys) (n : Nat) (va : Word) (r : Record) :
    (s.loadLine p n va r).2.2.2.memWf = true := by
  unfold loadLine; split
  · exact wf_raise h _
  · exact wf_consumeMark (wf_lineReady h p va r) p

/-- The walker's rewrite of an entry keeps the canonical form. -/
theorem wf_markEntry (h : s.memWf = true) (p : Phys) (e : Word) (d : Bool) : (s.markEntry p e d).memWf = true := by
  unfold markEntry
  generalize (e ||| 0x40 ||| (if d then 0x80 else 0)) = e2
  dsimp only; split
  · exact h
  · exact wf_setCells (wf_makeDirty h p) _ _ _ rfl

end State

/-- A value's bytes are as many as asked for. -/
@[simp] theorem length_toBytes : ∀ n v : Nat, (toBytes n v).length = n
  | 0, _ => rfl
  | n + 1, v => by rw [toBytes, List.length_cons, length_toBytes n]

/-- The bytes of a value hold it, cut to their number. -/
theorem fromBytes_toBytes : ∀ n v : Nat, fromBytes (toBytes n v) = v % 2 ^ (8 * n)
  | 0, v => by simp [toBytes, fromBytes, Nat.mod_one]
  | n + 1, v => by
    rw [toBytes, fromBytes, fromBytes_toBytes n, BitVec.toNat_ofNat, show 2 ^ (8 * (n + 1)) = 256 * 2 ^ (8 * n) from by
      rw [Nat.mul_add, pow_add]; ring, Nat.mod_mul]

/-- Memory right after reset is canonical. -/
theorem reset_memWf : State.reset.memWf = true := rfl

end Sys2Proof.Machine
end

