-- ==== Sys2Proof/Laws/Thread.lean ====
section
/-! SUPPORT. What the shared endings of helm instructions do: retire, retireC, advance, trap. -/

namespace Sys2Proof.Machine
namespace State

theorem thread_setThread (s : State) (t k : Nat) (x : Thread) :
    (s.setThread t x).thread k = if k = t then x else s.thread k := by
  simp only [thread, setThread]
  split
  · subst_vars; simp
  · rw [find_put_other _ _ ‹_›]

@[simp] theorem th_setTh (s : State) (x : Thread) : (s.setTh x).th = x := by
  rw [th, setTh_cur, setTh, thread_setThread, if_pos rfl]

theorem thread_setTh (s : State) (k : Nat) (x : Thread) (h : k ≠ s.cur) : (s.setTh x).thread k = s.thread k := by
  simp [setTh, thread_setThread, h]

theorem onlyThreads_setTh (s : State) (x : Thread) : onlyThreads s (s.setTh x) := rfl

theorem othersKept_setTh (s : State) (x : Thread) : othersKept s (s.setTh x) :=
  ⟨rfl, fun _ h => thread_setTh s _ x h⟩

/-- A result written to a general register is one thread's update. -/
theorem retire_eq (s : State) (d : Reg) (v : Word) :
    ∃ x, s.retire d v = ((s.setG d v).setTh x) ∧ x = { (s.setG d v).th with
      pcc := { (s.setG d v).th.pcc with lo := (s.setG d v).pc + 4 }, st := .ready, wait := .none, arrived := false } :=
  ⟨_, rfl, rfl⟩

theorem onlyThreads_setG (s : State) (d : Reg) (v : Word) : onlyThreads s (s.setG d v) := by
  unfold setG; split <;> rfl

theorem setG_th (s : State) (d : Reg) (v : Word) :
    (s.setG d v).th = { s.th with g := if d = 0 then s.th.g else s.th.g.set d v } := by
  unfold setG; split <;> simp_all

theorem setC_th (s : State) (d : CReg) (v : Cap) :
    (s.setC d v).th = { s.th with c := if d = 0 then s.th.c else s.th.c.set d v } := by
  unfold setC; split <;> simp_all

theorem setG_thread (s : State) (d : Reg) (v : Word) (k : Nat) (h : k ≠ s.cur) : (s.setG d v).thread k = s.thread k := by
  unfold setG; split
  · rfl
  · exact thread_setTh s k _ h

theorem setC_thread (s : State) (d : CReg) (v : Cap) (k : Nat) (h : k ≠ s.cur) : (s.setC d v).thread k = s.thread k := by
  unfold setC; split
  · rfl
  · exact thread_setTh s k _ h

@[simp] theorem setG_cur' (s : State) (d : Reg) (v : Word) : (s.setG d v).cur = s.cur := by unfold setG; split <;> rfl

@[simp] theorem setC_cur' (s : State) (d : CReg) (v : Cap) : (s.setC d v).cur = s.cur := by unfold setC; split <;> rfl

theorem retire_g (s : State) (d r : Reg) (v : Word) :
    (s.retire d v).g r = if r = d then written d v else s.g r := by
  simp only [g, retire, advance, th_setTh, setG_th, written]
  by_cases hd : d = 0
  · subst hd; by_cases hr : r = 0 <;> simp [hr]
  · by_cases hr : r = d
    · subst hr; simp [hd]
    · have : (r : Nat) ≠ d := fun h => hr (Fin.ext h)
      simp [hd, hr, Ne.symm this]

theorem retireC_c (s : State) (d r : CReg) (v : Cap) :
    (s.retireC d v).c r = if r = d then writtenC s d v else s.c r := by
  simp only [c, retireC, advance, th_setTh, setC_th, writtenC]
  by_cases hd : d = 0
  · subst hd; by_cases hr : r = 0 <;> simp [hr]
  · by_cases hr : r = d
    · subst hr; simp [hd]
    · have : (r : Nat) ≠ d := fun h => hr (Fin.ext h)
      simp [hd, hr, Ne.symm this]

/-- What an instruction that writes a general register leaves: its result, the next pc, and nothing else. -/
theorem retire_frame (s : State) (d : Reg) (v : Word) :
    (s.retire d v).g d = written d v ∧ gFrame s (s.retire d v) d := by
  refine ⟨by simp [retire_g], ⟨⟨?_, ?_⟩, ?_, ?_, ?_⟩, ?_, fun _ => ?_⟩
  · simp [retire, advance]
  · intro k h; simp only [retire, advance]; rw [thread_setTh _ _ _ (by simpa using h), setG_thread _ _ _ _ h]
  · simp [keepsButG, retire, advance, setG_th]
  · intro r hr; simp [retire_g, hr]
  · simp [pc, retire, advance, setG_th]
  · simp only [retire, advance]; exact (onlyThreads_setG s d v)
  · simp [retire, advance, setG]; split <;> rfl

/-- The same for a capability register. -/
theorem retireC_frame (s : State) (d : CReg) (v : Cap) :
    (s.retireC d v).c d = writtenC s d v ∧ cFrame s (s.retireC d v) d := by
  refine ⟨by simp [retireC_c], ⟨⟨?_, ?_⟩, ?_, ?_, ?_⟩, ?_, fun _ => ?_⟩
  · simp [retireC, advance]
  · intro k h; simp only [retireC, advance]; rw [thread_setTh _ _ _ (by simpa using h), setC_thread _ _ _ _ h]
  · simp [keepsButC, retireC, advance, setC_th]
  · intro r hr; simp [retireC_c, hr]
  · simp [pc, retireC, advance, setC_th]
  · simp only [retireC, advance, setC]; split <;> rfl
  · simp [retireC, advance, setC]; split <;> rfl

end State
end Sys2Proof.Machine
end

