-- ==== Sys2Proof/Tests/Slice0.lean ====
section
/-! SUPPORT. Tests: decoding, well-formedness, single steps, and for each statement states that meet its hypotheses. -/

namespace Sys2Proof.Tests
open Sys2Proof Sys2Proof.Machine Sys2Proof.Claims

/-! ## States for the tests -/

/-- A capability over all of memory with LOAD, STORE, LOAD_CAP, STORE_CAP, EXECUTE, STREAM, CONFIG, ATOMIC and more. -/
def wide : Cap := fwcap.withPerms 0x19FF
/-- The same at an address. -/
def wideAt (a : Nat) : Cap := wide.setAddr (BitVec.ofNat 64 a)
/-- FWCAP with EXECUTE and no SYSTEM at an address. -/
def code (a : Nat) : Cap := (fwcap.withPerms 0x1933).setAddr (BitVec.ofNat 64 a)
/-- General registers: g1 to g4. -/
def regs4 (a b c d : Word) : Vector Word 32 :=
  ((((Vector.replicate 32 (0 : Word)).set 1 a).set 2 b).set 3 c).set 4 d
/-- A thread READY at 0x1000 with g1 to g4 and c1, c2. -/
def thread4 (a b c d : Word) (x y : Cap) (lv : BitVec 2) : Thread :=
  { g := regs4 a b c d, c := ((Vector.replicate 16 ({} : Cap)).set 1 x).set 2 y, pcc := code 0x1000, st := .ready, hasCode := true,
    priv := lv }
/-- Control core 0 of stack 0 with a thread. -/
def core (x : Thread) : State := { State.reset with threads := [(16384, x)], cur := 16384 }
/-- A cached translation of the page at 0x2000 of context 1, to the device page at 0x4000, whose home is stack 0. -/
def page2 : XEntry := { ctx := 1, va := 0x2000, pa := 0x4000, r := true, w := true, x := true, u := true, cs := true, d := true }
/-- Tile 9 of context 1, ACTIVE, in group 5, which is FIRING, with a thread on unit 0. -/
def onTile (x : Thread) : State :=
  { State.reset with
    cur := 72, threads := [(72, x)], contexts := [(1, { st := 3, epoch := 1 })],
    tiles := [(9, { owner := some 1, group := some 5, configured := true, unit0 := { cache := [page2] } })],
    groups := [(5, { ctx := 1, st := .firing, kernel := .live, tiles := [(0, 0, 9)] })] }
/-- The thread of most tests, at level U. -/
def plain : Thread := thread4 5 3 0x2000 0 (wideAt 0x2000) (wideAt 0x2008) 0
/-- The same with stop requested. -/
def stopping : Thread := { plain with stopReq := true }

/-! ## Words of the spec's examples (R43, R217-R252 and the worked examples of spec/03 to 24) -/

theorem test_words_integer : decodeHelm 0x05295003 = .ok (.or 9 9 10) ∧ decodeHelm 0x0AF90000 = .ok (.clz 23 25) ∧
    decodeHelm 0x098A5803 = .ok (.bilv 12 10 11) ∧ decodeHelm 0x04E74003 = .ok (.or 7 7 8) := by decide

theorem test_words_immediate : decodeHelm 0x10A3FFFE = .ok (.addi 5 3 0xFFFE) ∧ decodeHelm 0x14E6000F = .ok (.andi 7 6 15) ∧
    decodeHelm 0x19080007 = .ok (.ori 8 8 7) ∧ decodeHelm 0x29000010 = .ok (.lui 8 0x10) ∧
    decodeHelm 0x2D290010 = .ok (.slli 9 9 16) ∧ decodeHelm 0x31060020 = .ok (.srli 8 6 32) ∧
    decodeHelm 0x25CD0003 = .ok (.sltiu 14 13 3) ∧ decodeHelm 0x39050407 = .ok (.bfx 8 5 16 7) := by decide

theorem test_words_control : decodeHelm 0x4022FFFD = .ok (.beq 1 2 0xFFFD) ∧ decodeHelm 0x44E8FFFE = .ok (.bne 7 8 0xFFFE) ∧
    decodeHelm 0x603C0000 = .ok (.cjr 15) ∧ decodeHelm 0xA0000300 = .ok (.trap 0) := by decide

theorem test_words_memory : decodeHelm 0x6488E010 = .ok (.ldc .n32 7 2 16) ∧ decodeHelm 0x68C8A000 = .ok (.stc .n64 5 2 0) ∧
    decodeHelm 0x6DC40008 = .ok (.ldcc 7 1 8) ∧ decodeHelm 0x71C80008 = .ok (.stcc 7 2 8) := by decide

theorem test_words_atomic : decodeHelm (0x74000000 + 1 * 2 ^ 18 + 3 * 2 ^ 13 + 2 * 2 ^ 8 + 2 ^ 7 + 9 * 2 ^ 3 + 6) =
    .ok (.amocas .n32 .package 2 3 1) ∧
    decodeHelm (0x74000000 + 1 * 2 ^ 18 + 3 * 2 ^ 13 + 2 * 2 ^ 8 + 9 * 2 ^ 3 + 3) = .error .subField := by decide

theorem test_words_capability : decodeHelm 0x79050003 = .ok (.csetaddr 4 1 8) ∧ decodeHelm 0x79112000 = .ok (.csetbounds 4 4 9) ∧
    decodeHelm 0x79114004 = .ok (.candperm 4 4 10) ∧ decodeHelm 0x78116011 = .ok (.cgetbase 11 4) ∧
    decodeHelm 0x78118012 = .ok (.cgetlen 12 4) := by decide

theorem test_words_streams : decodeHelm 0x85040100 = .ok (.sload 8 4 0) ∧ decodeHelm 0x84C00402 = .ok (.srecv 6 2) ∧
    decodeHelm 0x84120301 = .ok (.ssend 18 1) ∧ decodeHelm 0x88050140 = .ok (.msend 5 64) ∧
    decodeHelm 0x88C002C8 = .ok (.mrecv 6 200) := by decide

theorem test_words_engines : decodeHelm 0x8C05010B = .ok (.ecopy 0 5 11) ∧ decodeHelm 0x8D07030C = .ok (.ecoll 8 7 12) ∧
    decodeHelm 0x90650107 = .ok (.binit .group 5 7) ∧ decodeHelm 0x90C90105 = .ok (.binit .package 9 5) ∧
    decodeHelm 0x90000209 = .ok (.barv 9) ∧ decodeHelm 0x90000507 = .ok (.barvw 7) := by decide

theorem test_words_system : decodeHelm 0x95000246 = .ok (.qstat 8 70) ∧ decodeHelm 0x94820146 = .ok (.qpush 4 2 70) ∧
    decodeHelm 0x98860207 = .ok (.gmove 4 6 7) ∧ decodeHelm 0x98A60700 = .ok (.gstat 5 6) ∧ decodeHelm 0x9C600300 = .ok (.bslot 3) ∧
    decodeHelm 0x9C040109 = .ok (.bcst 4 9) ∧ decodeHelm 0x9C000200 = .ok .bcfence ∧ decodeHelm 0xA0000200 = .ok .syield ∧
    decodeHelm 0xA0062000 = .ok (.tlbinvStage1 6) ∧ decodeHelm 0xA0002100 = .ok .tlbsync ∧
    decodeHelm 0xA0801008 = .ok (.mfk 4 .ylim) ∧ decodeHelm 0xA0071110 = .ok (.mtk 7 .faultq) ∧
    decodeHelm 0xA0853100 = .ok (.cxquiesce 4 5) ∧ decodeHelm 0xA0C53000 = .ok (.cxstat 6 5) ∧
    decodeHelm 0xA0853200 = .ok (.cxresume 4 5) := by decide

theorem test_words_refused : decodeHelm 0 = .error .major ∧ decodeHelm 0x0400000D = .error .function ∧
    decodeHelm 0xA0271110 = .error .zeroField ∧ decodeHelm 0x38000FFF = .error .subField := by decide

theorem test_element_ald : decodeElem 0x600001FF = .ok (.elAld { fsel := 0, rep := 0, cx := 0, cy := 0x1FF }) := rfl
theorem test_element_rsum : decodeElem 0x482391FF = .ok (.elRsum { fsel := 1, rep := 0, cx := 0x1C8, cy := 0x1FF }) := rfl
theorem test_element_split : decodeElem 0x54000008 = .ok (.elSplit { fsel := 0, rep := 0, cx := 0, cy := 8 }) := rfl
theorem test_element_xnode : decodeElem 0xB00021FF = .ok (.elXnode { fsel := 0, rep := 0, cx := 0x10, cy := 0x1FF }) := rfl
theorem test_element_hbi : decodeElem 0xCA0031C3 = .ok (.elHbi { fsel := 0, rep := 0, cx := 0x18, cy := 0x1C3 }) := rfl
theorem test_element_klast : decodeElem 0xCD03FFFF = .ok (.elKlast { fsel := 0, rep := 0, cx := 0x1FF, cy := 0x1FF }) := rfl
theorem test_element_nop : decodeElem 0xFF03FFFF = .error .nop ∧ decodeElem 0xFF03FFFE = .error .badNop := ⟨rfl, rfl⟩

/-- A token laid out from R59: ASTORE of 16 by 8 blocks of buffer 1 to BF16; one with a reserved bit. -/
theorem test_matrix_words : decodeMatrix 0x0000002100081000 = .error .operation ∧
    decodeMatrix 0x000000210008100A = .ok (.mxAstore { m := 16, n := 8, k := 0, buf := 1, acc := false, chain := false, bt := false, dcvt := 1 }) ∧
    decodeMatrix 0x000001210008100A = .error .reserved := by decide

theorem test_bytes : decodeBytes [0xFE, 0xFF, 0xA3, 0x10, 0x77] = some (.addi 5 3 0xFFFE, [0x77]) := by decide

/-! ## Well-formedness refuses what R39, R47, R49, R52, R59 and R60 refuse -/

theorem test_wf_bfx : (Instr.bfx 1 2 63 0).wf = true ∧ (Instr.bfx 1 2 63 1).wf = false ∧ (Instr.bfi 1 2 32 32).wf = false := by decide
theorem test_wf_rep : (Instr.elAdd { fsel := 0, rep := 7, cx := 0, cy := 0x1FF }).wf = false := by decide
theorem test_wf_ports : (Instr.elAdd { fsel := 0, rep := 0, cx := 4, cy := 0x1FF }).wf = false ∧
    (Instr.elAdd { fsel := 0, rep := 0, cx := 0, cy := 6 }).wf = false ∧
    (Instr.elAdd { fsel := 0, rep := 0, cx := 7, cy := 3 }).wf = true := by decide
theorem test_wf_same : (Instr.elAdd { fsel := 0, rep := 0, cx := 9, cy := 9 }).wf = false ∧
    (Instr.elAdd { fsel := 0, rep := 0, cx := 0x1FF, cy := 0x1FF }).wf = true := by decide
theorem test_wf_fsel : (Instr.elSteer { fsel := 1, rep := 0, cx := 0, cy := 1 }).wf = false ∧
    (Instr.elAdd { fsel := 7, rep := 0, cx := 0, cy := 1 }).wf = true := by decide
theorem test_wf_matrix : (Instr.mxMma { m := 1, n := 1, k := 0, buf := 0, acc := false, chain := false, bt := false, dcvt := 0 }).wf = false ∧
    (Instr.mxMma { m := 1, n := 1, k := 1, buf := 2, acc := false, chain := false, bt := false, dcvt := 0 }).wf = false ∧
    (Instr.mxMma { m := 1, n := 1, k := 1, buf := 0, acc := false, chain := false, bt := false, dcvt := 1 }).wf = false ∧
    (Instr.mxMma { m := 1, n := 1, k := 1, buf := 1, acc := true, chain := true, bt := true, dcvt := 6 }).wf = true ∧
    (Instr.mxAstore { m := 1, n := 1, k := 0, buf := 0, acc := false, chain := false, bt := false, dcvt := 7 }).wf = false := by decide

/-! ## Witnesses: the helm thread's statements -/

theorem witness_integer : ∃ P, integerResult (onTile plain) (.add 1 2 3) = some (1, P) := ⟨_, rfl⟩
theorem witness_immediate : ∃ P, immediateResult (onTile plain) (.addi 0 2 0xFFFF) = some (0, P) := ⟨_, rfl⟩
theorem witness_fields : (63 : BitVec 6).toNat + (0 : BitVec 6).toNat + 1 ≤ 64 ∧ (0 : BitVec 6).toNat + (63 : BitVec 6).toNat + 1 ≤ 64 := by
  decide

/-- A branch taken and not, a target that may be fetched, one out of bounds of pcc at its last word. -/
theorem witness_branches : (∃ P, branchOf (onTile plain) (.beq 1 2 3) = some (P, 0x100C)) ∧ (onTile plain).g 1 ≠ (onTile plain).g 2 ∧
    (onTile plain).g 1 = (onTile plain).g 1 ∧ fetchFault true ((onTile plain).th.pcc.setBounds 8 true) 0x1000 = none ∧
    fetchFault true ((onTile plain).th.pcc.setBounds 8 true) 0x1008 = some .bounds := ⟨⟨_, rfl⟩, by decide, rfl, by decide, by decide⟩

/-- A core whose pcc and c1 may be fetched; c2 may not. -/
def jumper : State := core { thread4 0 0 0 0 (code 0x2000) {} 2 with pcc := code 0x1000 }
theorem witness_jumps : fetchFault jumper.low (jumper.c 1) (jumper.c 1).lo = none ∧
    fetchFault jumper.low (jumper.c 2) (jumper.c 2).lo = some .tag := by decide
/-- Sealed code and data of one type. -/
theorem witness_calls : callFault false ((code 0x2000).withSeal 5) ((wideAt 0).withPerms 3 |>.withSeal 5) = none ∧
    callFault false ((code 0x2000).withSeal 5) ((wideAt 0).withPerms 3 |>.withSeal 6) = some .seal := by decide

theorem witness_derivations : (∃ P, derivedBits (onTile plain) (.csetbounds 1 2 3) = some (1, P)) ∧
    (wide.setBounds 100 true).tag = true ∧ (wide.setAddr 5).tag = true ∧ (wide.setAddr 5).decode ≠ (0, 0) :=
  ⟨⟨_, rfl⟩, by decide, by decide, by decide⟩
theorem witness_inspections : ∃ P, inspection (onTile plain) (.cgetlen 1 2) = some (1, P) := ⟨_, rfl⟩

/-- The accesses of tile 9 at 0x2000 and a failing one of each cause. -/
theorem witness_access : accessCause (onTile plain) (wideAt 0x2000) 0x2000 8 0x1 false = none ∧
    accessCause (onTile plain) {} 0x2000 8 0x1 false = some .tag ∧
    accessCause (onTile plain) ((wideAt 0x2000).withSeal 1) 0x2000 8 0x1 false = some .seal ∧
    accessCause (onTile plain) ((wideAt 0x2000).withPerms 2) 0x2000 8 0x1 false = some .perm ∧
    accessCause (onTile plain) ((wideAt 0x2000).setBounds 8 true) 0x2001 8 0x1 false = some .bounds ∧
    accessCause (onTile plain) (wideAt 0x2000) 0x2001 8 0x1 false = some .align := by decide
theorem witness_access_of : accessOf (onTile plain) (.ldc .n64 1 1 0) = some (wideAt 0x2000, 0x2000, 8, 1, false) ∧
    accessOf (onTile plain) (.amoadd .n32 .tile 1 2 1) = some (wideAt 0x2000, 0x2000, 4, 0x103, true) := by decide

/-- Where an access stands, whatever the test. -/
def placed (s : State) (a n : Nat) (need : Need) : Phys × State := (place s (BitVec.ofNat 64 a) n need).getD ({}, s)
/-- A state with a poisoned line at 0x2000's place. -/
def poisoned (s : State) (p : Phys) : State := { s with mem := { s.mem with poison := [p.key / 64] } }

theorem witness_loads : accessCause (onTile plain) (wideAt 0x2000) (offsetBy (wideAt 0x2000) 0 1) 8 0x1 false = none ∧
    accessCause (onTile plain) (wideAt 0x2000) (offsetBy (wideAt 0x2000) 0 16) 16 0x1 false = none ∧
    (place (onTile plain) 0x2000 16 Need.load).isSome = true ∧
    (placed (onTile plain) 0x2000 8 Need.load).2.mayIssue (stackOf 72) (placed (onTile plain) 0x2000 8 Need.load).1 = true ∧
    (placed (onTile plain) 0x2000 8 Need.load).2.checkOn 1 = false ∧
    servedBy (placed (onTile plain) 0x2000 8 Need.load).2 (placed (onTile plain) 0x2000 8 Need.load).1 = none ∧
    (placed (onTile plain) 0x2000 8 Need.load).2.sealGood (placed (onTile plain) 0x2000 8 Need.load).1 = true ∧
    (placed (onTile plain) 0x2000 8 Need.load).2.poisonedAt (placed (onTile plain) 0x2000 8 Need.load).1 = false ∧
    (placed (onTile plain) 0x2000 8 Need.load).2.mem.dirty = [] ∧
    (poisoned (onTile plain) (placed (onTile plain) 0x2000 8 Need.load).1).poisonedAt (placed (onTile plain) 0x2000 8 Need.load).1 =
      true := by decide

theorem witness_stores : accessCause (onTile plain) (wideAt 0x2000) (offsetBy (wideAt 0x2000) 0 1) 8 0x2 true = none ∧
    (∃ perms, accessOf (onTile plain) (.stcc 2 1 0) = some (wideAt 0x2000, 0x2000, 16, perms, true) ∧
      accessCause (onTile plain) (wideAt 0x2000) 0x2000 16 perms true = none) ∧
    (place (onTile plain) 0x2000 16 Need.store).isSome = true ∧ (placed (onTile plain) 0x2000 16 Need.store).1.host = false ∧
    (placed (onTile plain) 0x2000 16 Need.store).2.memWf = true ∧
    (placed (onTile plain) 0x2000 16 Need.store).2.mayIssue (stackOf 72) (placed (onTile plain) 0x2000 16 Need.store).1 = true ∧
    (placed (onTile plain) 0x2000 16 Need.store).2.checkOn 1 = false ∧
    (placed (onTile plain) 0x2000 16 Need.store).2.sealGood (placed (onTile plain) 0x2000 16 Need.store).1 = true ∧
    (placed (onTile plain) 0x2000 16 Need.store).2.poisonedAt (placed (onTile plain) 0x2000 16 Need.store).1 = false ∧
    (placed (onTile plain) 0x2000 16 Need.store).2.mem.dirty = [] :=
  ⟨by decide, ⟨_, rfl, by decide⟩, by decide, by decide, by decide, by decide, by decide, by decide, by decide, by decide⟩

theorem witness_atomics : (∃ f, atomicOf (.amocas .n64 .package 3 2 1) = some (.n64, 3, 2, 1, f)) ∧
    accessCause (onTile plain) (wideAt 0x2000) 0x2000 8 0x103 true = none ∧
    (place (onTile plain) 0x2000 8 Need.both).isSome = true ∧
    (placed (onTile plain) 0x2000 8 Need.both).2.mayIssue (stackOf 72) (placed (onTile plain) 0x2000 8 Need.both).1 = true ∧
    (placed (onTile plain) 0x2000 8 Need.both).2.sealGood (placed (onTile plain) 0x2000 8 Need.both).1 = true ∧
    (placed (onTile plain) 0x2000 8 Need.both).2.memWf = true := ⟨⟨_, rfl⟩, by decide, by decide, by decide, by decide, by decide⟩

/-- A core with a SYSTEM capability at a register, and at no place; a tile thread at its Sieve block, and at its window. -/
def registers (a : Nat) : State := core (thread4 0 0 0 0 (fwcap.setAddr (BitVec.ofNat 64 a)) {} 2)
/-- Context 1 with its root table at 0x4000 and its window at 0x10000, its thread above U. -/
def windows (a : Nat) : State :=
  let s := onTile (thread4 0 0 0 0 ((fwcap.withPerms 0x2903).setAddr (BitVec.ofNat 64 a)) {} 1)
  { s with contexts := [(1, { st := 3, epoch := 1, roottab := 0x4000, bwbase := 0x10000, bwlen := 0x10000 })] }
theorem witness_registers :
    accessCause (registers 0x0080000000000000) ((registers 0x0080000000000000).c 1) 0x0080000000000000 8 1 false = none ∧
    State.firmwarePlace 0x0080000000000000 = .register 0 ∧ State.firmwarePlace 0x0080000000FFFFF8 = .register 0xFFFFF8 ∧
    State.firmwarePlace 0x0080000001000000 = .nowhere ∧
    accessCause (registers 0x0080000001000000) ((registers 0x0080000001000000).c 1) 0x0080000001000000 8 1 false = none ∧
    accessCause (windows 0x4100) ((windows 0x4100).c 1) 0x4100 8 1 false = none ∧
    accessCause (windows 0x4100) ((windows 0x4100).c 1) 0x4100 8 2 true = none ∧
    (windows 0x4100).touchesSieve 1 0x41FF 1 = true ∧ (windows 0x4100).touchesSieve 1 0x4200 1 = false ∧
    accessCause (windows 0x10000) ((windows 0x10000).c 1) 0x10000 8 1 false = none ∧
    (windows 0x10000).touchesWindow 1 0x1FFFF 1 = true ∧ (windows 0x10000).touchesSieve 1 0x10000 8 = false ∧
    ((windows 0x10000).layer 0).bstate ≠ 2 ∧ ((windows 0x10000).layer 0).buf.poison.contains 0 = false := by decide

/-- Each kind of wait, unmet: a full queue, an empty one, an empty channel, a full one. -/
def full : State := (onTile plain).setUnit 9 0 { outq := [(1, List.replicate 16 {})] }
theorem witness_blocking : (∃ P, blockOf full (.ssend 1 1) = some (.outFree 1 1, true, P)) ∧ full.onCore = false ∧
    16 ≤ (full.outq (here full) (hereUnit full) 1).length ∧ (onTile plain).inq 9 0 1 = [] ∧
    (onTile plain).mayRecv 72 ((onTile plain).chanAt 72 64) = false ∧
    ({ onTile plain with chans := [((onTile plain).chanAt 72 64, { msgs := List.replicate 16 0 })] } : State).maySend 72
      ((onTile plain).chanAt 72 64) = false ∧
    (onTile stopping).th.stopReq = true ∧ (onTile plain).th.stopReq = false := ⟨⟨_, rfl⟩, by decide⟩

/-- Stream 1 of unit 0 is mapped by a helm port of the tile; nothing maps stream 2. -/
theorem witness_streams : sentBy (onTile plain) (.ssend 1 2) = some (2, 0, [{ data := 5 }]) ∧ (onTile plain).onCore = false ∧
    ((onTile plain).outq 9 0 2).length + 1 ≤ 16 ∧ (onTile plain).outMapped 9 0 2 = false ∧
    ((onTile plain).setSlot 9 57 { st := .armed, word := 0xCA000000, params := [(0x11, 66)] }).outMapped 9 0 2 = true ∧
    ((onTile plain).setUnit 9 0 { inq := [(1, [{ data := 7 }])] }).inq 9 0 1 = [{ data := 7 }] ∧
    ((onTile plain).outq 9 0 1) = [] ∧ ({ onTile plain with fc := 16 } : State).still 72 = true := by decide

theorem witness_messages : ((onTile plain).chan ((onTile plain).chanAt 72 64)).msgs.length < 16 ∧
    (onTile plain).waiters (.chanFree ((onTile plain).chanAt 72 64)) = [] ∧
    (onTile plain).maySend 72 ((onTile plain).chanAt 72 64) = true ∧
    ({ onTile plain with chans := [((onTile plain).chanAt 72 64, { msgs := [7] })] } : State).mayRecv 72
      ((onTile plain).chanAt 72 64) = true := by decide

/-- An L1 line of port tile 8 with the bytes at 0x2000's place; whether it is still held is open, so its witness takes it as given. -/
theorem witness_l1 (p : Phys) (l : L1Line) (s : State) (n : Nat) (h : Config.l1Held (p.key / 64) s.fresh = true)
    (hl : s.l1At n p = some l) : s.l1Serves n p = true := by
  unfold State.l1Serves; rw [hl, h]; rfl
/-- SLOAD of a tagged capability without STREAM; a window that no sweep filters; what a thread with a stop and streams to send is. -/
theorem witness_other_forms :
    ¬streamable (onTile { plain with c := plain.c.set 1 ((wideAt 0).withPerms 3) }) (.sload 1 1 2) ∧ streamable (onTile plain) (.sload 1 1 2) ∧
    (windows 0x10000).checkOn 1 = false ∧ full.unitDrained 72 = false ∧ (onTile plain).unitDrained 72 = true := by
  unfold streamable; decide

/-! ## Witnesses: engines, barriers, groups, system -/

/-- A tile thread with STREAM and the rest in c1 and c2 and a request word in g1. -/
def asks (w : Word) : State := onTile (thread4 w 4 0 0 (wideAt 0x2000) (wideAt 0x2400) 1)
/-- A copy of 64 bytes with no notice; one of 0 bytes; a collective over barrier 3. -/
theorem witness_engines :
    requestOf (asks 0x4000FF) (.ecopy 1 2 1) = some (0, wideAt 0x2000, wideAt 0x2400, 0x4000FF) ∧
    ¬badRequest (asks 0x4000FF) (.ecopy 1 2 1) ∧ badRequest (asks 0xFF) (.ecopy 1 2 1) ∧
    badRequest (asks 0x100004000FF) (.ecopy 1 2 1) ∧
    (asks 0x4000FF).requestFault 0 (wideAt 0x2000) (wideAt 0x2400) 0x4000FF = none ∧ (asks 0x4000FF).unitRequests 72 < 8 ∧
    (asks 0x4000FF).requestFault 0 {} (wideAt 0x2400) 0x4000FF ≠ none ∧
    ¬badRequest (asks 0x4000030000FF) (.ecoll 1 2 1) ∧ badRequest (asks 0x080000FF) (.ecoll 1 2 1) ∧
    ¬badRequest (asks 0x40000000FF) (.egather 1 2 1) ∧ badRequest (asks 0x500FF) (.egather 1 2 1) ∧
    ((asks 0).setTile 9 { (asks 0).tile 9 with barriers := [(3, { valid := true })] }).barrier 9 3 = { valid := true } := by
  simp only [badRequest]; repeat' apply And.intro
  all_goals decide

/-- Barrier 3 of tile 9 as given. -/
def barrierIs (b : Barrier) : State := (onTile plain).setTile 9 { (onTile plain).tile 9 with barriers := [(3, b)] }
theorem witness_barriers : (barrierIs { valid := true }).barrier 9 3 = { valid := true } ∧ ((barrierIs {}).barrier 9 3).valid = false ∧
    BarScope.group.code ≠ 2 ∧ BarScope.tile.code = 2 ∧ ((barrierIs {}).tile 9).replies = [] ∧
    ((barrierIs { valid := true, pv := true }).barrier 9 3).pv ≠ (barrierIs { valid := true, pv := true }).apBit 72 3 ∧
    (barrierIs {}).th.arrived = false ∧ (onTile { plain with arrived := true }).th.arrived = true := by decide

/-- c1 is the Beacon root at 0x10000 of context 1, whose window lies there. -/
def broadcasts (w : Word) : State :=
  { windows 0 with threads := [(72, thread4 w 0 0 0 ((State.capOver 0x10000 0x10000 0x88F).setAddr 0x10000) {} 1)] }
theorem witness_beacon : State.bcstArg 0x100020400 = false ∧ field 0x100020401 0 6 ≠ 0 ∧ field 0x40100000000 43 21 = 0 ∧
    65536 < field 0x10000FFC0 0 16 + 64 * (field 0x10000FFC0 32 11 + 1) ∧
    (broadcasts 0x100020400).bcstFault ((broadcasts 0x100020400).c 1) 2 = none ∧
    (broadcasts 0).bcstFault {} 2 = some .tag ∧ ((broadcasts 0).unit 9 0).bcst.length < 4 ∧ (broadcasts 0).beaconDone 72 = true ∧
    (core plain).onCore = true := by decide

/-- Queue 3 of context 1, enabled and ready. -/
def queued : State := { onTile plain with queues := [(3, { bound := true, ctx := 1, st := 1 })] }
theorem witness_queues : accessCause queued ((wideAt 0x2000).withPerms 1) 0x2000 64 0x21 false ≠ none ∧
    accessCause queued ((wideAt 0x2000).withPerms 0x61) 0x2000 64 0x21 false = none ∧
    (place queued 0x2000 64 Need.load).isSome = true ∧ pushAnswer queued 3 false = 0 ∧ pushAnswer queued 4 false = 2 ∧
    (queued.queue 3).bound = true ∧ (queued.queue 3).ctx = queued.ctx ∧ ¬((queued.queue 4).bound = true) := by decide

/-- A G-level thread that commands group 5, whose queue 0 is bound to context 1. -/
def commands : State :=
  { onTile (thread4 5 0 (2 ^ 40) 6 {} {} 1) with queues := [(0, { bound := true, ctx := 1, st := 1, lseq := 6 })] }
theorem witness_groups : commandOf commands (.gcut 1 1) = some (5, 0, 3, 1, true) ∧ commands.low = false ∧
    commandAnswer commands 5 0 true = 0 ∧ commandAnswer commands (2 ^ 40) 0 true = 1 ∧ commandAnswer commands 6 0 true = 3 ∧
    commandAnswer commands 5 0x8000 true = 1 ∧ commandAnswer commands 5 0x8000 false = 0 ∧
    commands.commandsRecorded 72 = true ∧ field (2 ^ 40) 40 24 ≠ 0 ∧ (commands.queue 0).bound = true ∧
    (commands.queue 0).ctx = commands.ctx ∧ find commands.groups 6 = none ∧ (commands.group 5).ctx = commands.ctx ∧
    (commands.group 5).st ≠ .retired ∧ (commands.group 5).origin < 2 ^ 11 ∧ (commands.group 5).lcmd < 8 ∧
    (commands.group 5).lres < 256 := by decide

/-- A thread with a scrub pending; a line held dirty for context 1. -/
def dirtyLine : State := { onTile plain with mem := { dirty := [(128, { ctx := 1, bytes := List.replicate 64 0 })] } }
theorem witness_fences : commands.low = false ∧ (∀ i ∈ commands.invals, i.thread ≠ commands.cur) ∧
    (onTile { plain with scrub := true }).th.scrub = true ∧ (onTile plain).th.scrub = false ∧ (onTile plain).g 4 = 0 ∧
    (onTile plain).g 1 ≠ 0 ∧ (onTile plain).th.st = .ready := by decide
theorem witness_discards : (0 : Nat) % 64 = 0 ∧ (2 ^ 24) % 64 = 0 ∧ (2 ^ 24 + 64) > 2 ^ 24 ∧
    (onTile plain).accessFault (wideAt 0x2000) 0x2000 64 permStore 64 true = none ∧
    (onTile plain).accessFault {} 0x2000 64 permStore 64 true = some .tag ∧
    (match (onTile plain).ldiscLines .discard 0x2000 1 with | .ok _ => true | .error _ => false) = true ∧
    dirtyLine.memWf = true ∧ (∃ h, find dirtyLine.mem.dirty 128 = some h ∧ h.ctx = 1 ∧ h.bytes.length = 64) :=
  ⟨by decide, by decide, by decide, by decide, by decide, by decide, by decide, ⟨_, rfl, rfl, rfl⟩⟩
/-- Whether a line is held is open, so its witness takes it as given. -/
theorem witness_held (h : Config.lineHeld 128 0 = true) : Config.lineHeld (128 * 64 / 64) dirtyLine.fresh = true := h
theorem witness_invalidations : commands.low = false ∧ (core plain).onCore = true ∧ (commands.context 1).st ≠ 0 ∧
    (commands.context 2).st = 0 ∧ field ((core { plain with g := regs4 0x7F 0 0 0 }).g 1) 0 7 = 127 := by decide

theorem witness_special : (kLevels .ylim).2 ≤ (core (thread4 1000 0 0 0 {} {} 2)).th.priv.toNat ∧ KReg.ylim ≠ .faultq ∧
    (kLevels .faultq).2 ≤ (core (thread4 1000 0 0 0 {} {} 2)).th.priv.toNat ∧
    (kLevels .faultq).2 ≤ commands.th.priv.toNat ∧ commands.onCore = false := by decide

/-- A core that names context 7, which is in state st. -/
def manages (x : Nat) (st : Nat) : State :=
  { core (thread4 (BitVec.ofNat 64 x) 0 0 0 {} {} 2) with contexts := [(127, { st })] }
theorem witness_contexts : (manages 127 2).onCore = true ∧ ((manages 127 2).g 1).toNat = 127 ∧ ((manages 128 2).g 1).toNat = 128 ∧
    ((manages 127 2).context 127).st = 2 ∧ ((manages 127 3).context 127).st = 3 ∧ ((manages 127 5).context 127).st = 5 ∧
    ((manages 127 2).context 127).part < 32 ∧ ((manages 127 2).ownedTiles 127).length < 1024 := by decide

theorem witness_traps : (onTile plain).th.inTrap = false ∧ (onTile { plain with inTrap := true }).th.inTrap = true ∧
    State.capOver 0x3000 0x100 0x811 ≠ {} ∧ ((onTile plain).context 1).tecap = {} ∧ (0xFF : Nat) < 256 := by decide
theorem witness_returns : commands.low = false ∧ commands.th.inTrap = false ∧ (onTile { plain with inTrap := true, priv := 1 }).low = false ∧
    (onTile plain).low = true ∧ (onTile plain).th.stopReq = false ∧ (onTile stopping).th.stopReq = true ∧ (0xFF : BitVec 8) ≠ 0 := by decide
theorem witness_illegal : (core (thread4 0 0 0 0 {} {} 2)).onCore = true ∧ (encodeHelm .sbar).isSome = true ∧ tileOnlyInstr .sbar ∧
    (onTile plain).th.priv.toNat < levelOf .tret ∧ (encodeHelm .tret).isSome = true :=
  ⟨by decide, by decide, trivial, by decide, by decide⟩
/-! ## Witnesses: elements -/

/-- Slot 0 of tile 9 ARMED with an element word, a profile of one format, ports and parameters, and the word's turn. -/
def element (w : Nat) (f : Nat) (x : Slot) : State :=
  { onTile plain with
    curTile := 9, curSlot := 0,
    tiles := [(9, { owner := some 1, group := some 5, configured := true, profile := [f, f, f, f, f, f, f, f],
                    slots := [(0, { x with st := .armed, word := BitVec.ofNat 32 w, owner := some 1 })] })] }
/-- A data beat at a port. -/
def at1 (v : Word) : List Arrived := [{ beat := { data := v } }]
/-- Beats at a port. -/
def ats (l : List Beat) : List Arrived := l.map fun b => { beat := b }
/-- The fields of a word with CX slot 1 port A and no CY. -/
def toOne (fsel : Fin 8) : ElemArgs := { fsel, rep := 0, cx := 8, cy := 0x1FF }

/-- The acting slot may fire, as far as its state and room go. -/
def readyFor (s : State) (f : Firing) : Prop :=
  (s.el.st = .armed ∨ s.el.st = .gated) ∧ s.el.held = false ∧ s.el.word = BitVec.ofNat 32 (f.op * 2 ^ 24 + f.args.bits) ∧
  State.hasRoom s.el f.lat = true

/-- add on .i32 lanes, with both operands. -/
def adds : State := element (0x01000000 + (toOne 0).bits) 0x03 { portA := at1 5, portB := at1 7 }
theorem witness_element : ∃ f, firingOf (.elAdd (toOne 0)) = some f ∧ readyFor adds f ∧
    (∀ o < 4, ((adds.el.port o).headD {}).beat.cfg = false) ∧
    (∀ o ∈ [0, 1], adds.el.src o = 0 ∧ adds.el.copies ≤ (avail (adds.el.port o)).length ∧
      (operand adds.el o 0).poi = false ∧ (operand adds.el o 0).kind ≠ .loopend) := by
  unfold readyFor; exact ⟨_, rfl, by decide, by decide, by decide⟩
theorem witness_integer_lane : (∃ R, integerLane (.elAdd (toOne 0)) = some R) ∧ ((adds.tile 9).fmt adds.el.fsel).kind = .int :=
  ⟨⟨_, rfl⟩, by decide⟩
/-- bfx of bits 5 to 31 of .n32 lanes: the highest field that fits. -/
def fields : State := element (0x36000000 + (toOne 0).bits) 0x07 { portA := at1 5, params := [(0x13, 5 * 64 + 26)] }
theorem witness_bits : (∃ R, bitLane fields.el (.elBfx (toOne 0)) = some R) ∧ (∃ g, wholeOf (.elMov (toOne 0)) = some g) ∧
    ((fields.tile 9).fmt fields.el.fsel).kind = .int ∧ bfPos fields.el + bfLen fields.el < ((fields.tile 9).fmt fields.el.fsel).w :=
  ⟨⟨_, rfl⟩, ⟨_, rfl⟩, by decide, by decide⟩
theorem witness_floating : (∃ f, exactOf .ne (.elFma (toOne 0)) = some f) ∧ (∃ f, functionOf (.elFexp2 (toOne 0)) = some f) ∧
    ((element 0x10000000 0x11 {}).tile 9 |>.fmt 0).kind = .float := ⟨⟨_, rfl⟩, ⟨_, rfl⟩, by decide⟩
theorem witness_selections : (∃ R, floatLane (.elFmin (toOne 0)) = some R) ∧ (∃ R, compareLane (.elCmplt (toOne 0)) = some R) ∧
    ((element 0x16000000 0x14 {}).tile 9 |>.fmt 0).kind = .e ∧ ((element 0x22000000 0x09 {}).tile 9 |>.fmt 0).kind = .bits :=
  ⟨⟨_, rfl⟩, ⟨_, rfl⟩, by decide, by decide⟩
/-- cvt from .f32 to .i8 by entry 1 of its profile. -/
def converter : State :=
  let s := element (0x38000000 + (toOne 0).bits) 0x11 { portA := at1 5, params := [(0x11, 1)] }
  s.setTile 9 { s.tile 9 with profile := [0x11, 0x01] }
theorem witness_conversions : (∃ P, conversion converter.el (.elCvt (toOne 0)) = some P) ∧
    convertible ((converter.tile 9).env converter.el) (.elCvt (toOne 0)) := by
  refine ⟨⟨_, rfl⟩, ?_⟩; unfold convertible convertible.plain; decide

/-- A LOOPEND of dimension 2 at both operands; one at the first alone; a poisoned operand. -/
theorem witness_loopends : (operand (element 0x01000000 3 { portA := ats [loopOf 2], portB := ats [loopOf 2] }).el 0 0) = loopOf 2 ∧
    (operand (element 0x01000000 3 { portA := ats [loopOf 2], portB := at1 1 }).el 1 0).kind ≠ .loopend ∧
    (operand (element 0x01000000 3 { portA := ats [{ poi := true }], portB := at1 1 }).el 0 0).poi = true := by decide

/-! ## Witnesses: firing rules, routing, sequencers, reductions, slabs -/

/-- An element of code op over .i32 lanes. -/
def bears (op : Nat) (x : Slot) : State := element (op * 2 ^ 24 + (toOne 0).bits) 0x03 x
/-- A capability pair at a port. -/
def aPair : List Beat := [{ data := 7, kind := .caplo, tag := true }, { data := 8, kind := .caphi }]
/-- A poisoned beat. -/
def bad : Beat := { poi := true }

theorem witness_idle : firingOf (.elAdd (toOne 0)) ≠ none ∧ (State.reset.el.st = .empty) ∧
    (let s := bears 1 { portA := ats [{ cfg := true }] }
     s.el.st = .armed ∧ s.el.word = BitVec.ofNat 32 (1 * 2 ^ 24 + (toOne 0).bits) ∧ ((s.el.port 0).headD {}).beat.cfg = true) ∧
    (let s := bears 1 {}
     s.el.st = .armed ∧ (avail (s.el.port 0)).length < s.el.copies) := by decide

theorem witness_routing :
    (let s := bears 0x50 { portA := at1 5, portP := at1 0 }
     canTurn s 0x50 (toOne 0) ∧ unitAt s.el 0 [{ data := 5 }] ∧ headed s.el 3 { data := 0 } ∧ ordinaryUnit [{ data := 5 }]) ∧
    (let s := bears 0x52 { portA := ats aPair, portP := at1 1 }
     canTurn s 0x52 (toOne 0) ∧ unitAt s.el 0 aPair ∧ headed s.el 3 { data := 1 } ∧ ordinaryUnit aPair) ∧
    (let s := bears 0x54 { portA := ats [loopOf 5] }
     canTurn s 0x54 (toOne 0) ∧ headed s.el 0 (loopOf 5) ∧ (loopOf 5).kind = .loopend) ∧
    (let s := bears 0x51 { portP := ats [bad] }
     canTurn s 0x51 (toOne 0) ∧ s.el.run.isOpen = false ∧ headed s.el 3 bad) ∧
    (let s := bears 0x51 { portB := ats aPair, run := { isOpen := true } }
     canTurn s 0x51 (toOne 0) ∧ unitAt s.el 1 aPair) := by
  unfold canTurn unitAt headed
  refine ⟨⟨by decide, .inl ⟨_, rfl, ⟨_, _, rfl, rfl, rfl, by decide⟩, by decide⟩, ⟨_, _, rfl, rfl, rfl, by decide⟩, by simp [ordinaryUnit]⟩,
    ⟨by decide, .inr ⟨_, _, _, rfl, rfl, rfl, rfl, rfl, rfl⟩, ⟨_, _, rfl, rfl, rfl, by decide⟩, by simp [ordinaryUnit, aPair]⟩,
    ⟨by decide, ⟨_, _, rfl, rfl, rfl, by decide⟩, rfl⟩, ⟨by decide, rfl, ⟨_, _, rfl, rfl, rfl, by decide⟩⟩,
    ⟨by decide, .inr ⟨_, _, _, rfl, rfl, rfl, rfl, rfl, rfl⟩⟩⟩

theorem witness_by_turns :
    (let s := bears 0x54 { portA := at1 5, run := { cnt := 1 } }
     canTurn s 0x54 (toOne 0) ∧ headed s.el 0 { data := 5 } ∧ ¬s.el.run.cnt < s.el.param 0x2E 1) ∧
    (let s := bears 0x5B { portA := at1 5 }
     canTurn s 0x5B (toOne 0) ∧ headed s.el 0 { data := 5 }) ∧
    (let s := bears 0x5A { portB := at1 5, run := { turn := true } }
     canTurn s 0x5A (toOne 0) ∧ s.el.run.turn = true ∧ headed s.el 1 { data := 5 }) ∧
    (let s := bears 0x5A { portA := ats [loopOf 1], portB := ats [loopOf 1] }
     canTurn s 0x5A (toOne 0) ∧ s.el.run.turn = false ∧ headed s.el 0 (loopOf 1) ∧ headed s.el 1 (loopOf 1)) ∧
    (let s := bears 0x53 { portA := ats aPair }
     canFire s ⟨0x53, toOne 0, [], 1⟩ ∧ firstUnits s.el.copies s.el.portA = some [aPair]) := by
  unfold canTurn headed canFire
  refine ⟨⟨by decide, ⟨_, _, rfl, rfl, rfl, by decide⟩, by decide⟩, ⟨by decide, ⟨_, _, rfl, rfl, rfl, by decide⟩⟩,
    ⟨by decide, rfl, ⟨_, _, rfl, rfl, rfl, by decide⟩⟩,
    ⟨by decide, rfl, ⟨_, _, rfl, rfl, rfl, by decide⟩, ⟨_, _, rfl, rfl, rfl, by decide⟩⟩, by decide⟩

theorem witness_sequencers :
    (let s := bears 0x55 { portA := at1 6, run := { cnt := 1, beats := [{ data := 5 }] }, params := [(0x2F, 2)] }
     canTurn s 0x55 (toOne 0) ∧ headed s.el 0 { data := 6 } ∧ s.el.run.beats.length = min 1 1 ∧ s.el.param 0x2F 1 % 65536 ≤ 1 + 1) ∧
    (let s := bears 0x56 { portA := ats [{ data := 6, kind := .tail }], params := [(0x2F, 1 + 2 ^ 19 + 5 * 65536)] }
     canTurn s 0x56 (toOne 0) ∧ headed s.el 0 { data := 6, kind := .tail }) ∧
    (let s := bears 0x57 { run := { isOpen := true, held := [(0x20, 3), (0x26, 1)], idx := [2] } }
     canTurn s 0x57 (toOne 0) ∧ s.el.run.isOpen = true ∧ s.el.run.loopDue = none) ∧
    (let s := bears 0x57 { run := { loopDue := some 2 } }
     canTurn s 0x57 (toOne 0) ∧ s.el.run.loopDue = some 2) ∧
    (let s := bears 0x57 { portA := at1 6, params := [(0x20, 3), (0x2D, 8)] }
     canTurn s 0x57 (toOne 0) ∧ s.el.run.isOpen = false ∧ s.el.run.loopDue = none ∧ (s.el.param 0x2D 6).testBit 3 = true ∧
       headed s.el 0 { data := 6 }) ∧
    (let s := bears 0x58 { run := { isOpen := true, held := [(0x20, 3)], idx := [2, 1] }, consts := [(2, 9)] }
     canTurn s 0x58 (toOne 0) ∧ s.el.run.isOpen = true) ∧
    canFire (bears 0x59 { consts := [(0, 9)] }) ⟨0x59, toOne 0, [], 1⟩ := by
  unfold canTurn headed canFire
  refine ⟨⟨by decide, ⟨_, _, rfl, rfl, rfl, by decide⟩, by decide, by decide⟩, ⟨by decide, ⟨_, _, rfl, rfl, rfl, by decide⟩⟩,
    ⟨by decide, rfl, rfl⟩, ⟨by decide, rfl⟩, ⟨by decide, rfl, rfl, by decide, ⟨_, _, rfl, rfl, rfl, by decide⟩⟩, ⟨by decide, rfl⟩, by decide⟩

/-- dota of two .i8 beats, the last of a run of two. -/
def dotted : State := element (0x41 * 2 ^ 24 + (toOne 0).bits) 0x01
  { portA := at1 5, portB := at1 7, run := { isOpen := true, cnt := 1, held := [(0x12, 2)] } }
/-- dotta of two beats of .t3 trits of code 242, the greatest. -/
def tritted : State := element (0x43 * 2 ^ 24 + (toOne 0).bits) 0x1E
  { portA := at1 242, portB := at1 242, params := [(0x11, 1)] }
/-- rsum at a LOOPEND of the dimension RDIM. -/
def closingRun : State := element (0x48 * 2 ^ 24 + (toOne 0).bits) 0x03
  { portA := ats [loopOf 1], run := { isOpen := true, cnt := 3, held := [(0x12, 2 ^ 32)] } }

theorem witness_reductions :
    (canTurn dotted 0x41 (toOne 0) ∧ reducible (runEnv dotted) (.elDota (toOne 0)) ∧ gives1 dotted.el 0 { data := 5 } ∧
      gives1 dotted.el 1 { data := 7 } ∧ dotted.el.run.accBits.toNat < 2 ^ (runEnv dotted).fmt.w ∧
      ¬(runLength dotted.el = 0 ∨ dotted.el.run.cnt + 1 < runLength dotted.el)) ∧
    (canTurn closingRun 0x48 (toOne 0) ∧ reducible (runEnv closingRun) (.elRsum (toOne 0)) ∧ closingRun.el.src 0 = 0 ∧
      headed closingRun.el 0 (loopOf 1) ∧ 0 < closingRun.el.run.cnt ∧
      ¬(loopOf 1).data.toNat % 8 < look 0 closingRun.el.run.held 0x12 / 2 ^ 32 % 8) := by
  unfold canTurn headed reducible gives1
  refine ⟨⟨by decide, by decide, ?_, ?_, by decide, by decide⟩, by decide, by decide, by decide, ⟨_, _, rfl, rfl, rfl, by decide⟩,
    by decide, by decide⟩
  · rw [if_pos (by decide)]; exact ⟨_, _, rfl, rfl, rfl, by decide⟩
  · rw [if_pos (by decide)]; exact ⟨_, _, rfl, rfl, rfl, by decide⟩

theorem witness_trits : canTurn tritted 0x43 (toOne 0) ∧
    (∀ j < 8, lane 8 (242 : Word).toNat j < 243) ∧ (runEnv tritted).fmt.kind = .t3 ∧ runLength tritted.el = 0 := by
  unfold canTurn; decide

/-- qmx from .f32 to an MX format, with 15 of its 16 beats held. -/
def quantising : State :=
  let s := element (0x3C * 2 ^ 24 + (toOne 0).bits) 0x11
    { portA := ats [{ kind := .tail }], params := [(0x11, 1)],
      run := { beats := { kind := .head } :: List.replicate 14 {} } }
  s.setTile 9 { s.tile 9 with profile := [0x11, 0x1A] }
theorem witness_slabs :
    (∃ op a cap ok, slabOp ((quantising.tile 9).env quantising.el) (.elQmx (toOne 0)) = some (op, a, cap, ok) ∧
      canTurn quantising op a ∧ quantising.el.run.beats.length + 1 ≤ cap ∧ ok (quantising.el.run.beats.length + 1) ∧
      ((quantising.tile 9).env quantising.el).out.kind = .mx) ∧
    (let s := element (0x3D * 2 ^ 24 + (toOne 0).bits) 0x1A { portA := ats [{ kind := .data }] }
     canTurn s 0x3D (toOne 0) ∧ headed s.el 0 { kind := .data } ∧ s.el.run.beats = [] ∧ ((s.tile 9).env s.el).fmt.kind = .mx) := by
  unfold canTurn headed
  exact ⟨⟨_, _, _, _, rfl, by decide, by decide, by decide, by decide⟩, by decide, ⟨_, _, rfl, rfl, rfl, by decide⟩, rfl, by decide⟩
theorem witness_scale : (∀ v ∈ [FVal.fin 1 0], (∃ n, v = .zero n) ∨ ∃ z k : Int, v = .fin z k ∧ z ≠ 0 ∧
      |(z : ℚ)| * (2 : ℚ) ^ k < (2 : ℚ) ^ ((0 : Int) + 1)) ∧
    (∃ z k : Int, FVal.fin z k ∈ [FVal.fin 1 0] ∧ (2 : ℚ) ^ (0 : Int) ≤ |(z : ℚ)| * (2 : ℚ) ^ k) := by
  refine ⟨?_, 1, 0, by simp, by simp⟩
  intro v hv; right; exact ⟨1, 0, by simpa using hv, by norm_num, by norm_num⟩

/-- add with beats that are ordinary, with a LOOPEND of dimension 5 at both ports, and with one at the first alone. -/
def both (a b : List Beat) : State := bears 1 { portA := ats a, portB := ats b }
/-- add's row. -/
def addRow : Firing := ⟨0x01, toOne 0, [0, 1], 1⟩
theorem witness_firings :
    (canFire (both [{ data := 5 }] [bad]) addRow ∧ ∀ b, takenBy (both [{ data := 5 }] [bad]).el addRow b → b.kind ≠ .loopend) ∧
    (canFire (both [loopOf 5] [loopOf 5]) addRow ∧ addRow.used (both [loopOf 5] [loopOf 5]).el ≠ [] ∧
      0 < (both [loopOf 5] [loopOf 5]).el.copies ∧
      ∀ b, takenBy (both [loopOf 5] [loopOf 5]).el addRow b → b.kind = .loopend ∧ b.data = BitVec.ofNat 64 5) ∧
    (canFire (both [loopOf 5] [loopOf 4]) addRow ∧ takenBy (both [loopOf 5] [loopOf 4]).el addRow (loopOf 5) ∧
      takenBy (both [loopOf 5] [loopOf 4]).el addRow (loopOf 4) ∧ (loopOf 5).kind = .loopend ∧
      (loopOf 4).data.toNat % 8 ≠ (loopOf 5).data.toNat % 8) := by
  unfold canFire takenBy
  refine ⟨⟨by decide, ?_⟩, ⟨by decide, by decide, by decide, ?_⟩, by decide, by decide, by decide, rfl, by decide⟩
  all_goals rintro b ⟨k, hk, o, ho, rfl⟩; revert k o; decide

/-- A LOOPEND heads port A of steer, gate, unzip and frame, which holds a beat. -/
theorem witness_passed_on :
    (∀ op ∈ [0x50, 0x52, 0x5B], canTurn (bears op { portA := ats [loopOf 5] }) op (toOne 0)) ∧
    (let s := bears 0x55 { portA := ats [loopOf 5], run := { cnt := 1, beats := [{ data := 5 }] } }
     canTurn s 0x55 (toOne 0) ∧ headed s.el 0 (loopOf 5) ∧ s.el.run.beats.length = min 1 1) := by
  unfold canTurn headed
  exact ⟨by decide, by decide, ⟨_, _, rfl, rfl, rfl, by decide⟩, by decide⟩

/-- qmx with a beat at port A and beats held; it drops the rest of a slab where drains names the port. -/
def slabbed (b : Beat) (l : List Beat) (d : List Nat) : State :=
  element (0x3C * 2 ^ 24 + (toOne 0).bits) 0x11 { portA := ats [b], run := { beats := l, drains := d } }
theorem witness_slab_turns :
    (canTurn (slabbed { kind := .head } [] []) 0x3C (toOne 0) ∧ slabBeat [] { kind := .head } 128) ∧
    (canTurn (slabbed (loopOf 5) [] []) 0x3C (toOne 0) ∧ headed (slabbed (loopOf 5) [] []).el 0 (loopOf 5)) ∧
    (canTurn (slabbed {} (List.replicate 128 {}) []) 0x3C (toOne 0) ∧ 128 ≤ (slabbed {} (List.replicate 128 {}) []).el.run.beats.length) ∧
    (canTurn (slabbed { kind := .tail } [] [0]) 0x3C (toOne 0) ∧ (slabbed { kind := .tail } [] [0]).el.run.drains = [0]) ∧
    256 / (64 / ((quantising.tile 9).env quantising.el).fmt.w) = 128 := by
  unfold canTurn headed slabBeat
  exact ⟨by decide, ⟨by decide, ⟨_, _, rfl, rfl, rfl, by decide⟩⟩, by decide +kernel, by decide, by decide⟩
theorem witness_open_scales : (∃ v ∈ [FVal.inf false], (∃ q, v = .nan q) ∨ ∃ n, v = .inf n) ∧
    ∀ v ∈ [FVal.zero true], ∃ n, v = .zero n :=
  ⟨⟨_, by simp, .inr ⟨false, rfl⟩⟩, fun v h => ⟨true, by simpa using h⟩⟩

/-! ## Witnesses: address generators, banks, islands -/

/-- The acting slot n of tile 9, ARMED, with op's word. -/
def slotted (n op f : Nat) (x : Slot) : State :=
  { element 0 f x with
    curSlot := n
    tiles := [(9, { owner := some 1, group := some 5, configured := true, profile := [f, f, f, f, f, f, f, f],
                    banks := [(0, {}), (1, {}), (2, {}), (3, {}), (4, {}), (5, {}), (6, {}), (7, {})],
                    slots := [(n, { x with st := .armed, word := BitVec.ofNat 32 (op * 2 ^ 24 + (toOne 0).bits), owner := some 1 }),
                              (41, { st := .armed, word := 0x66000000 })] })] }
/-- The run of a generator over all of memory from address 0, with BASE 0x2000, one counter of three at 1 with step 8, and AXSEL 1. -/
def nest : Run := { isOpen := true, cap := wide, idx := [1], held := [(0x10, 3), (0x16, 0x2000), (0x18, 8), (0x1E, 0x301)] }
/-- aamo.cas: AOP 9. -/
def swapping : Run := { nest with held := [(0x10, 3), (0x16, 0x2000), (0x18, 8), (0x1E, 0x9301)] }

/-- A generator without waiting requests can fire on decidable conditions. -/
theorem runFires_of (s : State) (op : Nat) (a : ElemArgs) (hr : s.el.run.reqs = [])
    (h : s.el.st ≠ .empty ∧ s.el.word = BitVec.ofNat 32 (op * 2 ^ 24 + a.bits) ∧ s.genReady s.curTile s.curSlot = true ∧
      s.el.run.isOpen = true ∧ s.el.run.stop = none ∧ s.el.run.capPoi = false ∧ look 0x300 s.el.run.held 0x1E < 65536 ∧
      ∀ o ∈ dataPorts op s.el.run, ∀ b ∈ (s.el.port o).take (generatorTakes s.el op o), b.beat.kind ≠ .loopend) :
    runFires s op a := by
  obtain ⟨h1, h2, h3, h4, h5, h6, h7, h8⟩ := h
  exact ⟨h1, h2, h3, h4, h5, h6, by simp [hr], h7, h8⟩

theorem witness_generators :
    (let s := slotted 4 0x60 0x03 { run := nest }
     runFires s 0x60 (toOne 0) ∧ s.el.run.loopDue = none ∧ (stepNest s.el.run.counts s.el.run.idx).2 = 0 ∧
     ∀ k < s.el.copies, accessPasses s 1 0x60 s.el.run (accessAt ((s.tile 9).fmt 0) 0x60 s.el.run k (unitsOf s.el 0x60 k)).1
       (accessAt ((s.tile 9).fmt 0) 0x60 s.el.run k (unitsOf s.el 0x60 k)).2 (accessPerms 0x60 s.el.run (unitsOf s.el 0x60 k))) ∧
    (let s := slotted 4 0x64 0x07 { run := swapping, portA := at1 0, portB := at1 5, portC := at1 6 }
     runFires s 0x64 (toOne 0) ∧ (((unitsOf s.el 0x64 0).headD []).headD {}).poi = false ∧
     ∀ k < s.el.copies, accessPasses s 1 0x64 s.el.run (accessAt ((s.tile 9).fmt 0) 0x64 s.el.run k (unitsOf s.el 0x64 k)).1
       (accessAt ((s.tile 9).fmt 0) 0x64 s.el.run k (unitsOf s.el 0x64 k)).2 (accessPerms 0x64 s.el.run (unitsOf s.el 0x64 k))) := by
  exact ⟨⟨runFires_of _ _ _ rfl (by decide), by unfold accessPasses; decide⟩,
    ⟨runFires_of _ _ _ rfl (by decide), by unfold accessPasses; decide⟩⟩
theorem witness_offsets :
    (let s := slotted 4 0x65 0x03 { run := nest }
     runFires s 0x65 (toOne 0) ∧ s.el.run.reqs = [] ∧ ∀ k < s.el.copies, 0 ≤ nestOffset s.el.run k ∧ nestOffset s.el.run k < 65536) ∧
    (let s := slotted 4 0x60 0x03 { run := { nest with cap := { nest.cap with tag := false } } }
     runFires s 0x60 (toOne 0) ∧ ¬accessPasses s 1 0x60 s.el.run (accessAt ((s.tile 9).fmt 0) 0x60 s.el.run 0 (unitsOf s.el 0x60 0)).1
       (accessAt ((s.tile 9).fmt 0) 0x60 s.el.run 0 (unitsOf s.el 0x60 0)).2 (accessPerms 0x60 s.el.run (unitsOf s.el 0x60 0))) ∧
    (let s := slotted 4 0x60 0x03 { run := { nest with loopDue := some 5 } }
     runFires s 0x60 (toOne 0) ∧ s.el.run.loopDue = some 5 ∧ s.el.run.reqs = []) := by
  exact ⟨⟨runFires_of _ _ _ rfl (by decide), by decide⟩, ⟨runFires_of _ _ _ rfl (by decide), by unfold accessPasses; decide⟩,
    ⟨runFires_of _ _ _ rfl (by decide), by decide⟩⟩
theorem witness_opening :
    (let s := slotted 4 0x60 0x03 { portP := ats aPair }
     s.el.st ≠ .empty ∧ s.el.word = BitVec.ofNat 32 (0x60 * 2 ^ 24 + (toOne 0).bits) ∧ s.genReady s.curTile s.curSlot = true ∧
     s.el.run.isOpen = false ∧ s.el.run.loopDue = none ∧ s.el.run.stop = none ∧ s.el.portP.length = 2) ∧
    (let s := slotted 40 0x66 0x03 { portA := at1 0x2000 }
     s.el.st ≠ .empty ∧ s.el.word = BitVec.ofNat 32 (0x66 * 2 ^ 24 + (toOne 0).bits) ∧ s.genReady s.curTile s.curSlot = true ∧
     headed s.el 0 { data := 0x2000 }) := by
  unfold headed; exact ⟨by decide, by decide, by decide, by decide, ⟨_, _, rfl, rfl, rfl, by decide⟩⟩

/-- The last offset of the default window for 8 bytes. -/
def lastOffset : List Arrived := at1 65528
theorem witness_banks :
    (let s := slotted 32 0x80 0x03 { portA := lastOffset, portB := at1 0 }
     bankFires s 0x80 (toOne 0) [0] (fun _ k => [beatAt s.el 0 k])) ∧
    (let s := slotted 32 0x81 0x03 { portA := lastOffset, portB := ats aPair, portC := at1 0 }
     bankFires s 0x81 (toOne 0) [0, 1, 2] (fun p k => if p = 1 then aPair else [beatAt s.el p k])) ∧
    (let s := slotted 32 0x82 0x03 { portA := lastOffset, portB := at1 5, params := [(0x11, 0x10)] }
     bankFires s 0x82 (toOne 0) [0, 1] (fun p k => if p = 2 then [] else [beatAt s.el p k]) ∧ aopOf s.el ≠ 9) ∧
    (let s := slotted 32 0x87 0x03 { portA := at1 5, params := [(0x11, 0xC)] }
     bankFires s 0x87 (toOne 0) [0] (fun p k => [beatAt s.el p k]) ∧ tableWidth s.el = 64) := by
  unfold bankFires banksOwned ordinaryUnit; exact ⟨by decide, by decide, by decide, by decide⟩
theorem witness_bank_buffers :
    (let s := slotted 32 0x83 0x03 { portA := ats aPair, run := { beats := [{ data := 1 }] } }
     canTurn s 0x83 (toOne 0) ∧ unitAt s.el 0 aPair ∧ aPair.length ≤ (windowOf s.el).2 / 8 - s.el.run.beats.length) ∧
    (let s := slotted 32 0x84 0x03 { portA := ats [loopOf 5], portC := ats [loopOf 5], params := [(0x11, 0x500)], run := { swapped := true } }
     canTurn s 0x84 (toOne 0) ∧ banksOwned s ∧ headed s.el 0 (loopOf 5) ∧ s.el.param 0x11 0 / 256 % 8 ≤ (loopOf 5).data.toNat % 8 ∧
     s.el.run.swapped = true ∧ headed s.el 2 (loopOf 5)) ∧
    (let s := slotted 32 0x84 0x03 { portC := at1 8, run := { swapped := true } }
     canTurn s 0x84 (toOne 0) ∧ banksOwned s ∧ s.el.portA = [] ∧ headed s.el 2 { data := 8 }) ∧
    (let s := slotted 32 0x84 0x03 { portA := at1 8, portB := at1 5 }
     canTurn s 0x84 (toOne 0) ∧ s.el.portC = [] ∧ headed s.el 0 { data := 8 } ∧ unitAt s.el 1 [{ data := 5 }] ∧
     (placeIn { data := 8 } 8 8 ((windowOf s.el).1 + 0) ((windowOf s.el).2 / 2)).isSome = true) ∧
    (let s := slotted 32 0x85 0x03 { portA := at1 (BitVec.ofNat 64 (7 * 2 ^ 49 + 8 * 2 ^ 32 + 65528 * 2 ^ 16 + 0)) }
     canTurn s 0x85 (toOne 0) ∧ s.el.run.command = none) ∧
    (let s := slotted 32 0x86 0x03 { portA := at1 (BitVec.ofNat 64 (65536 * 2 ^ 16 + 0)) }
     canTurn s 0x86 (toOne 0) ∧ s.el.run.command = none) := by
  unfold canTurn unitAt headed banksOwned
  refine ⟨⟨by decide, .inr ⟨_, _, _, rfl, rfl, rfl, rfl, rfl, rfl⟩, by decide⟩,
    ⟨by decide, by decide, ⟨_, _, rfl, rfl, rfl, by decide⟩, by decide, rfl, ⟨_, _, rfl, rfl, rfl, by decide⟩⟩,
    ⟨by decide, by decide, rfl, ⟨_, _, rfl, rfl, rfl, by decide⟩⟩,
    ⟨by decide, rfl, ⟨_, _, rfl, rfl, rfl, by decide⟩, .inl ⟨_, rfl, ⟨_, _, rfl, rfl, rfl, by decide⟩, by decide⟩, by decide⟩,
    by decide, by decide⟩

/-- mfifo with CX's queue full, and mdbuf at the first of its two LOOPENDs. -/
theorem witness_held_buffers :
    (let s := slotted 32 0x83 0x03 { portA := at1 5, out := [(8, {}), (8, {})] }
     canAct s 0x83 (toOne 0) ∧ State.roomFor s.el s.el.cx = false ∧ unitAt s.el 0 [{ data := 5 }] ∧
     1 ≤ (windowOf s.el).2 / 8 - s.el.run.beats.length) ∧
    (let s := slotted 32 0x84 0x03 { portA := ats [loopOf 0] }
     canTurn s 0x84 (toOne 0) ∧ banksOwned s ∧ headed s.el 0 (loopOf 0) ∧
     s.el.param 0x11 0 / 256 % 8 ≤ (loopOf 0).data.toNat % 8 ∧ s.el.run.swapped = false) := by
  unfold canAct canTurn unitAt headed banksOwned
  exact ⟨⟨by decide, by decide, .inl ⟨_, rfl, ⟨_, _, rfl, rfl, rfl, by decide⟩, by decide⟩, by decide⟩,
    by decide, by decide, ⟨_, _, rfl, rfl, rfl, by decide⟩, by decide, rfl⟩

/-- No net: every LUT gives 0. -/
theorem nothing_evaluates (x : Slot) (w : Nat) (h : x.luts = []) (hq : x.run.q = []) (ho : outMask x = 0) (hf : ffMask x = 0) :
    evaluates x w 0 0 := by
  refine ⟨0, ⟨by norm_num, fun i _ => ?_⟩, ?_⟩
  · have hz : look 0 x.luts i = 0 := by simp [h, look, find]
    rw [hz]; simp
  · refine ⟨by norm_num, by norm_num, fun j _ => ?_, fun j _ => ?_⟩ <;> simp [heldQ, hq, ho, hf, look, find]
theorem witness_islands :
    (let s := slotted 48 0x90 0x07 { portA := at1 5, portB := at1 6, portC := at1 7, params := [(0x15, 0x30)] }
     canFire s ⟨0x90, toOne 0, [], 2⟩ ∧ s.el.param 0x15 0x7F90 / 16 % 4 = 3 ∧ clean s.el) ∧
    (let s := slotted 48 0x91 0x07 { portA := ats [loopOf 5], params := [(0x15, 0x140)] }
     canFire s ⟨0x91, toOne 0, [], 2⟩ ∧ clean s.el ∧ beatAt s.el 0 0 = loopOf 5 ∧ s.el.param 0x15 0x7F90 / 64 % 8 = 5) := by
  unfold canFire clean; decide
theorem witness_bit_streams :
    (let s := slotted 48 0x92 0x07 { portA := at1 5, run := { bits := 1, bitLen := 1 } }
     clean s.el ∧ canTurn s 0x92 (toOne 0) ∧ headed s.el 0 { data := 5 } ∧ s.el.run.bits < 2 ^ s.el.run.bitLen ∧
     evaluates s.el 5 0 0) ∧
    (let s := slotted 48 0x93 0x07 { run := { beats := [{ data := 5 }] } }
     clean s.el ∧ canTurn s 0x93 (toOne 0) ∧ fieldWidth s.el ≤ bitCount s.el.run ∧ evaluates s.el 5 0 0) ∧
    (let s := slotted 48 0x94 0x07 { portA := at1 5, run := { beats := [{ data := 5 }], cnt := 1 } }
     clean s.el ∧ canTurn s 0x94 (toOne 0) ∧ s.el.run.isOpen = false ∧ headed s.el 0 { data := 5 } ∧ bitCount s.el.run < 64) := by
  unfold clean canTurn headed
  exact ⟨⟨by decide, by decide, ⟨_, _, rfl, rfl, rfl, by decide⟩, by decide, nothing_evaluates _ _ rfl rfl rfl rfl⟩,
    ⟨by decide, by decide, by decide, nothing_evaluates _ _ rfl rfl rfl rfl⟩,
    ⟨by decide, by decide, by decide, ⟨_, _, rfl, rfl, rfl, by decide⟩, by decide⟩⟩

/-- An island whose 64 LUTs copy A bit by bit. -/
def copying : Slot := { luts := (List.range 64).map fun i => (i, 0xAAAA * 2 ^ 32 + i), run := { beats := [{ data := 9 }] } }
theorem witness_decoder :
    (let s := slotted 48 0x94 0x07 copying
     clean s.el ∧ canTurn s 0x94 (toOne 0) ∧ s.el.run.isOpen = false ∧ 64 ≤ bitCount s.el.run) ∧ (9 : Nat) % 64 ≠ 0 := by
  unfold clean canTurn; decide

/-! ## Witnesses: online nodes, ports, the matrix node -/

/-- Digit codes 01 in every place: 32 digits of 1. -/
def ones : Word := 0x5555555555555555
/-- One whole stream of one token. -/
def oneToken (w : Word) : List Beat := [{ data := w, kind := .solo }]
/-- An online node whose stream is open. -/
def online (op : Nat) (r : Run) : State := slotted 20 op 0x09 { run := { r with isOpen := true } }

/-- An open stream with two empty digit ports. -/
theorem witness_online :
    (let s := online 0xA0 { accSet := true, acc := -5, pos := 32 }
     streams s 0xA0 (toOne 0) ∧ s.el.run.acc.natAbs < 2 ^ (32 * tokens s.el.run) ∧ s.el.run.cnt < tokens s.el.run ∧
     32 * (s.el.run.cnt + 1) ≤ s.el.run.pos) ∧
    (let s := online 0xA3 { beats := oneToken ones, beatsB := oneToken 0, pos := 32 }
     streams s 0xA3 (toOne 0) ∧ (∀ o ∈ [0, 1], s.el.port o = []) ∧ (∃ F, onlineOf s.el.run (.elOmul (toOne 0)) = some (0xA3, toOne 0, [0, 1], F)) ∧
     s.el.run.cnt < tokens s.el.run ∧ 32 * (s.el.run.cnt + 1) ≤ s.el.run.pos) ∧
    (let s := online 0xA1 { beats := oneToken ones }
     streams s 0xA1 (toOne 0) ∧ complete s.el.run.beats) ∧
    (let s := online 0xA6 { beats := oneToken ones, beatsB := oneToken 0, accSet := true }
     streams s 0xA6 (toOne 0) ∧ (if s.el.run.turn then s.el.run.beatsB else s.el.run.beats).drop s.el.run.cnt = { data := ones, kind := .solo } :: []) := by
  unfold streams canTurn complete
  refine ⟨⟨by decide, by decide, by decide, by decide⟩, ⟨by decide, by decide, ⟨_, rfl⟩, by decide, by decide⟩, ⟨by decide, ⟨_, rfl, by decide⟩⟩, by decide, by decide⟩

/-- Two streams of 32 digits that agree. -/
def agreeing (op : Nat) : State := online op { beats := oneToken ones, beatsB := oneToken ones }
/-- Their sign is 0, at the last digit: for ocmp, and for omax before its choice. -/
theorem witness_equal_streams : ∀ op ∈ [0xA5, 0xA6], streams (agreeing op) op (toOne 0) ∧ (agreeing op).el.run.accSet = false ∧
    decides (agreeing op).el.run 32 0 := by
  intro op ho
  have hr : (agreeing op).el.run = (agreeing 0xA5).el.run := by
    simp only [List.mem_cons, List.not_mem_nil, or_false] at ho
    rcases ho with rfl | rfl <;> decide
  have h : ∀ k, difference (agreeing 0xA5).el.run k = 0 := by
    intro k
    have e : exponent (agreeing 0xA5).el.run 0 = exponent (agreeing 0xA5).el.run 1 := by decide
    unfold difference; rw [e]; exact sub_self _
  rw [hr]
  refine ⟨by revert op; unfold streams canTurn; decide, by decide, ?_⟩
  refine ⟨?_, ?_, by norm_num, ?_, .inr (by decide), by rw [h]; simp⟩
  · exact .inl ⟨⟨_, rfl, by decide⟩, by decide⟩
  · exact .inl ⟨⟨_, rfl, by decide⟩, by decide⟩
  · intro k _ _ hc; unfold certain at hc; rw [h, abs_zero] at hc
    exact absurd hc (not_lt.mpr (by positivity))

/-- The edge port at edge 1 of tile 9 with op's word, parameters, and one beat on channel 2 there. -/
def edged (op : Nat) (t : Table Nat) : State :=
  let s := slotted 61 op 0x07 { params := t }
  s.setTile 9 { s.tile 9 with inch := [(10, at1 5)], permit := 0xF }
theorem witness_edges :
    (let s := edged 0xC3 [(0x10, 4), (0x13, 0xA)]
     edgeTurn s 0xC3 (toOne 0) 1 2 { beat := { data := 5 } } [] ∧ (s.el.param 0x10 0).testBit 2 = true ∧ s.el.param 0x13 0 % 16 = 8 + 2) ∧
    (let s := edged 0xC2 [(0x10, 4)]
     edgeTurn s 0xC2 (toOne 0) 1 2 { beat := { data := 5 } } [] ∧ (s.el.param 0x10 0).testBit 2 = true) ∧
    (let s := edged 0xC0 []
     edgeTurn s 0xC0 (toOne 0) 1 2 { beat := { data := 5 } } [] ∧ (s.el.param 0x10 0).testBit 2 = false) := by
  unfold edgeTurn canTurn inbound; decide
/-- eturn at edge 1 of tile 9 to its edge 0, where tile 10 of the group lies. -/
def passing : State :=
  let s := edged 0xC1 [(0x10, 4), (0x11, 0)]
  let t : State := { s with tiles := s.tiles ++ [(10, { owner := some 1, group := some 5, configured := true, permit := 0xF, row := 1, col := 0 })] }
  { t with groups := [(5, { ctx := 1, st := .firing, kernel := .live, tiles := [(0, 0, 9), (0, 1, 10)] })] }
theorem witness_passing : edgeTurn passing 0xC1 (toOne 0) 1 2 { beat := { data := 5 } } [] ∧
    passing.el.param 0x11 0 = 0 ∧ (passing.el.param 0x10 0).testBit 2 = true ∧ edgeOpen passing 0 2 10 ∧
    inbound passing 10 2 2 = [] := by
  unfold edgeTurn edgeOpen canTurn inbound; decide

/-- Helm port slots of unit 0: hin with port 1 mapped to stream 63, hout with stream 63 mapped to CX. -/
theorem witness_helm_ports :
    (let s := slotted 57 0xC8 0x07 { portB := ats aPair, params := [(0x10, (64 + 63) * 2 ^ 7)] }
     canTurn s 0xC8 (toOne 0) ∧ s.el.param 0x10 0 = (64 + 63) * 2 ^ (7 * 1) ∧ unitAt s.el 1 aPair ∧
     (s.inq 9 0 63).length + aPair.length ≤ 16) ∧
    (let t := slotted 57 0xC9 0x07 { params := [(0x11, 64 + 63)] }
     let s := t.setTile 9 { t.tile 9 with unit0 := { outq := [(63, [{ data := 5 }])] } }
     canTurn s 0xC9 (toOne 0) ∧ s.el.param 0x11 0 = (64 + 63) * 2 ^ (7 * 0) ∧ s.outq 9 0 63 = [{ data := 5 }]) := by
  unfold canTurn unitAt; exact ⟨⟨by decide, by decide, .inr ⟨_, _, _, rfl, rfl, rfl, rfl, rfl, rfl⟩, by decide⟩, by decide⟩
theorem witness_control_ports :
    (let s := slotted 59 0xCC 0x07 { portA := at1 5 }
     canTurn s 0xCC (toOne 0) ∧ headed s.el 0 { data := 5 }) ∧
    (let t := slotted 59 0xCD 0x07 { params := [(0x10, 7)] }
     let s := t.setTile 9 { t.tile 9 with tokens := [(7, 3)] }
     canTurn s 0xCD (toOne 0) ∧ (s.tile 9).tokens = (s.el.param 0x10 0, 3) :: []) ∧
    (let t := slotted 59 0xCE 0x07 { params := [(0x10, 7)] }
     let s := t.setTile 9 { t.tile 9 with waves := [7] }
     canTurn s 0xCE (toOne 0) ∧ s.el.param 0x10 0 ∈ (s.tile 9).waves) ∧
    (let t := slotted 59 0xCF 0x07 { params := [(0x10, 7)] }
     let s := t.setTile 9 { t.tile 9 with completions := [(7, true)] }
     canTurn s 0xCF (toOne 0) ∧ (s.tile 9).completions = (s.el.param 0x10 0, true) :: []) ∧
    (let t := slotted 59 0xCF 0x07 { portA := at1 1, params := [(0x10, 7)] }
     let s := t.setTile 9 { t.tile 9 with barriers := [(7, { valid := true })] }
     canTurn s 0xCF (toOne 0) ∧ (s.tile 9).completions = [] ∧ headed s.el 0 { data := 1 } ∧ (s.barrier 9 (s.el.param 0x10 0)).valid = true) := by
  unfold canTurn headed
  exact ⟨⟨by decide, ⟨_, _, rfl, rfl, rfl, by decide⟩⟩, by decide, by decide, by decide,
    ⟨by decide, rfl, ⟨_, _, rfl, rfl, rfl, by decide⟩, by decide⟩⟩

/-! ## The matrix node -/

/-- The node of tile 9 with formats FP32 by FP32 and blocks at its ports. -/
def node (op : Nat) (x : Slot) (m : Matrix) : State :=
  let s := slotted 56 op 0x11 x
  { s with curTile := 9, tiles := s.tiles.map fun e => (e.1, { e.2 with mat := m }) }
/-- MMA's fields: M = N = K = 1, ACC = 0. -/
def oneBlock : MatArgs := { buf := 0, acc := false, bt := false, chain := false, m := 1, n := 1, k := 1, dcvt := 0 }
/-- A block of n beats. -/
def block (n : Nat) : List Beat := [{ kind := .head }] ++ List.replicate (n - 2) ({} : Beat) ++ [{ kind := .tail }]

theorem witness_tokens :
    (let s := node 0xB0 { portP := at1 (BitVec.ofNat 64 (0xFF00000000000000)) } {}
     s.curSlot = 56 ∧ canTurn s 0xB0 (toOne 0) ∧ s.mat.work = none ∧ (s.group (s.handleOf 9)).st ≠ .cutting ∧
     headed s.el 3 { data := 0xFF00000000000000 } ∧ ∃ e, decodeMatrix (0xFF00000000000000 : Word).toNat = .error e) ∧
    (let s := node 0xB0 { portP := at1 (BitVec.ofNat 64 ((encodeMatrix (.mxMma oneBlock)).getD 0)) } {}
     canTurn s 0xB0 (toOne 0) ∧ headed s.el 3 { data := BitVec.ofNat 64 ((encodeMatrix (.mxMma oneBlock)).getD 0) } ∧
     ∃ j, decodeMatrix (BitVec.ofNat 64 ((encodeMatrix (.mxMma oneBlock)).getD 0)).toNat = .ok j) := by
  unfold canTurn headed
  exact ⟨⟨rfl, by decide, rfl, by decide, ⟨_, _, rfl, rfl, rfl, by decide⟩, ⟨_, rfl⟩⟩, by decide, ⟨_, _, rfl, rfl, rfl, by decide⟩, ⟨_, rfl⟩⟩
theorem witness_regions : nodeFree (node 0xB0 {} {}) ∧ inGrid (node 0xB0 {} {}) { oneBlock with m := 16, n := 16, k := 0 } ∧
    ({ oneBlock with k := 0 } : MatArgs).valid .region = true ∧ ({ oneBlock with k := 0 } : MatArgs).valid .store = true ∧
    oneBlock.valid .mma = true ∧ oneBlock.valid .mmab = true ∧ ({ oneBlock with m := 0 } : MatArgs).valid .bload = true ∧ oneBlock.valid .mark = true ∧
    ({ oneBlock with m := 0, n := 0, k := 0 } : MatArgs).valid .none = true ∧ ({ oneBlock with k := 0 } : MatArgs).valid .trn = true := by
  unfold nodeFree inGrid; decide
/-- Slabs that stand at A and B for ABIAS and for MMA of .e4m3 by .e4m3, and the array work over. -/
theorem witness_slabs_stand :
    slabsStand (node 0xB0 { portB := ats (block 8) } {}) 1 1 8 [block 8] ∧
    (let s0 := node 0xB0 { portA := ats (block 64), portB := ats (block 64) } { left := some 0 }
     let s := s0.setTile 9 { s0.tile 9 with profile := [0x14, 0x14, 0x14, 0x14, 0x14, 0x14, 0x14, 0x14] }
     arrayDone s ∧ plainPair s ((s.tile 9).fmt 0) ((s.tile 9).fmt 0) ∧ slabsStand s 0 1 64 [block 64] ∧ slabsStand s 1 1 64 [block 64]) := by
  unfold slabsStand arrayDone plainPair
  exact ⟨⟨by decide, by decide, by decide, ⟨ats (block 8), [], by decide, by decide, by decide⟩, by decide⟩, by decide, by decide,
    ⟨by decide, by decide, by decide, ⟨ats (block 64), [], by decide, by decide, by decide⟩, by decide⟩,
    ⟨by decide, by decide, by decide, ⟨ats (block 64), [], by decide, by decide, by decide⟩, by decide⟩⟩
/-- An xnodeb's store of one block of .e4m3 codes, for MMAB. -/
theorem witness_store : ∃ st : MatStore, st.n = oneBlock.n.toNat ∧ st.k = 1 ∧ (fmtOf st.entry).kind ≠ .mx ∧
    pairClass (fmtOf st.entry) = pairClass (fmtOf 0x14) ∧ st.blocks.length = oneBlock.n.toNat ∧ ∀ p ∈ st.poi, p = false :=
  ⟨{ n := 1, k := 1, entry := 0x14, blocks := [List.replicate 64 0], poi := [false] }, by decide⟩

/-- A poisoned token; a token whose operation's fields are not allowed; MMAS's operands at A, B and C. -/
theorem witness_other_tokens :
    (let s := node 0xB0 { portP := ats [bad] } {}
     canTurn s 0xB0 (toOne 0) ∧ headed s.el 3 bad ∧ bad.poi = true) ∧
    (matrixUse (.mxMma { oneBlock with m := 0 }) = some (.mma, { oneBlock with m := 0 }) ∧
      ({ oneBlock with m := 0 } : MatArgs).valid .mma = false) ∧
    (node 0xB1 {} {}).xs.op = 0xB1 ∧
    (let s0 := node 0xB2 { portA := ats (block 32), portB := ats (block 64), portC := ats (block 8) } { left := some 0 }
     let s := s0.setTile 9 { s0.tile 9 with profile := [0x14, 0x14, 0x14, 0x14, 0x14, 0x14, 0x14, 0x14] }
     s.xs.op = 0xB2 ∧ slabsStand s 0 1 32 [block 32] ∧ slabsStand s 1 1 64 [block 64] ∧ slabsStand s 2 1 8 [block 8]) := by
  unfold canTurn headed slabsStand
  exact ⟨⟨by decide, ⟨_, _, rfl, rfl, rfl, by decide⟩, rfl⟩, ⟨rfl, by decide⟩, by decide, by decide,
    ⟨by decide, by decide, by decide, ⟨ats (block 32), [], by decide, by decide, by decide⟩, by decide⟩,
    ⟨by decide, by decide, by decide, ⟨ats (block 64), [], by decide, by decide, by decide⟩, by decide⟩,
    ⟨by decide, by decide, by decide, ⟨ats (block 8), [], by decide, by decide, by decide⟩, by decide⟩⟩
/-! ## Witnesses: links, bring-up, power, partitions, functions, queues, registers -/

/-- Link n at y. -/
def linked (n : Nat) (y : Link) : State := { State.reset with links := [(n, y)] }
theorem witness_links :
    ((linked 79 { st := 3 }).link 79).st = 3 ∧ ((linked 79 { st := 3 }).link 79).unacked = [] ∧
    ((linked 79 { st := 2, unacked := [0] }).link 79).unacked ≠ [] ∧ ((linked 0 { st := 5 }).link 0).st = 5 ∧
    ((linked 0 { st := 6 }).link 0).st = 6 ∧ ((linked 0 { st := 4 }).link 0).st = 4 ∧
    ((linked 0 { st := 2, draining := true }).link 0).draining = true ∧
    (let s := linked 64 { st := 2, lastRx := 0, lastTx := 0 }
     let t := { s with fc := 65536 }
     (t.link 64).lastRx + 65536 ≤ t.fc ∧ (t.link 64).lastTx + 256 ≤ t.fc ∧ (t.link 64).draining = false) ∧
    (let y : Link := { st := 2, unacked := [5, 6], replays := [(5, 7)] }
     (5 ∈ (5 :: y.unacked.filter (5 < ·)) ∧ 8 ≤ (find (replayCounts y 5) 5).getD 0) ∧
       (∀ f ∈ 6 :: y.unacked.filter (6 < ·), (find (replayCounts y 6) f).getD 0 < 8)) ∧
    field (0x8000 : Word) 15 1 = 1 ∧ field (0x8000 : Word) 0 11 < linkLanes 79 + linkSpares 79 := by decide
theorem witness_trainings :
    trainsTo 0 (uncovered 0 {} []) 0 ∧ firstPart 0 (uncovered 0 {} []) 0 0 ∧ (0 ≤ ((linked 0 { st := 1 }).link 0).wmin) ∧
    (∀ w, trainsTo 79 (uncovered 79 {} []) w → w = 0) ∧
    (let s := { linked 79 { st := 1, trainAt := 0 } with fc := linkTimeout 79 }
     (s.link 79).trainAt + linkTimeout 79 ≤ s.fc) := by
  have h : ∀ n, avoids n [] 0 := fun n => ⟨0, by norm_num, by simp⟩
  have e : ∀ n, uncovered n {} [] = [] := by intro n; simp [uncovered]
  refine ⟨⟨by norm_num, by rw [e]; exact h 0, by simp⟩, ⟨by norm_num, by rw [e]; simp, by simp⟩, Nat.zero_le _, ?_, by decide⟩
  intro w hw
  rcases Nat.eq_zero_or_pos w with h0 | h0
  · exact h0
  · exact absurd (by rw [e]; exact h 79) (hw.2.2 0 h0)
theorem witness_ready : (State.reset.fc ≤ 2 ^ 27) ∧ (2 ^ 27 < ({ State.reset with fc := 2 ^ 27 + 1 } : State).fc) ∧
    (let s := { State.reset with lode := { State.reset.lode with mapGood := true, busy := false } }
     s.lode.mapGood = true ∧ s.lode.busy = false) ∧ State.reset.lode.ready = false ∧ State.reset.lode.mapGood = false ∧
    State.reset.lode.dmfail = false ∧ (portTilesOf 31)[0]?.isSome = true := by decide
/-- A defect map without faults for the package's own number: 12 bytes of header, 512 of bits, the signature. -/
def goodMap : List Byte :=
  toBytes 4 0x4D444C4F ++ (toBytes 8 Config.packageSerial.toNat ++ List.replicate 626 0)
theorem goodMap_unset (o : Nat) (ho : 12 ≤ o) (ho2 : o < 638) : goodMap.getD o 0 = 0 := by
  unfold goodMap
  rw [List.getD_eq_getElem?_getD, List.getElem?_append_right (by rw [length_toBytes]; omega),
    List.getElem?_append_right (by simp only [length_toBytes]; omega)]
  simp only [length_toBytes]
  rw [List.getElem?_replicate, if_pos (by omega)]; rfl
theorem witness_defect_map
    (h : ed448Verify (Config.otelKey 0) (goodMap.take 524) ((goodMap.drop 524).take 114) = true) : acceptable goodMap := by
  have hz : ∀ o, (o = 12 ∨ o = 268) → ∀ p, ¬mapped goodMap o p := by
    rintro o ho p ⟨hp, hb⟩
    rw [goodMap_unset (o + p / 8) (by omega) (by omega)] at hb
    simp at hb
  refine ⟨?_, ?_, ?_, h, ?_, ?_, ?_⟩
  · unfold goodMap; simp only [List.length_append, length_toBytes, List.length_replicate]; omega
  · unfold leAt goodMap
    rw [List.drop_zero, List.take_append_of_le_length (by rw [length_toBytes]), List.take_of_length_le (by rw [length_toBytes])]
    decide
  · have e : leAt goodMap 4 8 = Config.packageSerial.toNat := by
      unfold leAt goodMap
      rw [List.drop_append_of_le_length (by rw [length_toBytes]), List.drop_of_length_le (by rw [length_toBytes]),
        List.nil_append, List.take_append_of_le_length (by rw [length_toBytes]), List.take_of_length_le (by rw [length_toBytes]),
        fromBytes_toBytes]
      exact Nat.mod_eq_of_lt Config.packageSerial.isLt
    rw [e, BitVec.ofNat_toNat, BitVec.setWidth_eq]
  · rintro p (h | h)
    · exact absurd h (hz 12 (.inl rfl) p)
    · exact absurd h (hz 268 (.inr rfl) p)
  · intro p h; exact absurd h (hz 268 (.inr rfl) p)
  · intro l _ h
    cases l with
    | nil => simp
    | cons a _ => exact absurd (h a (by simp)) (hz 12 (.inl rfl) a)
theorem witness_power : field (0x400040 : Word) 0 7 ≤ 64 ∧ 1 ≤ field (0x400040 : Word) 16 7 ∧ field (0x400040 : Word) 16 7 ≤ 64 ∧
    64 < field (0x410041 : Word) 0 7 ∧ field (0x40 : Word) 16 7 = 0 := by decide

/-- A partition with a context and function 3 bound to it, and the context bound to the function. -/
def hosted (st : Nat) (y : Iface) : State :=
  { State.reset with
    parts := [(2, { valid := true, tiles := [9], heldReqs := [(0, [.evAdmission])] })], contexts := [(1, { st, part := 2, iface := some 3, epoch := 1 })],
    tiles := [(9, { owner := some 1 })], ifaces := [(3, { y with part := 2 })], queues := [(7, { vfv := true, vf := 3, bound := true, ctx := 1, st := 1 })] }
theorem witness_partitions :
    ((hosted 2 {}).part 2).valid = true ∧ field (0 : Word) 0 1 = 0 ∧ partInUse (hosted 2 {}) 2 ∧ ¬partInUse State.reset 31 := by
  unfold partInUse; decide
theorem witness_interfaces :
    (hosted 2 { keyed := true }).boundContext 3 = some 1 ∧ ((hosted 2 { keyed := true }).iface 3).keyed = true ∧
    (∀ x, (hosted 2 { keyed := true }).boundContext 3 = some x → ((hosted 2 { keyed := true }).context x).st = 2 ∨
      ((hosted 2 { keyed := true }).context x).st = 5) ∧
    ((hosted 3 { st := 1 }).iface 3).st = 1 ∧ ((hosted 6 { st := 2 }).context 1).st < 7 ∧ ((hosted 3 { st := 1 }).boundContext 63 = none) := by
  refine ⟨by decide, by decide, ?_, by decide, by decide, by decide⟩
  intro x h
  have e : (hosted 2 { keyed := true }).boundContext 3 = some 1 := by decide
  rw [e] at h; cases h; decide
theorem witness_aperture :
    bar2Taken (hosted 3 { st := 2, ctl := 0xF, snapCtl := 0xF }) 3 8 8 true true ∧
    apertureOf (hosted 3 { st := 2, ctl := 0xF, snapCtl := 0xF }) 3 1 ∧
    ¬bar2Taken (hosted 3 { st := 2 }) 3 8 8 false false ∧ bar2Taken (hosted 3 { st := 2, snapCtl := 0xF }) 3 64 64 true true ∧
    (hosted 3 { st := 2, snapCtl := 0xF }).touchesSieve 1 8 8 = false ∧ (hosted 3 { st := 2, snapCtl := 0xF }).touchesWindow 1 8 8 = false ∧
    (∀ x, ¬apertureOf (hosted 1 { st := 2, snapCtl := 0xF }) 3 x) ∧
    ∃ p s1, (hosted 3 { st := 2, snapCtl := 0xF }).aperturePlace 1 8 true = some (p, s1) ∧ s1.mayIssue 0 p = true := by
  unfold bar2Taken apertureOf
  refine ⟨by decide, by decide, by decide, by decide, by decide, by decide, ?_, ⟨_, _, rfl, by decide +kernel⟩⟩
  rintro x ⟨h, -, h1, -⟩
  have e : (hosted 1 { st := 2, snapCtl := 0xF }).boundContext 3 = some 1 := by decide
  rw [e] at h; cases h; revert h1; decide

theorem witness_queue_events :
    rebindRefused (hosted 3 {}) 9 (2 ^ 27 + 3 * 2 ^ 20 + 2 ^ 7 + 1) ∧
    ¬rebindRefused (hosted 3 {}) 7 (2 ^ 27 + 3 * 2 ^ 20 + 2 ^ 7 + 1) ∧
    ((configured ((hosted 3 {}).queue 7) (2 ^ 27 + 3 * 2 ^ 20 + 2 ^ 7 + 1)).bound = true) ∧
    ¬rebindRefused (hosted 3 {}) 7 0 ∧ (configured ((hosted 3 {}).queue 7) 0).bound = false ∧
    (let s := hosted 3 { ctl := 1 }
     s.barOpen 3 false = true ∧ (s.iface 3).force.getLsbD 0 = true ∧ s.windowQueue 3 ((0x20000 - 0x20000) / 64) = some 7 ∧
     ((s.queue 7).st = 1 ∧ (s.queue 7).records.length < 16)) := by
  unfold rebindRefused rebinds; dsimp only
  exact ⟨by decide, by decide, by decide, by decide, by decide, by decide⟩
theorem witness_register_writes :
    field (5 : Word) 0 3 = 5 ∧ field (6 : Word) 0 3 = 6 ∧ [(1, Instr.evPause 79), (5, .evEnable 79)].lookup (field (5 : Word) 0 3) = some (.evEnable 79) ∧
    (hosted 3 { ctl := 1 }).barOpen 3 false = true ∧ ((hosted 3 { st := 3 }).iface 3).st = 3 ∧ 0x110001 % 8 ≠ 0 := by decide

/-! ## Witnesses: beats, regions, configuration words, parking, units and threads as they go on -/

/-- A beat on its way from slot 0 of tile 9 to port B of slot 3. -/
def underWay : State := bears 1 { pipe := [{ due := 0, dest := 0x19, beat := { data := 5 } }, { due := 9, dest := 0x19, beat := {} }],
                                  out := [(0x19, { data := 5 })] }
theorem witness_beats : (underWay.slot 9 0).held = false ∧ (underWay.slot 9 0).st ≠ .parked ∧ (underWay.slot 9 0).out = [(0x19, { data := 5 })] ∧
    (0x19 : BitVec 9).toNat % 8 < 4 ∧ (0x19 : BitVec 9).toNat / 8 = 3 ∧ ((underWay.slot 9 3).port 1).length < 1024 ∧
    (underWay.slot 9 3).live = false ∧ (underWay.tile 9).pair = false ∧ (∃ a b, (underWay.slot 9 0).pipe = a ++ b ∧ (∀ r ∈ a, r.due ≤ underWay.fc) ∧
      (∀ r, b.head? = some r → underWay.fc < r.due)) ∧ (∃ b, beatOf 5 0 = some b) ∧ beatOf 5 0x7 = none := by
  refine ⟨by decide, by decide, by decide, by decide, by decide, by decide, by decide, by decide, ⟨_, _, (List.take_append_drop 1 _).symm, by decide, ?_⟩,
    ⟨_, rfl⟩, by decide⟩
  intro r h; cases h; decide
/-- Group 5 with region 0 ARMED and one ADD in it, whose beats have come; and the same without beats. -/
def oneRegion (x : Slot) : State :=
  let s := bears 1 x
  { s with groups := [(5, { ctx := 1, st := .firing, kernel := .live, tiles := [(0, 0, 9)], regions := [(0, { armed := true })] })] }
theorem witness_regions_fire :
    (let s := oneRegion { portA := at1 5, portB := at1 7 }
     (look {} (s.group 5).regions 0).armed = true ∧ (s.group 5).frozenAt = none ∧ (∀ q ∈ s.dueMembers 5 0, q.2 < 40 ∨ 48 ≤ q.2) ∧
     (∀ q ∈ s.dueMembers 5 0, s.memberReady q = true ∧ s.wordNow q = false) ∧ (9, 0) ∈ s.dueMembers 5 0 ∧ (∀ q ∈ s.members 5 0, (s.slot q.1 q.2).held = false) ∧
     s.actorOpen 5 0 = true) ∧
    (let s := oneRegion {}
     ∃ q ∈ s.dueMembers 5 0, s.memberReady q = false) ∧
    (let s := oneRegion { portA := at1 5, portB := at1 7, wordFc := some 0 }
     ∃ q ∈ s.dueMembers 5 0, s.wordNow q = true) := by decide
/-- A configured slot with a configuration word at port A: SEL and value. -/
def configWord (sel v : Nat) : State :=
  let s := bears 1 {}
  s.setSlot 9 0 { (s.slot 9 0) with st := .configured, portA := ats [{ data := BitVec.ofNat 64 (sel * 2 ^ 56 + v), cfg := true }] }
theorem witness_config_words :
    ((configWord 0 0xFFFFF).slot 9 0).st = .configured ∧ ((configWord 0 0xFFFFF).slot 9 0).port 0 ≠ [] ∧
    field (BitVec.ofNat 64 (0 * 2 ^ 56 + 0xFFFFF)) 0 56 / 64 % 64 ≤ field (BitVec.ofNat 64 (0 * 2 ^ 56 + 0xFFFFF)) 0 56 % 64 ∧
    field (BitVec.ofNat 64 (2 * 2 ^ 56 + 0x3FFFFFFFF)) 0 56 < 2 ^ 34 ∧ field (BitVec.ofNat 64 (3 * 2 ^ 56 + 4)) 0 56 ≤ 4 ∧
    field (BitVec.ofNat 64 (4 * 2 ^ 56 + 0xFFFFFFFF)) 0 56 < 2 ^ 32 ∧ field (BitVec.ofNat 64 (15 * 2 ^ 56)) 56 8 < 16 := by decide
/-- Group 5 CUTTING, with an element of slot 0. -/
def atACut (x : Slot) : State :=
  let s := bears 1 x
  { s with groups := [(5, { ctx := 1, st := .cutting, kernel := .live, tiles := [(0, 0, 9)] })] }
theorem witness_parking : ((atACut {}).group ((atACut {}).handleOf 9)).st = .cutting ∧ ((atACut {}).slot 9 0).st = .armed ∧
    (atACut {}).mayPark 9 0 = true ∧ (atACut { pipe := [{ due := 9, dest := 0x19, beat := {} }] }).mayPark 9 0 = false := by decide

/-- A generator with request 7 outstanding. -/
def requesting (k : ReqKind) : State :=
  slotted 4 0x60 0x03 { run := { nest with reqs := [{ id := 7, kind := k, va := 0x2000, cap := wide, xslot := 41 }], pages := [(0, page2)] } }
theorem witness_requests :
    (∃ q, (requesting .load).openReq 9 4 7 = some q ∧ q.kind ≠ .store ∧ q.aborted = false ∧
      (requesting .load).touchesWindow 1 (field q.va 0 57) q.size = false ∧ (requesting .load).spilledOf 5 q.port = [] ∧
      (requesting .load).behindLine 9 4 q = false ∧ (requesting .load).behindReplay 5 q = false ∧
      ∃ ph s1, (requesting .load).xlatReq 9 4 q = .ok (ph, s1) ∧ s1.mayIssue (stackOfTile (s1.slicePort 5 (s1.portTile 5 9 q.port) ph)) ph = true) ∧
    (∃ q, (requesting .store).openReq 9 4 7 = some q ∧ q.kind = .store) ∧ (requesting .load).openReq 9 4 8 = none ∧
    (∃ q, ((requesting .complete).slot 9 4).run.reqs = [q] ∧ q.kind = .complete) := by
  refine ⟨⟨_, rfl, by decide, by decide, by decide, by decide, by decide, by decide, ⟨_, _, rfl, by decide +kernel⟩⟩, ⟨_, rfl, by decide⟩, by decide, ⟨_, rfl, by decide⟩⟩
theorem witness_lookups :
    (let s := slotted 40 0x66 0x03 { run := { lookups := [{ data := 0x2000 }] } }
     (s.slot 9 40).run.lookups = [{ data := 0x2000 }] ∧ (s.slot 9 40).held = false ∧
     ∃ r, (s.setSlot 9 40 { s.slot 9 40 with run := { (s.slot 9 40).run with lookups := [] } }).translate [] 64
       ((s.setSlot 9 40 { s.slot 9 40 with run := { (s.slot 9 40).run with lookups := [] } }).elemAsker 9) 0x2000 {} = .ok r) ∧
    (let s := slotted 33 0x86 0x03 { run := { command := some { data := 0x80010 } }, consts := [(0, 0xAB)] }
     State.bankCommand (s.slot 9 33).op (33 - 32) 0x80010 = some (1, 8, 16, 16) ∧ (s.slot 9 33).run.due ≤ s.fc ∧
     cellsWf (((s.touchBytes 9 1 16 8).touchBytes 9 1 0 0).bank 9 1).cells = true) ∧
    (let s := slotted 33 0x86 0x03 { run := { command := some { data := 0x80010 }, due := 1 } }
     s.fc < (s.slot 9 33).run.due) := by
  exact ⟨⟨by decide, by decide, ⟨_, rfl⟩⟩, by decide +kernel, by decide⟩
theorem witness_matrix_events :
    (let s := node 0xB0 {} { work := some { m := 1, n := 1, cells := List.replicate 256 1, marks := [false] } }
     (∃ w, (s.tile 9).mat.work = some w ∧ w.buf < 2 ∧ 0 < w.n ∧ w.n ≤ 16) ∧ (s.slot 9 56).held = false) ∧
    (State.reset.layer 31).limitsFrom ≤ State.reset.fc / 64 := by
  exact ⟨⟨⟨_, rfl, by decide⟩, by decide⟩, by decide⟩

/-- A thread that waits for a beat of stream 2 that has come; the word at its pc is SRECV g6, 2. -/
def awaiting (w : Wait) (m : Nat) : State :=
  let x : Thread := { plain with st := .waiting, wait := w, instr := some (BitVec.ofNat 32 m) }
  let s := onTile x
  let t := s.setTile 9 { s.tile 9 with unit0 := { inq := [(2, [{ data := 5 }])], cache := [{ page2 with va := 0x1000 }] } }
  { t with mem := { cells := setBytes [] 4096 (toBytes 4 m), seals := [(64, { owner := 1, pa := 256 })] }, fc := 9 }
theorem witness_threads :
    ((awaiting (.inBeat 2) 0x84C00402).thread 72).st = .waiting ∧ ((awaiting (.inBeat 2) 0x84C00402).thread 72).frozen = false ∧
    (awaiting (.inBeat 2) 0x84C00402).waitMet 72 = true ∧ State.retries (.inBeat 2) = false ∧
    (awaiting .sleep 0).waitMet 72 = false ∧ ((awaiting .sleep 0).thread 72).wakeAt ≤ (awaiting .sleep 0).fc ∧
    State.retries .again = true ∧ (awaiting .again 0).waitMet 72 = true ∧ waiter (.srecv 6 2) = true ∧ decodeHelm 0x84C00402 = .ok (.srecv 6 2) ∧
    (awaiting .drain 0).waitMet 72 = true := by decide
theorem witness_waiting_word : (match ({ awaiting (.inBeat 2) 0x84C00402 with cur := 72 } : State).fetchWord with
    | .ok (w, u) => w == 0x84C00402 && u.cur == 72
    | .error _ => false) = true := by decide +kernel
theorem witness_held_messages :
    (let s : State := { State.reset with chans := [(.core 192, { held := [{ word := 4 }] })] }
     (s.chan (.core 192)).held = { word := 4 } :: [] ∧ (s.chan (.core 192)).msgs.length < 16 ∧ s.waiters (.chanFree (.core 192)) = []) ∧
    (let s := core { plain with c := plain.c }
     s.th.inTrap = false) := by decide


/-- The substitution's example in FIPS 197, 5.1.1: AES, which R303 names. -/
theorem test_aes_substitution : aesSub 0x53 = 0xED ∧ aesUnsub 0xED = 0x53 := by decide
/-! ## Witnesses: engines, barriers, the Beacon, the Sieve -/

/-- A tile with the given engine requests posted. -/
def posted (l : List EngReq) : State := { onTile plain with engines := l }
/-- A copy of 16 bytes from 0x4000 to 0x4100. -/
def aCopy : EngReq := { id := 4, kind := 0, thread := 72, ctx := 1, src := wideAt 0x4000, dst := wideAt 0x4100, word := 16 * 2 ^ 16 + 0xFF }
/-- A gather of one element, and a combination of one element by one participant. -/
def aGather : EngReq := { id := 5, kind := 1, thread := 72, ctx := 1, src := wideAt 0x4000, dst := wideAt 0x4100, word := 3 * 2 ^ 16 + 0xFF }
/-- One of the participants of an ECOLL. -/
def aParty (k w : Nat) : EngReq :=
  { id := k, kind := 2, thread := 72, ctx := 1, src := wideAt 0x4000, dst := wideAt (0x4000 + 256 * k), word := BitVec.ofNat 64 w, home := some (.package 1 3) }
/-- A phase of home PACKAGE 3 of context 1 whose participants are requests 6 and 7. -/
def combining (w : Nat) : State :=
  { posted [aParty 6 (2 ^ 32 + 0xFF), aParty 7 w] with homes := (posted []).setHome (.package 1 3) { collsDone := [[6, 7]] } |>.homes }
theorem witness_engines_at_work :
    (let s := posted [aCopy]
     s.engines.find? (·.id == 4) = some aCopy ∧ s.engBehind aCopy = false ∧ s.engWaits aCopy = false ∧ (State.copyUnits aCopy).drop aCopy.next = [(0, 16)] ∧
     ∃ e1 s1, s.copyUnit aCopy (0, 16) = .ok (e1, s1)) ∧
    (let s := posted [aGather]
     s.engines.find? (·.id == 5) = some aGather ∧ (List.range aGather.gatherCount).drop aGather.next = [0] ∧
     (match s.gatherFlush aGather (State.fullGranules aGather 0) with
      | .ok (e1, s1) => (match s1.gatherUnit e1 0 with
        | .ok (e2, s2) => (match (s2.setEngine e2).gatherFlush e2 (State.fullGranules e2 1) with
          | .ok (e3, _) => e3.bytes == 8
          | .error _ => false)
        | .error _ => false)
      | .error _ => false) = true) ∧
    (let s := posted [{ aCopy with gh := 5, performed := true }]
     s.engines.find? (·.id == 4) = some { aCopy with gh := 5, performed := true } ∧ s.groupHeld 5 = false ∧ s.groupAway 5 = false) ∧
    (let s := posted [{ aCopy with gh := 5, performed := true }]
     ({ s with groups := [(5, { ctx := 1, st := .frozen, frozenAt := some 0 })] } : State).groupHeld 5 = true) := by
  exact ⟨⟨by decide, by decide, by decide, by decide, ⟨_, _, rfl⟩⟩, ⟨by decide, by decide, by decide +kernel⟩, by decide,
    by decide⟩
theorem witness_combining :
    (let s := combining (2 ^ 33 + 0xFF)
     s.collParties (.package 1 3) = [aParty 6 (2 ^ 32 + 0xFF), aParty 7 (2 ^ 33 + 0xFF)] ∧
     (aParty 7 (2 ^ 33 + 0xFF)).collCount ≠ (aParty 6 (2 ^ 32 + 0xFF)).collCount) ∧
    (let s := combining (2 ^ 32 + 0xFF)
     s.collParties (.package 1 3) = [aParty 6 (2 ^ 32 + 0xFF), aParty 7 (2 ^ 32 + 0xFF)] ∧
     (∀ o ∈ s.collParties (.package 1 3), o.paused = false ∧ s.partyBehind (s.collParties (.package 1 3)) o = false) ∧
     ∃ s1, s.collReads (s.collParties (.package 1 3)) = .ok s1 ∧ ∃ s2, s1.collWrites [0, 0, 0, 0] [] (s1.collParties (.package 1 3)) = .ok s2) := by
  exact ⟨by decide, by decide, by decide, ⟨_, rfl, ⟨_, rfl⟩⟩⟩
theorem witness_last_beats : ((slotted 59 0xCD 0x07 { params := [(0x10, 7)] }).slot 9 59).op = 0xCD := by decide

/-- A home with one arrival of tile 9 to take and room for two; and the tile's own messages. -/
def homed (x : Home) (h : HomeId) : State :=
  let s := onTile plain
  let t := s.setTile 9 { s.tile 9 with leaving := [(3, none)], phases := [(3, true, 0)], replies := [(3, true, 0)],
                                       barriers := [(3, { valid := true, scope := 2 })] }
  t.setHome h x
theorem witness_barriers_at_work :
    (let s := homed { isOpen := true, exp := 1, inbox := [(0, .arrival 9 none)] } (.tile 9 3)
     (s.tile 9).leaving.find? (·.1 == 3) = some (3, none) ∧ (s.home (.tile 9 3)).inbox = (0, .arrival 9 none) :: [] ∧ 0 ≤ s.fc ∧
     (s.home (.tile 9 3)).isOpen = true ∧ (s.barrier 9 3).valid = true ∧ (s.barrier 9 3).scope = 2 ∧
     (s.tile 9).phases.find? (·.1 == 3) = some (3, true, 0) ∧ s.groupHeld (s.handleOf 9) = false ∧
     (s.tile 9).replies.find? (·.1 == 3) = some (3, true, 0)) ∧
    (let s := homed { isOpen := true, exp := 0, arr := 65535, inbox := [(0, .arrival 9 (some 4))] } (.package 1 3)
     (s.home (.package 1 3)).inbox = (0, .arrival 9 (some 4)) :: [] ∧ 65536 ≤ (s.home (.package 1 3)).arr + 1) ∧
    (let s := homed { isOpen := true, exp := 2, arr := 1, inbox := [(0, .init 9 3)] } (.stack 1 0 3)
     (s.home (.stack 1 0 3)).inbox = (0, .init 9 3) :: [] ∧ (3 : BitVec 16) ≠ (s.home (.stack 1 0 3)).exp) ∧
    (let s := homed { isOpen := true, exp := 2, inbox := [(7, .init 9 3)] } (.stack 1 0 3)
     (s.home (.stack 1 0 3)).inbox = (7, .init 9 3) :: [] ∧ s.fc < 7) := by decide

/-- The Beacon of stack 0 in frame 0 with a run of context 1 assigned to layer 0. -/
def beaconing (x : Stack) (y : Layer) (f : Nat) : State :=
  { onTile plain with stackTab := [(0, { x with runs := [(61, .granted 1)], assign := [(61, 0)] })], layers := [(0, y)], fc := f }
theorem witness_beacon_at_work :
    (let s := beaconing { announce := [(0, .granted 2)] } {} 1024
     (s.stack 0).frame < s.fc / 1024 ∧ s.fc % 1024 = 0 ∧ (s.stack 0).announce = [(0, .granted 2)] ∧ (s.stack 0).pending = []) ∧
    (let s := beaconing {} { queue := [{ ctx := 1, thread := 72 }] } 2048
     1024 * (s.stack 0).frame + 2 * 511 + 2 ≤ s.fc ∧ s.slotPayload 0 511 = some (0, { ctx := 1, thread := 72 })) ∧
    (let s := beaconing {} { queue := [{ ctx := 1, thread := 72 }] } 1022
     s.fc = 1024 * (s.stack 0).frame + 2 * 511 ∧ s.slotPayload 0 511 = some (0, { ctx := 1, thread := 72 })) ∧
    (let s := beaconing { carried := [(511, { ctx := 1, thread := 72 })] } {} 1024
     1024 * (s.stack 0).frame + 2 * 511 + 2 ≤ s.fc ∧ find (s.stack 0).carried 511 = some { ctx := 1, thread := 72 }) ∧
    (let s := beaconing { completions := [(1, 3, true)], clears := [(5, {})] } {} 1024
     1024 * (s.stack 0).frame + 2 * 14 + 2 ≤ s.fc ∧ (s.stack 0).completions = (1, 3, true) :: [] ∧ (s.stack 0).clears = (5, {}) :: []) ∧
    (let r : Bcst := { thread := 72, ctx := 1, left := 1, cap := wide }
     let s := (beaconing {} {} 0).setUnit 9 0 { bcst := [r] }
     (s.unit 9 0).bcst = r :: [] ∧ (s.thread 72).frozen = false ∧ s.earlierRows 9 r = false ∧ s.filtered 1 r.cap = false ∧ r.cap.tag = true) ∧
    (let s := ((beaconing {} {} 0).setUnit 9 0 { bcst := [{ thread := 72, ctx := 1, left := 1 }] }).setUnit 9 1
       { bcst := [{ thread := 76, ctx := 1, left := 1, seq := 1 }] }
     (s.unit 9 1).bcst = { thread := 76, ctx := 1, left := 1, seq := 1 } :: [] ∧
     s.earlierRows 9 { thread := 76, ctx := 1, left := 1, seq := 1 } = true) ∧
    (let s := beaconing {} { bstate := 2, listen := true } 0
     (s.layer 0).bstate = 2 ∧ (∀ r < 4, ¬refillable s 0 r) ∧ cellsWf (s.layer 0).buf.cells = true ∧ cellsWf (look {} (s.stack 0).refill 0).cells = true) ∧
    ((State.reset.layer 0).bstate = 0 ∧ State.reset.layerHosts 0 = false ∧ (State.reset.layer 0).queue = []) := by
  unfold refillable; refine ⟨by decide, by decide, by decide, by decide, by decide, by decide, by decide, by decide, by decide⟩
/-- A layer that refills the four rows of context 1's window, of which row 1 has come anew. -/
theorem witness_refill :
    let s := { beaconing {} { bstate := 2, listen := true, refillRow := 1, buf := { fresh := [1] } } 0 with
      contexts := [(1, { st := 3, epoch := 1, bwlen := 256 })] }
    refillable s 0 2 ∧ ∀ q < 2, ¬refillable s 0 q := by unfold refillable; decide

/-- Context 1 with a Sieve block of one heap at 2^20 whose map stands elsewhere. -/
def sieving (v : Sieve) : State :=
  { onTile plain with contexts := [(1, { st := 3, epoch := 1, sieve := { v with hbase := [(0, 2 ^ 20)], hlen := [(0, 2 ^ 20)], hmap := [(0, 0)] } })] }
theorem witness_sieve :
    ((sieving {}).context 1).sieve.goValid = true ∧ ((sieving {}).context 1).sieve.st ≠ 1 ∧ field (1 : Word) 0 1 = 1 ∧
    (State.reset.context 1).sieve.goValid = false ∧ ((sieving { st := 1, finished := [0, 1, 2] }).context 1).sieve.st = 1 ∧
    3 ∉ ((sieving { st := 1, finished := [0, 1, 2] }).context 1).sieve.finished ∧
    (let s := sieving { st := 1 }
     s.limited 1 3 = false ∧ s.sweptLines 1 3 (s.sievePages 1 3) = [] ∧
     ∃ s1, s.sieveMaps 1 3 (s.sieveReads 1 ((s.windowGranules 1 3).map (·.2))) = .ok s1) ∧
    ((sieving { st := 2, scrubbed := true }).context 1).sieve.scrubbed = true ∧
    (∀ e ∈ (sieving { st := 2, scrubbed := true }).engines, e.ctx = 1 → ((sieving { st := 2 }).context 1).sieve.cutId ≤ e.id) ∧
    (∀ h ∈ (sieving { st := 2, scrubbed := true }).groupsOf 1, ((sieving { st := 2, scrubbed := true }).group h).ch.pilot = false) := by
  exact ⟨by decide, by decide, by decide, by decide, by decide, by decide, ⟨by decide, by decide +kernel, ⟨_, rfl⟩⟩, by decide, by decide, by decide⟩
/-- A capability into the heap. -/
def inHeap : Cap := (wide.setAddr (2 ^ 20)).setBounds 64 false
/-- A sweep that meets a tag whose map page does not translate: the context's map lies where NOTVALID is answered. -/
def stuckSweep : State :=
  let s := sieving { st := 1, heaps := [(2 ^ 20, 2 ^ 20, 2 ^ 50)] }
  { s with mem := { tags := [8], cells := setBytes [] 128 (toBytes 8 inHeap.lo.toNat ++ toBytes 8 inHeap.hi.toNat), seals := [(2, { owner := 1 })] } }
theorem witness_sweep_fault : stuckSweep.sweptLines 1 0 (stuckSweep.sievePages 1 0) = [2] ∧
    (match stuckSweep.sieveMaps 1 0 (stuckSweep.sieveReads 1 (stuckSweep.lineCaps 1 2)) with
      | .error f => f.1 == 2 ^ 50
      | .ok _ => false) = true := by decide +kernel

/-! ## Witnesses: contexts, kernels and groups -/

/-- Context 1 in a state, on tile 9. -/
def living (c : Context) : State := { onTile plain with contexts := [(1, { c with epoch := 1 })] }
theorem witness_context_life :
    ((living { st := 1 }).context 1).migration = none ∧ ((living { st := 1 }).context 1).st = 1 ∧
    ((living { st := 6, migration := some (5, false) }).context 1).migration = some (5, false) ∧
    ((living { st := 1, migration := some (5, true) }).context 1).migration = some (5, true) ∧
    (∃ h ∈ (living { st := 4 }).placedGroups 1, ((living { st := 4 }).group h).st ≠ .cut ∧ ((living { st := 4 }).group h).st ≠ .frozen) ∧
    (let s := { living { st := 4 } with groups := [(5, { ctx := 1, st := .cut, tiles := [(0, 0, 9)] })] }
     ∀ h ∈ s.placedGroups 1, (s.group h).st = .cut) ∧
    ((living { st := 6 }).context 1).st < 7 ∧ ((living { st := 7 }).context 1).st = 7 ∧ ((living { st := 7 }).tile 9).owner = some 1 := by decide

/-- Queue 7 of context 1 with a record, ready and next. -/
def admitting (r : BitVec 512) : State :=
  { living { st := 2 } with queues := [(7, { bound := true, ctx := 1, st := 1, records := [r], ready := true })] }
/-- A launch record: an image at 0x4000 and nothing else. -/
def launchRecord : BitVec 512 := 0x4000
theorem witness_admission :
    (∀ e ∈ (admitting 0).refreshReady.queues, e.2.ready = true → (admitting 0).refreshReady.limited e.2.ctx 0 = false) ∧
    (admitting 0).refreshReady.nextQueue = some (7, (admitting 0).refreshReady.queue 7) ∧
    ((admitting 0).refreshReady.queue 7).records = [0] ∧
    State.recordMalformed 0 = false ∧ recImage 0 = 0 ∧ (admitting 0).lastAdmit = none ∧
    (State.reset.refreshReady.nextQueue = none) := by
  refine ⟨by decide +kernel, by decide +kernel, by decide +kernel, by decide +kernel, by decide +kernel, by decide, by decide⟩
theorem witness_launch : recImage launchRecord = 0x4000 ∧ State.recordMalformed launchRecord = false ∧
    ((admitting launchRecord).refreshReady.examine 7 1 launchRecord).1 = .launch [] := by
  exact ⟨by decide +kernel, by decide +kernel, by decide +kernel⟩

/-- Group 5 as given, on tile 9. -/
def grouped (g : Group) : State := { onTile plain with groups := [(5, { g with ctx := 1 })], layers := [(0, { ready := true })] }
/-- A group VERIFYING whose image lies at 0x4000, where bytes d stand. -/
def loading (d : List Byte) : State :=
  { grouped { kernel := .verifying, launch := launchRecord } with mem := { cells := setBytes [] (deviceKey none 0x4000) d } }
/-- A header of 64 bytes: LEN is 64, and MAGIC is not an image's. -/
def shortHeader : List Byte := List.replicate 20 0 ++ toBytes 4 64 ++ List.replicate 40 0
theorem witness_images :
    (let s := loading shortHeader
     (s.group 5).kernel = .verifying ∧ (verifying s 5).recordOpen (.loader 5) = false ∧
     (match (verifying s 5).copyImage 5 64 with
      | (none, s1) => leAt (s1.group 5).copy 20 4 == 64 && (match s1.copyImage 5 64 with
        | (none, s2) => (match verifyImage (s2.group 5).copy (s2.loadSetting 5) with
          | .error r => r.code == 0x21
          | .ok _ => false)
        | _ => false)
      | _ => false) = true) ∧
    (let s := loading shortHeader
     let t : State := { s with mem := { s.mem with poison := [deviceKey none 0x4000 / 64] } }
     (((verifying t 5).copyImage 5 64).1 = some .poisoned)) := by
  exact ⟨⟨by decide, by decide, by decide +kernel⟩, by decide +kernel⟩

theorem witness_configuration :
    (let s := { grouped { kernel := .admitted, st := .unplaced, image := { cols := 1, rows := 1 } } with tiles := [(9, { owner := some 1 })] }
     s.commandOf 5 1 none = none ∧ (s.group 5).st = .unplaced ∧ (s.context 1).st = 3 ∧ s.leaseLate 5 = false ∧
     (s.findPlace 5 0x4000).isSome = true) ∧
    (let g : Group := { st := .leased, kernel := .placed, tiles := [(0, 0, 9)], image := { blocks := [({} : Block)] } }
     ((grouped g).group 5).image.blocks[0]? = some ({} : Block) ∧ (∃ p ∈ State.blockTiles ((grouped g).group 5) ({} : Block), (grouped g).refuses 1 ({} : Block) p.1 = true)) ∧
    (let b : Block := { trailer := crc32 (Block.covered {}) }
     let g : Group := { st := .leased, kernel := .placed, tiles := [(0, 0, 9)], image := { blocks := [b] } }
     ∀ p ∈ State.blockTiles ((grouped g).group 5) b, (grouped g).refuses 1 b p.1 = false) ∧
    (∃ e ∈ ((grouped { st := .configuring, tiles := [(0, 0, 9)] }).group 5).tiles, e.2.2 = 9) ∧
    (let s := grouped { st := .armed, started := true, kernel := .configuring }
     (s.group 5).seeded = false ∧ (s.group 5).started = true ∧ (s.context 1).st = 3 ∧ (s.group 5).seeds = []) := by
  refine ⟨?_, ?_, ?_, ?_, ?_⟩ <;> decide +kernel
theorem witness_waves :
    (let g : Group := { st := .configuring, tiles := [(0, 0, 9)], reported := [9], image := { blocks := [{ words := [0x010241FF] }] } }
     0 ∈ State.imageRegions g.image ∧ State.waveDue g 0 = true) := by decide

/-- A kernel LIVE, seeded and still, whose only thread is HALTED. -/
def atRest : State :=
  { grouped { kernel := .live, st := .firing, seeded := true, tiles := [(0, 0, 9)] } with
    threads := [(72, { plain with st := .halted })], fc := 16 }
theorem witness_completion : (atRest.group 5).kernel = .live ∧ (∀ t ∈ atRest.codeThreads 5, (atRest.thread t).st = .halted) ∧
    (atRest.group 5).seeded = true ∧ atRest.seedsOpen 5 = false ∧ atRest.accessesOpen 5 = false ∧
    (atRest.group 5).lastMove + 16 ≤ atRest.fc ∧ (atRest.group 5).haltAt + 16 ≤ atRest.fc := by decide

/-- A command of the guest for group 5. -/
def aCommand (sub : Nat) (b : Bool) : GCommand := { sub, holder := .guest, word := 9, begun := b, recorded := b }
theorem witness_stops :
    (let s := grouped { st := .firing, kernel := .live, tiles := [(0, 0, 9)] }
     (s.group 5).commands = [] ∧ running (s.group 5)) ∧
    (let s := grouped { st := .firing, kernel := .live, commands := [aCommand 3 false] }
     soleCommand s 5 (aCommand 3 false) 3 ∧ running (s.group 5)) ∧
    (let s := grouped { st := .cutting, kernel := .live }
     (s.group 5).st = .cutting ∧ s.stopDone 5 = true ∧ s.groupRequests 5 = false ∧ s.barrierPending 5 = false ∧ s.beaconPending 5 = false) ∧
    (let s := grouped { st := .cutting, kernel := .live, tiles := [(0, 0, 9)] }
     s.stopDone 5 = false ∧ s.fc < (s.group 5).stopAt + (2 * s.ylim + 131072)) ∧
    (let s := { grouped { st := .cutting, kernel := .live } with fc := 171072 }
     s.waitsOnLink 5 = false ∧ (s.context 1).sieve.st ≠ 2 ∧ (s.group 5).snapDue = false ∧ (s.group 5).stopAt + (2 * s.ylim + 131072) ≤ s.fc) := by
  unfold running soleCommand; exact ⟨by decide, by decide, by decide, by decide, by decide⟩
theorem witness_holds :
    (let s := grouped { st := .frozen, prior := .firing, kernel := .live }
     (s.group 5).st = .frozen ∧ (s.group 5).fh.empty = true ∧ (s.group 5).actions = [] ∧ (s.context 1).sieve.st ≠ 2 ∧
     (s.group 5).ch.empty = true) ∧
    (let s := grouped { st := .cut, kernel := .live }
     (s.group 5).commands = [] ∧ (s.group 5).st = .cut ∧ (s.group 5).ch.empty = true) ∧
    ((Holders.add {} .hyper).empty = false) := by decide
/-- Whether the Pilot's store has to come again. -/
def waits : State.PilotStore → Bool
  | .waits => true
  | _ => false
/-- A context without a snapshot area: its snapshot does not wait, whatever length the record would have. -/
theorem witness_snapshot (s : State) (h : Nat) (hl : (s.context (s.group h).ctx).sslen = 0) : waits (s.writeSnapshot h) = false := by
  unfold State.writeSnapshot
  have e : (s.context (s.group h).ctx).sslen < s.snapLength h := by rw [hl]; unfold State.snapLength; omega
  simp [e, waits]
theorem witness_places :
    (let s := grouped { st := .cut, kernel := .live, tiles := [(0, 0, 9)], commands := [aCommand 2 false], image := { cols := 1, rows := 1 } }
     soleCommand s 5 (aCommand 2 false) 2 ∧ s.leaseLate 5 = false ∧ (s.findPlace 5 9).isSome = true) ∧
    (let s := grouped { st := .gated, kernel := .live, tiles := [(0, 0, 9)], commands := [aCommand 2 false], image := { cols := 33, rows := 1 } }
     soleCommand s 5 (aCommand 2 false) 2 ∧ running (s.group 5) ∧ s.findPlace 5 9 = none) ∧
    (let s := grouped { st := .moving, prior := .cut, kernel := .live, tiles := [(0, 0, 9)], commands := [aCommand 2 true], image := { cols := 1, rows := 1 } }
     soleCommand s 5 (aCommand 2 true) 2 ∧ (s.group 5).actions = [] ∧ (s.findPlace 5 9).isSome = true) ∧
    (let s := grouped { st := .cut, kernel := .live, tiles := [(0, 0, 9)], origin := 10, image := { cols := 1, rows := 1 } }
     let t : State := { s with tiles := [(9, { owner := some 1, group := some 5 })] }
     t.commandBegun 5 = false ∧ (t.findPlace 5 0x4000).isSome = true) ∧
    (let s := grouped { st := .frozen, kernel := .live, tiles := [(0, 0, 9)], commands := [aCommand 5 false] }
     soleCommand s 5 (aCommand 5 false) 5 ∧
     waits (((s.recordCommand 5 5 none).standStill 5).spillGroup 1 [9]) = false) ∧
    (let s := grouped { st := .cut, kernel := .live, tiles := [(0, 0, 9)], snapDue := true }
     (s.group 5).snapDue = true ∧ (s.group 5).st = .cut ∧ (s.context (s.group 5).ctx).sslen = 0) := by
  unfold running soleCommand; refine ⟨?_, ?_, ?_, ?_, ?_, ?_⟩ <;> decide +kernel
/-- Group 5 with the snapshot y, whose record at 0x4000 says MAGIC, the handle, LEN 64 and a tag of 0; Rhumb port 15 has FAILED. -/
def snapped (y : Snapshot) : State :=
  { grouped { st := .firing, kernel := .live, snap := some y, image := { cols := 1, rows := 1 } } with
    links := [(79, { st := 6 })], contexts := [(1, { st := 3, epoch := 1, ssbase := 0x4000 })],
    mem := { cells := setBytes [] (deviceKey none 0x4000) (toBytes 8 0x1534E4150 ++ toBytes 8 5 ++ toBytes 16 0 ++ toBytes 8 64) } }
/-- What the read of that record gives. -/
def record (y : Snapshot) : List Byte × Nat × Option ReadStop × State :=
  (snapped y).readList 1 (State.baseSource 10 0 5) [] 0 (linePieces (((snapped y).context 1).ssbase + y.off) y.len)
/-- Whether a tag holds is open, so its witness takes it as given. -/
theorem witness_replacement (h : ∀ d, Config.snapTag 1 0 d = 0) :
    ((snapped { len := 64 }).group 5).snap = some { len := 64 } ∧ (∃ i < 16, ((snapped { len := 64 }).link (64 + i)).st = 6) ∧
    (record { len := 64 }).2.2.1 = none ∧ (record { len := 64 }).2.2.2.recordGood 5 { len := 64 } (record { len := 64 }).1 = true ∧
    (((record { len := 64 }).2.2.2.fromSnapshot 5 { len := 64 }).findPlace 5 0x4000).isSome = true := by
  have e : ((record { len := 64 }).2.2.2.context (((record { len := 64 }).2.2.2).group 5).ctx).epoch = 1 := by decide +kernel
  have d : leAt (record { len := 64 }).1 64 12 = 0 := by decide +kernel
  have r : leAt (record { len := 64 }).1 80 16 = 0 ∧ leAt (record { len := 64 }).1 0 8 = 0x1534E4150 ∧
      leAt (record { len := 64 }).1 8 8 = 5 ∧ leAt (record { len := 64 }).1 32 8 = 64 := by decide +kernel
  refine ⟨by decide, by decide, by decide +kernel, ?_, by decide +kernel⟩
  unfold State.recordGood
  dsimp only
  rw [e, d, show (BitVec.ofNat 96 0) = 0 from rfl, h, r.1, r.2.1, r.2.2.1, r.2.2.2]
  decide


/-! ## Witnesses: units of two beats, lines, and the rest of the hypotheses -/

theorem witness_pairs :
    (let s := bears 0x54 { portA := ats aPair }
     canTurn s 0x54 (toOne 0) ∧ unitAt s.el 0 aPair ∧ ordinaryUnit aPair) ∧
    (let s := bears 0x5B { portA := ats aPair }
     canTurn s 0x5B (toOne 0) ∧ unitAt s.el 0 aPair) ∧
    (let s := bears 0x55 { portA := ats aPair }
     canTurn s 0x55 (toOne 0) ∧ unitAt s.el 0 aPair) ∧
    (let s := bears 0x57 { portA := ats aPair, params := [(0x20, 3), (0x2D, 8)] }
     canTurn s 0x57 (toOne 0) ∧ s.el.run.isOpen = false ∧ unitAt s.el 0 aPair) ∧
    (let s := slotted 59 0xCC 0x07 { portA := ats aPair }
     canTurn s 0xCC (toOne 0) ∧ unitAt s.el 0 aPair) := by
  unfold canTurn unitAt
  refine ⟨⟨by decide, .inr ⟨_, _, _, rfl, rfl, rfl, rfl, rfl, rfl⟩, by simp [ordinaryUnit, aPair]⟩, ⟨by decide, .inr ⟨_, _, _, rfl, rfl, rfl, rfl, rfl, rfl⟩⟩,
    ⟨by decide, .inr ⟨_, _, _, rfl, rfl, rfl, rfl, rfl, rfl⟩⟩, ⟨by decide, rfl, .inr ⟨_, _, _, rfl, rfl, rfl, rfl, rfl, rfl⟩⟩,
    ⟨by decide, .inr ⟨_, _, _, rfl, rfl, rfl, rfl, rfl, rfl⟩⟩⟩
theorem witness_bank_pairs :
    (let s := slotted 32 0x84 0x03 { portC := ats aPair, run := { swapped := true } }
     canTurn s 0x84 (toOne 0) ∧ banksOwned s ∧ s.el.portA = [] ∧ unitAt s.el 2 aPair) ∧
    (let s := slotted 32 0x84 0x03 { portA := ats aPair, portB := at1 5 }
     canTurn s 0x84 (toOne 0) ∧ s.el.portC = [] ∧ unitAt s.el 0 aPair) ∧
    (let s := slotted 32 0x85 0x03 { portA := at1 (BitVec.ofNat 64 (8 * 2 ^ 32 + 65528 * 2 ^ 16)) }
     canTurn s 0x85 (toOne 0) ∧ unitAt s.el 0 [{ data := BitVec.ofNat 64 (8 * 2 ^ 32 + 65528 * 2 ^ 16) }] ∧ s.el.run.command = none) := by
  unfold canTurn unitAt banksOwned headed
  exact ⟨⟨by decide, by decide, rfl, .inr ⟨_, _, _, rfl, rfl, rfl, rfl, rfl, rfl⟩⟩, ⟨by decide, rfl, .inr ⟨_, _, _, rfl, rfl, rfl, rfl, rfl, rfl⟩⟩,
    ⟨by decide, .inl ⟨_, rfl, ⟨_, _, rfl, rfl, rfl, by decide⟩, by decide⟩, by decide⟩⟩
theorem witness_reductions_due : dotted.el.run.due ≤ dotted.fc ∧ closingRun.el.run.due ≤ closingRun.fc := by decide

/-- The line of an access is open: not held and nothing marked in its set; and held in its slice, dirty. -/
theorem witness_lines :
    openLine (placed (onTile plain) 0x2000 8 Need.load).2 (placed (onTile plain) 0x2000 8 Need.load).1 ∧
    (let p : Phys := (placed (onTile plain) 0x2000 8 Need.load).1
     let s : State := { onTile plain with l2 := [(p.key / 64, { ctx := 1 })],
                                          mem := { dirty := [(p.key / 64, { ctx := 1, bytes := List.replicate 64 0 })] } }
     s.l2Holds p = true ∧ s.memWf = true ∧ (∃ h, find s.mem.dirty (p.key / 64) = some h ∧ h.bytes.length = 64)) ∧
    (onTile plain).l2Holds (placed (onTile plain) 0x2000 8 Need.load).1 = false ∧
    (let s := core plain
     coreOpen s (firmwarePhys 0x4000)) := by
  unfold openLine unmarked coreOpen
  refine ⟨⟨by decide, by decide, ?_, .inr (.inr (by decide))⟩, ⟨by decide, by decide, ⟨_, rfl, by decide⟩⟩, by decide, by decide⟩
  have e : find (placed (onTile plain) 0x2000 8 Need.load).2.mem.dirty ((placed (onTile plain) 0x2000 8 Need.load).1.key / 64) = none := by decide
  rw [e]; rintro h ⟨⟩
/-- A destination whose source is in this package, with the creation record that was measured there. -/
def migrating : State :=
  { State.reset with contexts := [(1, { st := 1, migration := some (Config.packageSerial.toNat, true) }),
                                  (2, { st := 6, migration := some (Config.packageSerial.toNat, false), measM := State.measureM [] })] }
theorem witness_migration_commit : (∃ y o, migrating.migrationSource 1 = some (y, o)) ∧
    State.measureM (migrating.migratedContext 1).1 = (migrating.migratedContext 1).2.1 := by
  have e : migrating.migrationSource 1 = some (2, { st := 6, migration := some (Config.packageSerial.toNat, false), measM := State.measureM [] }) := by
    simp [State.migrationSource, migrating, State.context, look, find]
  refine ⟨⟨_, _, e⟩, ?_⟩
  unfold State.migratedContext; rw [e]
theorem witness_stands : stands { living { st := 4 } with groups := [(5, { ctx := 1, st := .frozen, frozenAt := some 0, tiles := [(0, 0, 9)] })] } 5 := by
  unfold stands; decide
/-- A snapshot becomes due in a group that is CUTTING. -/
theorem witness_snapshot_due : (let s := grouped { st := .cutting, kernel := .live, tiles := [(0, 0, 9)] }
    (s.group 5).st = .cutting ∧ (s.group 5).snapDue = false ∧ s.commandBegun 5 = false) := by decide
/-- A record that waits for its host frame; the walker's cache at a TLBINV. -/
theorem witness_walker_drop : (let s : State := { State.reset with invals := [{ id := 4, waiting := [.walker 2] }], walkers := [(2, [])] }
    s.invals.find? (·.id == 4) = some { id := 4, waiting := [.walker 2] }) := by decide
/-! ## Single steps: the worked examples of the spec -/

/-- The state an instruction leaves. -/
def after (r : Result) (s : State) : State := match r with
  | .next t => t
  | _ => s
/-- The results under way to a consumer, as data. -/
def going (s : State) : List (Nat × Nat) := s.el.pipe.map fun r => (r.dest.toNat, r.beat.data.toNat)
/-- The beats sent. -/
def sentOut (s : State) : List (Nat × Nat × Kind) := s.el.out.map fun b => (b.1.toNat, b.2.data.toNat, b.2.kind)

/-- Spec 05, adds.i8 x2 with FLAGOUT: 130 saturates to 127, 110 stands, and the flags go to CY. -/
theorem test_step_adds :
    let a : ElemArgs := { fsel := 0, rep := 1, cx := 0x40, cy := 0x48 }
    let s := element (0x0B000000 + a.bits) 0x01 { portA := ats [{ data := 0x1E1E1E1E1E1E1E1E }, { data := 0x0A0A0A0A0A0A0A0A }],
                                                  consts := [(0, 0x6464646464646464)], params := [(0x10, 8), (0x14, 1)] }
    going (after (execElAdds a s) s) = [(0x40, 0x7F7F7F7F7F7F7F7F), (0x48, 0xFF), (0x40, 0x6E6E6E6E6E6E6E6E), (0x48, 0)] := by decide +kernel
/-- Spec 05, fma.f32: 2 x 3 + 1 = 7 and an exact zero sum. -/
theorem test_step_fma :
    let a : ElemArgs := { fsel := 0, rep := 0, cx := 8, cy := 0x1FF }
    let s := element (0x10000000 + a.bits) 0x11 { portA := at1 0xBF00000040400000, params := [(0x10, 0x88)],
                                                  consts := [(0, 0x4000000040000000), (1, 0x3F8000003F800000)] }
    going (after (execElFma a s) s) = [(8, 0x0000000040E00000)] := by decide +kernel
/-- Under NI the exact zero sum is -0. -/
theorem test_step_fma_down :
    let a : ElemArgs := { fsel := 0, rep := 0, cx := 8, cy := 0x1FF }
    let s := element (0x10000000 + a.bits) 0x11 { portA := at1 0xBF00000040400000, params := [(0x10, 0x88)], round := .ni,
                                                  consts := [(0, 0x4000000040000000), (1, 0x3F8000003F800000)] }
    going (after (execElFma a s) s) = [(8, 0x8000000040E00000)] := by decide +kernel
/-- Spec 05, fmul.f32: a tie goes to the even encoding under NE. -/
theorem test_step_fmul :
    let a : ElemArgs := { fsel := 0, rep := 0, cx := 8, cy := 0x1FF }
    let s := element (0x13000000 + a.bits) 0x11 { portA := at1 0x3F800001, params := [(0x10, 8)], consts := [(0, 0x3FC000003FC00000)] }
    going (after (execElFmul a s) s) = [(8, 0x3FC00002)] := by decide +kernel
/-- Spec 07, ocmp of 0.75 and -0.625: the sign is certain at digit 2. -/
theorem test_step_ocmp :
    let s := slotted 20 0xA5 0x1F { run := { isOpen := true, beats := oneToken 0x5000000000000000, beatsB := oneToken 0xCC00000000000000 } }
    sentOut (after (execElOcmp (toOne 0) s) s) = [(8, 0x0000000200000001, .data)] := by decide +kernel
/-- Spec 07, lmap with the majority table. -/
theorem test_step_lmap :
    let s := slotted 48 0x90 0x0D { portA := at1 0x0F, portB := at1 0x33, portC := at1 0x55, params := [(0x15, 0x7FB0)],
                                    luts := [(0, 0xE8E800000000)] }
    going (after (execElLmap (toOne 0) s) s) = [(8, 0x17)] := by decide +kernel

/-- Spec 04: cvt of 0x3F80C000 to .bf16 under SR with SEED 1 gives 1.0 and the generator 0x00042021. -/
theorem test_step_cvt :
    let s0 := element (0x38000000 + (toOne 0).bits) 0x11 { portA := at1 0x3F80C000, params := [(0x11, 1)], round := .sr, seed := 1 }
    let s := s0.setTile 9 { s0.tile 9 with profile := [0x11, 0x12] }
    let t := after (execElCvt (toOne 0) s) s
    (going t).map (fun p => p.2 % 65536) = [0x3F80] := by decide +kernel
/-- Spec 09: BILV of 5 and 3 is 27. -/
theorem test_step_bilv : let s := core (thread4 5 3 0 0 {} {} 2)
    (after (execBilv 3 1 2 s) s).g 3 = 27 := by decide +kernel
/-- Spec 09: BDLV of 27. -/
theorem test_step_bdlv : let s := core (thread4 27 3 0 0 {} {} 2)
    (after (execBdlv 4 1 s) s).g 4 = 0x0000000300000005 := by decide +kernel
/-- Spec 10: CSETBOUNDS of 100,000 bytes at 0x100007 rounds out to 100,008. -/
theorem test_step_csetbounds :
    let s := core (thread4 100000 0 0 0 (fwcap.setAddr 0x100007) {} 2)
    let c := (after (execCsetbounds 4 1 1 s) s).c 4
    c.tag = true ∧ c.base = 0x100000 ∧ c.top = 0x1186A8 ∧ c.lo = 0x100007 := by decide +kernel
/-- Spec 14: at a tie of virtual time the queue of the lower number goes first. -/
theorem test_step_admission_tie :
    let s : State := { State.reset with contexts := [(9, { st := 3, part := 3 })],
                                        queues := [(17, { bound := true, ctx := 9, st := 1, prio := 5, ready := true, vtime := 65536 }),
                                                   (18, { bound := true, ctx := 9, st := 1, prio := 5, ready := true, vtime := 65536 })] }
    s.nextQueue.map (·.1) = some 17 := by decide +kernel

/-! ## Witnesses: faults, translation, Lodestone -/

/-- Record 4 raised, for the H ring or for context 1, which has a queue of 256 bytes at 0x2000. -/
def raising (toH waits : Bool) (slots : Table Record) : State :=
  { onTile plain with
    raised := [{ id := 4, cause := 2, ctx := some 1, toH, waits }]
    ring := { en := true, log2n := 12, table := 0x4000, slots }
    contexts := [(1, { st := 3, epoch := 1, fq := { base := 0x2000, log2n := 4, nch := 255, slots } })] }
theorem witness_records :
    (∃ r, (raising true false []).raised.find? (·.id == 4) = some r ∧ r.toH = true ∧ r.waits = false) ∧
    freeSlot (raising true false []).ring.slots (raising true false []).ring.log2n = some 0 ∧
    (∃ r, (raising false true []).raised.find? (·.id == 4) = some r ∧ r.toH = false ∧ r.ctx = some 1 ∧ r.waits = true) ∧
    ((raising false true []).context 1).fq.enabled = true ∧ freeSlot ((raising false true []).context 1).fq.slots 4 = some 0 ∧
    ((raising false true []).recordPlace 1 0x2000 0).1.isSome = true ∧ firstOf (raising false true []) { id := 4, cause := 2, ctx := some 1, waits := true } ∧
    freeSlot ((List.range 16).map fun i => (i, ({} : Record))) 4 = none ∧ State.reset.ring.en = false := by
  unfold firstOf
  refine ⟨⟨_, rfl, by decide⟩, by decide, ⟨_, rfl, by decide⟩, by decide, by decide, by decide +kernel, by decide, by decide, by decide⟩
/-- A CAP record of thread 72 in slot 4095 of the queue, and a PAGE2 record in the ring's. -/
def capRecord : Record := { cause := 4, seq := 7, raiser := .thread 72, ctx := some 1, epoch := 1 }
theorem witness_responses :
    (let slots : Table Record := [(4095, capRecord)]
     let s := raising false true slots
     let v : Word := BitVec.ofNat 64 (7 * 2 ^ 16 + 4095)
     names (s.context 1).fq.slots v 1 capRecord ∧ responds 1 v 1 (.evFaultResponseRetry 1 v) ∧ actsNow s capRecord) ∧
    (let slots : Table Record := [(0, { cause := 3, seq := 7, ctx := some 1, epoch := 1 })]
     let s := raising true true slots
     names s.ring.slots (BitVec.ofNat 64 (7 * 2 ^ 16)) 6 { cause := 3, seq := 7, ctx := some 1, epoch := 1 } ∧
     raiserLives s { cause := 3, seq := 7, ctx := some 1, epoch := 1 } ∧ (s.context 1).st < 7) := by
  unfold names
  refine ⟨⟨⟨by decide, by decide, by decide, by decide, by decide⟩, .inr (.inl ⟨rfl, rfl⟩), ⟨fun x h => by cases h; decide, rfl⟩⟩, ⟨by decide, by decide, by decide, by decide, by decide⟩,
    ⟨fun x h => by cases h; decide, fun h => absurd rfl h⟩, by decide⟩
theorem witness_translation :
    (let s : State := { onTile plain with walks := [{ id := 4, rec_ := { cause := 2, ctx := some 1, addr := 0x3000, raiser := .thread 72 } }] }
     (∃ w, s.walks.find? (·.id == 4) = some w) ∧
     ∃ r, s.walk { ctx := 1, high := true, stack := 0, port := some (s.helmPort 72) } 0x3000 {} = .ok r) ∧
    (∃ f, (onTile plain).walk { ctx := 1, high := true } (2 ^ 48) {} = .error f) ∧
    (let s : State := { State.reset with invals := [{ id := 4, waiting := [.helm 9 0] }] }
     ∃ i, s.invals.find? (·.id == 4) = some i ∧ ∀ o ∈ i.waiting, o = .helm 9 0) ∧
    (let s := hosted 3 {}
     look [] (s.part 2).heldReqs 0 ≠ [] ∧ (s.part 2).rate = 0) ∧
    (let s : State := { State.reset with mem := { dirty := [(5, { bytes := List.replicate 64 0 })] } }
     s.sound ∧ ∃ h, find s.mem.dirty 5 = some h ∧ h.bytes.length = 64) := by
  refine ⟨⟨⟨_, rfl⟩, ⟨_, rfl⟩⟩, ⟨_, rfl⟩, ⟨_, rfl, by decide⟩, by decide, by unfold State.sound; decide, ⟨_, rfl, by decide⟩⟩

/-- The mailbox with a request of code op and its buffer; Lodestone is ready. -/
def mailed (op : Nat) (d : List Byte) (s : State) : State := { s with lode := { s.lode with busy := true, ready := true, op, req := some d } }
/-- A buffer that begins with the given bytes and is filled with zeros to n. -/
def request (n : Nat) (l : List Nat) : List Byte := l.map (BitVec.ofNat 8) ++ List.replicate (n - l.length) 0
theorem witness_mailbox :
    asked (mailed 2 (request 64 [127]) State.reset) 2 (some (request 64 [127])) ∧
    ({ mailed 2 [] State.reset with lode := { (mailed 2 [] State.reset).lode with req := none } } : State).lode.req = none ∧
    leAt (request 64 [127]) 0 1 < 128 ∧ zeroFrom (request 64 [127]) 1 = true ∧
    (let s := living { st := 8 }
     (s.context 1).st = 8) := by
  unfold asked; decide
theorem witness_tiles_request :
    (let s := mailed 3 (request 64 [1, 0, 0, 0, 0, 0, 0, 0, 1, 0, 0, 0, 9, 0])
       { living { st := 2 } with tiles := [(9, { owner := some 1 }), (10, { owner := some 1 })], parts := [(0, { valid := true, tiles := [9, 10] })] }
     (s.tilesRequest (request 64 [1, 0, 0, 0, 0, 0, 0, 0, 1, 0, 0, 0, 9, 0])).status = 0 ∧
     (s.tilesRequest (request 64 [1, 0, 0, 0, 0, 0, 0, 0, 1, 0, 0, 0, 9, 0])).state.isSome = true) := by decide
theorem witness_migration :
    (let d := request 64 [1, 0, 0, 0, 0, 0, 0, 0, 5]
     let s : State := { living { st := 5, migr := true } with groups := [(5, { ctx := 1, st := .cut, tiles := [(0, 0, 9)] })] }
     leAt d 1 1 < 16 ∧ zeroAt d 2 6 = true ∧ zeroFrom d 16 = true ∧ (s.context 1).st = 5 ∧ s.migrates 1 = true) ∧
    (let d := request 64 ([2, 0, 255] ++ List.replicate 13 0 ++ [1, 0, 0, 0, 9, 0])
     let s := { State.reset with parts := [(0, { valid := true, tiles := [9] })] }
     s.bindingBad (leAt d 1 1) (leAt d 2 1) = false ∧ leAt d 16 4 = 1 ∧ s.entriesBad 0 (tileEntries d 20 1) ((tileEntries d 20 1).map entryTile) = false ∧
     s.entriesOwned (tileEntries d 20 1) = false ∧ (s.context 2).st = 0) ∧
    ((living { st := 1, migration := some (5, true) }).context 1).migration ≠ none := by
  refine ⟨by decide, by decide, by decide⟩
theorem witness_runs :
    (let s : State := { living { st := 3, bwlen := 64 } with stackTab := [(3, { runs := [(5, .granted 1)] })] }
     s.runOf 3 61 = (.free, false) ∧ (s.context 1).bwlen ≠ 0 ∧ s.runOf 3 5 = (.granted 1, false) ∧ s.placedOn 1 3 = false) ∧
    (let s : State := { living { st := 3, bwlen := 64 } with stackTab := [(0, { runs := [(5, .granted 1)] })] }
     s.placedOn 1 0 = true ∧ ∀ o < 62, o ≠ 5 → s.runOf 0 o ≠ (.granted 1, false)) := by decide
theorem witness_attest_and_keys :
    (let d := request 384 ([1] ++ List.replicate 63 0)
     384 ≤ d.length ∧ leAt d 0 1 < 128 ∧ zeroAt d 1 63 = true ∧ zeroFrom d 128 = true) ∧
    (let d := request 80 [7, 0, 0, 0, 0, 0, 0, 0, 9]
     leAt d 0 1 < 8 ∧ zeroAt d 1 7 = true ∧ 73 ≤ d.length ∧ zeroFrom d 73 = true ∧ leAt d 8 8 ≠ 0) ∧
    (let s : State := { State.reset with lode := { State.reset.lode with flashFail := some (5, 6), op := 12, busy := true, answered := false } }
     s.lode.flashFail = some (5, 6)) ∧
    (hosted 2 {}).boundContext 3 = some 1 := by decide +kernel
/-- CREATE's record of context 2 in partition 0: no function, a root table at 0x10000, TE of 256 bytes, DRAIN 1; and one tile, 9. -/
def creation : List Byte :=
  request 320 ([2, 0, 255] ++ List.replicate 15 0 ++ [1] ++ List.replicate 22 0 ++ [1] ++ List.replicate 38 0 ++ [1] ++
    List.replicate 175 0 ++ [1, 0, 0, 0, 9, 0])
theorem witness_creation :
    (let s := mailed 1 creation { State.reset with parts := [(0, { valid := true, tiles := [9] })] }
     leAt creation 0 1 = 2 ∧ leAt creation 256 4 = 1 ∧ 260 + 2 * 1 ≤ creation.length ∧ zeroFrom creation (260 + 2 * 1) = true ∧
     s.recordBad creation = false ∧ s.entriesBad 0 (tileEntries creation 260 1) ((tileEntries creation 260 1).map entryTile) = false ∧
     (s.context 2).st = 0 ∧ s.entriesOwned (tileEntries creation 260 1) = false ∧
     ((({ s with lode := { s.lode with epochs := s.lode.epochs + 1 } } : State).setContext 2 (s.contextOf creation)).rootPlace 2
       (s.contextOf creation)).isSome = true) := by
  decide +kernel

/-! ## Witnesses: steps -/

/-- The control core at reset, ready at 0x4000, whose home is its own stack, with a word of memory there. -/
def atCore (w : Nat) : State :=
  let s := core { plain with priv := 2, pcc := code 0x4000 }
  { s with now := [.thread 16384], mem := { cells := setBytes [] (firmwarePhys 0x4000).key (toBytes 4 w) } }
theorem witness_steps :
    (atCore 0x10A3FFFE).stopped = false ∧ issuesFor (atCore 0x10A3FFFE) { atCore 0x10A3FFFE with now := [], cur := 16384, issued := [(4096, 0)] } 16384 ∧
    ((atCore 0x10A3FFFE).thread 16384).instr = none ∧ mayFetch (atCore 0x10A3FFFE) 16384 := by
  unfold issuesFor mayFetch; exact ⟨by decide, .inl ⟨_, rfl, by decide, by decide, by decide, by decide⟩, by decide, by decide⟩
/-- A thread whose access goes on. -/
theorem witness_resumed :
    let s := { core { plain with priv := 2, instr := some 0x10A3FFFE, busy := 3 } with now := [.resume 16384] }
    issuesFor s { s with now := [], cur := 16384 } 16384 := by
  unfold issuesFor; exact .inr ⟨_, rfl, by decide, rfl⟩
theorem witness_step_word : (match decodeBytes (getBytes (atCore 0x10A3FFFE).mem.cells (firmwarePhys 0x4000).key 4) with
    | some (i, l) => i == .addi 5 3 0xFFFE && l == []
    | none => false) = true := by decide
/-- A core that cannot fetch; one with the zero word; one that has its word already; one that is busy. -/
theorem witness_other_turns :
    (let s := core { plain with pcc := {}, priv := 2 }
     (match s.fetchWord with
      | .ok _ => false
      | .error _ => true) = true) ∧
    (match (atCore 0).fetchWord with
      | .ok (w, _) => w == 0
      | .error _ => false) = true ∧ (match decodeHelm 0 with
      | .ok _ => false
      | .error _ => true) = true ∧
    (let s := { core { plain with priv := 2, instr := some 0x10A3FFFE } with now := [.thread 16384] }
     (s.thread 16384).instr = some 0x10A3FFFE ∧ (s.thread 16384).st = .ready ∧ (s.thread 16384).busy ≤ s.fc) ∧
    (let s := { core { plain with busy := 3 } with now := [.thread 16384] }
     s.fc < (s.thread 16384).busy) := by decide +kernel
theorem witness_agenda :
    (let s : State := { State.reset with now := [.event (.evPause 0), .element 9 0, .matrix 9] }
     s.now = .event (.evPause 0) :: [.element 9 0, .matrix 9]) ∧
    decodeElem ((bears 1 {}).slot 9 0).word.toNat = .ok (.elAdd (toOne 0)) ∧ State.reset.now = [] ∧ (onTile plain).now = [] ∧
    (node 0xB0 { portP := at1 (BitVec.ofNat 64 ((encodeMatrix (.mxMma oneBlock)).getD 0)) } {}).headToken.isSome = true := by
  exact ⟨by decide, rfl, by decide, by decide, by decide⟩
theorem witness_encodings : (∃ w, encodeHelm (.addi 5 3 0xFFFE) = some w) ∧ (Instr.addi 5 3 0xFFFE).wf = true ∧
    (∃ w, encodeElem (.elAdd (toOne 7)) = some w) ∧ (∃ i, decodeMatrix 0x0000001C04020301 = .ok i) :=
  ⟨⟨_, rfl⟩, by decide, ⟨_, rfl⟩, ⟨_, rfl⟩⟩
theorem witness_sound : (atCore 0x10A3FFFE).sound := by unfold State.sound; decide

end Sys2Proof.Tests
end

/-! # Proofs of the scope family: what a step runs (O56), queues and the registers the host writes (O46) -/

/-! ## Fetching at U with a SYSTEM capability (R220, R242) -/

namespace Sys2Proof.Machine.State

/-- FetchCheck and every other check of a SYSTEM capability fails with PERM at U (R220, R242). -/
theorem accessFault_of_low_of_system {s : State} {c : Cap} (hlow : s.low = true) (htag : c.tag = true)
    (hseal : c.sealType = 0) (hsys : c.has permSystem = true) (a : Word) (size perms n : Nat) (store : Bool) :
    s.accessFault c a size perms n store = some .perm := by
  simp [accessFault, capCheckX, hlow, htag, hseal, hsys]

/-- So a thread at U whose PCC has SYSTEM fetches nothing: it traps. -/
theorem fetchWord_of_low_of_system {s : State} (hlow : s.low = true) (htag : s.th.pcc.tag = true)
    (hseal : s.th.pcc.sealType = 0) (hsys : s.th.pcc.has permSystem = true) :
    s.fetchWord = .error (s.trapCap .perm s.pc) := by
  simp only [fetchWord, accessFault_of_low_of_system hlow htag hseal hsys]

end Sys2Proof.Machine.State

namespace Sys2Proof.Claims
open Sys2Proof Sys2Proof.Machine

/-- Control core 0 of stack 0 at U, next to issue, with a PCC that has EXECUTE and SYSTEM, over the word of ADDI g5, g3, -2. -/
def systemFetchAtU : State := (State.reset.withWord 0x10A3FFFE).withThread 16384 0

/-- The state in which its thread issues. -/
def systemFetchIssuing : State := { systemFetchAtU with now := [], cur := 16384, issued := [(4096, 0)] }

theorem systemFetchAtU_issues : issuesFor systemFetchAtU systemFetchIssuing 16384 := by
  unfold issuesFor
  exact .inl ⟨[], rfl, by decide, by decide, by decide, rfl⟩

theorem systemFetchAtU_mayFetch : mayFetch systemFetchAtU 16384 := by
  unfold mayFetch; decide

theorem systemFetchAtU_decodes : decodeBytes (getBytes systemFetchAtU.mem.cells (firmwarePhys 0x4000).key 4) =
    some (.addi 5 3 0xFFFE, []) := by
  decide

/-- Its step takes the trap of its fetch; a control core has no trap entry after reset (log 33). -/
theorem step_systemFetchAtU : ∃ t, step systemFetchAtU = .next t ∧ t.th.st = .trapped := by
  have hfetch : systemFetchIssuing.fetchWord = .error (systemFetchIssuing.trapCap .perm systemFetchIssuing.pc) :=
    State.fetchWord_of_low_of_system (by decide) (by decide) (by decide) (by decide)
  have hstep : step systemFetchAtU = runThread systemFetchIssuing := rfl
  have hinstr : systemFetchIssuing.th.instr = none := rfl
  exact ⟨_, by rw [hstep, runThread, hinstr, hfetch], by decide⟩

/-- A thread whose instruction retires and is over is READY. -/
theorem th_st_completed_retire (s : State) (d : Reg) (x : Word) (w n : Nat) :
    (completed (s.retire d x) w n).th.st = .ready := by
  simp [completed, State.retire, State.advance]

/-- Refutes O56: its first clause asks nothing about the level of a control core's thread, which TRET may return to U (R235, R237);
at U a PCC with SYSTEM fails FetchCheck with PERM (R220, R242), so the ADDI at the pc of `systemFetchAtU` is not run. -/
theorem not_stepRunsDecoded : ¬ Obligations.StepRunsDecoded := by
  unfold Obligations.StepRunsDecoded
  intro h
  obtain ⟨hfetched, -⟩ := h systemFetchAtU rfl
  have hrun := hfetched 16384 systemFetchIssuing (.addi 5 3 0xFFFE) _ systemFetchAtU_issues rfl systemFetchAtU_mayFetch
    systemFetchAtU_decodes rfl
  obtain ⟨t, hstep, htrapped⟩ := step_systemFetchAtU
  rw [Host.Outcome.next.inj (hstep.symm.trans hrun), th_st_completed_retire] at htrapped
  exact absurd htrapped (by decide)

end Sys2Proof.Claims

/-! ## Events posted -/

namespace Sys2Proof.Machine.State

/-- An event posted once is among the coming ones. -/
theorem mem_agenda_postOnce (s : State) (i : Instr) : Turn.event i ∈ (s.postOnce i).agenda := by
  unfold postOnce
  split
  · exact List.contains_iff_mem.1 ‹_›
  · simp [post]

/-- Posting once changes nothing but the agenda. -/
theorem postOnce_frame (s : State) (i : Instr) : { s.postOnce i with now := s.now, agenda := s.agenda } = s := by
  unfold postOnce; split <;> rfl

end Sys2Proof.Machine.State

/-! ## Queues (R314-R316) -/

namespace Sys2Proof.Claims
open Sys2Proof Sys2Proof.Machine

theorem turnsTo_of_post {i e : Instr} {s u : State} (h : exec i s = .next (u.post e)) : turnsTo i s u [e] :=
  ⟨_, h, rfl, by simp [State.post]⟩

theorem turnsTo_of_postOnce {i e : Instr} {s u : State} (h : exec i s = .next (u.postOnce e)) : turnsTo i s u [e] :=
  ⟨_, h, u.postOnce_frame e, by simpa using .inr (u.mem_agenda_postOnce e)⟩

/-- The model's refusal of a binding is R315's. -/
theorem qcfgRefused_iff (s : State) (q : Nat) (v : Word) : s.qcfgRefused q v = true ↔ rebindRefused s q v := by
  simp only [State.qcfgRefused, State.qcfgRefused.ebit27, rebindRefused, rebinds, configured, field, bits]
  simp [and_assoc, or_assoc, or_left_comm]

theorem boundState_eq (st : Nat) : State.boundState st = if st = 2 ∨ st = 3 then 1 else 2 := by
  simp [State.boundState]

section
variable {s : State} {q : Nat} {v : Word}

theorem exec_qcfgWrite (s : State) (q : Nat) (v : Word) : exec (.evQcfgWrite q v) s = .next (s.writeQcfg q v) := rfl

theorem exec_qcfgWrite_of_refused (h : rebindRefused s q v) : exec (.evQcfgWrite q v) s = .next s := by
  rw [exec_qcfgWrite, State.writeQcfg, if_pos ((qcfgRefused_iff s q v).2 h)]

/-- A QCFG write that is not refused unbinds, binds or changes the queue (R315, R316). -/
theorem exec_qcfgWrite_of_not_refused (h : ¬rebindRefused s q v) : exec (.evQcfgWrite q v) s = .next
    (if (configured (s.queue q) v).bound = false then s.unbindQueue q (configured (s.queue q) v)
     else if (s.queue q).st = 0 then s.bindQueue q (configured (s.queue q) v)
     else (s.setQueue q (configured (s.queue q) v)).postOnce .evAdmission) := by
  rw [exec_qcfgWrite, State.writeQcfg, if_neg (mt (qcfgRefused_iff s q v).1 h)]
  simp only [Bool.not_eq_true']
  rfl

end

/-! ### Submissions -/

section
variable {s : State} {n o q : Nat} {t f : Bool} {r : BitVec 512}

theorem exec_queueSubmit (s : State) (n o : Nat) (t f : Bool) (r : BitVec 512) : exec (.evQueueSubmit n o t f r) s =
    .next (if s.barOpen n t && 0x20000 ≤ o && o < 0x20400 then s.windowWrite n (o - 0x20000) f r else s) := rfl

/-- An enabled write to the window of queue q is a submission if it is one whole 64-byte place (R314). -/
theorem exec_queueSubmit_of_window (hopen : s.barOpen n t = true) (hlo : 0x20000 ≤ o) (hhi : o < 0x20400)
    (hen : (s.iface n).force.getLsbD 0 = true) (hq : s.windowQueue n ((o - 0x20000) / 64) = some q) :
    exec (.evQueueSubmit n o t f r) s = .next (s.submit q (f && o % 64 = 0) r) := by
  have hoff : (o - 0x20000) % 64 = o % 64 := by omega
  rw [exec_queueSubmit, if_pos (by simp [hopen, hlo, hhi]), State.windowWrite, hen, hq, hoff]
  rfl

theorem windowWrite_of_disabled (h : (s.iface n).force.getLsbD 0 = false) : s.windowWrite n o f r = s := by
  rw [State.windowWrite, h]; rfl

theorem exec_queueSubmit_of_closed (h : s.barOpen n t = false ∨ (s.iface n).force.getLsbD 0 = false) :
    exec (.evQueueSubmit n o t f r) s = .next s := by
  rw [exec_queueSubmit]
  obtain h | h := h
  · simp [h]
  · rw [windowWrite_of_disabled h, ite_self]

end

theorem submit_of_bad (s : State) {f : Bool} {o : Nat} (q : Nat) (r : BitVec 512) (h : f = false ∨ o % 64 ≠ 0) :
    s.submit q (f && o % 64 = 0) r = s.setQueue q { s.queue q with badwr := true } := by
  obtain h | h := h <;> simp [State.submit, h]

theorem submit_of_full (s : State) (q : Nat) (r : BitVec 512)
    (h : ((s.queue q).st ≠ 1 ∧ (s.queue q).st ≠ 2) ∨ 16 ≤ (s.queue q).records.length) :
    s.submit q true r = s.setQueue q { s.queue q with ovf := true } := by
  simp [State.submit, h]

theorem submit_of_room (s : State) (q : Nat) (r : BitVec 512) (hst : (s.queue q).st = 1 ∨ (s.queue q).st = 2)
    (hroom : (s.queue q).records.length < 16) : s.submit q true r = s.appendRecord q r := by
  have hnot : ¬((s.queue q).st ≠ 1 ∧ (s.queue q).st ≠ 2 ∨ 16 ≤ (s.queue q).records.length) := by omega
  simp [State.submit, hnot]

theorem queueEvents : QueueEvents := by
  intro s q v x y
  refine ⟨exec_qcfgWrite_of_refused, fun h => ⟨fun hy => ?_, fun hy hx => ?_, fun hy hx => ?_⟩,
    fun n o t f r hopen hlo hhi hen hq => ?_, fun n o t f r => exec_queueSubmit_of_closed⟩
  · rw [exec_qcfgWrite_of_not_refused h, if_pos hy]; rfl
  · apply turnsTo_of_post
    rw [exec_qcfgWrite_of_not_refused h, if_neg (by simpa using hy), if_pos hx, State.bindQueue, boundState_eq]
  · apply turnsTo_of_postOnce
    rw [exec_qcfgWrite_of_not_refused h, if_neg (by simpa using hy), if_neg hx]
  · have hexec := exec_queueSubmit_of_window (f := f) (r := r) hopen hlo hhi hen hq
    refine ⟨fun hbad => ?_, fun hf ho hfull => ?_, fun hf ho hst hroom => turnsTo_of_post ?_⟩
    · rw [hexec, submit_of_bad s q r hbad]
    · rw [hexec, hf, decide_eq_true ho, Bool.true_and, submit_of_full s q r hfull]
    · rw [hexec, hf, decide_eq_true ho, Bool.true_and, submit_of_room s q r hst hroom]; rfl

end Sys2Proof.Claims

/-! ## The registers of the physical function's BAR 0 (R13, R315, R368, R393-R395, R399, R407, R415, R433) -/

namespace Sys2Proof.Machine

theorem inBlock_iff (o base stride n : Nat) : inBlock o base stride n = true ↔ base ≤ o ∧ o < base + stride * n := by
  simp [inBlock]

namespace State
variable (s : State) (v : Word)

theorem regWrite_unaligned {o : Nat} (h : o % 8 ≠ 0) : s.regWrite o v = s := if_pos h

/-- Register r of queue q (R315). -/
theorem regWrite_queue {o q r : Nat} (hq : q < 256) (ho : o = 0x100000 + 64 * q + r := by omega)
    (hr : r < 64 := by omega) (h8 : r % 8 = 0 := by omega) : s.regWrite o v =
    if r = 0 then s.writeQcfg q v else if r = 8 then s.writeQstatus q v else s := by
  have hplace : (o - 0x100000) / 64 = q := by omega
  have hreg : o % 64 = r := by omega
  simp only [regWrite, lowRegWrite, inBlock_iff, hplace, hreg]
  rw [if_neg (by omega), if_pos (by omega), if_pos (by omega)]

/-- Root register r of context x (R368). -/
theorem regWrite_root {o x r : Nat} (hx : x < 128) (ho : o = 0x110000 + 64 * x + r := by omega)
    (hr : r < 64 := by omega) (h8 : r % 8 = 0 := by omega) : s.regWrite o v =
    if r = 0 then { s with s1root := put s.s1root x (rootValue v) }
    else if r = 8 then { s with s2root := put s.s2root x (rootValue v) } else s := by
  have hplace : (o - 0x110000) / 64 = x := by omega
  have hreg : o % 64 = r := by omega
  simp only [regWrite, lowRegWrite, inBlock_iff, hplace, hreg]
  rw [if_neg (by omega), if_pos (by omega), if_neg (by omega), if_pos (by omega)]

theorem regWrite_high {o : Nat} (ho : 0x140000 ≤ o) (h8 : o % 8 = 0) : s.regWrite o v = s.highRegWrite o v := by
  rw [regWrite, if_neg (by omega), if_neg (by omega)]

/-- Register r of partition p (R393, R395, R398). -/
theorem regWrite_partition {o p r : Nat} (hp : p < 32) (ho : o = 0x140000 + 64 * p + r := by omega)
    (hr : r < 64 := by omega) (h8 : r % 8 = 0 := by omega) : s.regWrite o v =
    if r = 0 then s.writePtCfg p v else if r = 8 then s.writePtWays p v else if r = 16 then s.writePtRate p v else s := by
  have hplace : (o - 0x140000) / 64 = p := by omega
  have hreg : o % 64 = r := by omega
  rw [regWrite_high s v (by omega) (by omega)]
  simp only [highRegWrite, inBlock_iff, hplace, hreg]
  rw [if_pos (by omega)]

/-- Doubleword i of the tile set of partition p (R394). -/
theorem regWrite_tileSet {p i : Nat} (hp : p < 32) (hi : i < 32) :
    s.regWrite (0x150000 + 256 * p + 8 * i) v = s.writeTileSet p i v := by
  have hplace : (0x150000 + 256 * p + 8 * i - 0x150000) / 256 = p := by omega
  have hword : (0x150000 + 256 * p + 8 * i) % 256 / 8 = i := by omega
  rw [regWrite_high s v (by omega) (by omega)]
  simp only [highRegWrite, inBlock_iff, hplace, hword]
  rw [if_neg (by omega), if_pos (by omega)]

/-- VF_BIND of function n (R399). -/
theorem regWrite_vfBind {n : Nat} (hn : n < 64) : s.regWrite (0x160000 + 8 * n) v = s.writeVfBind n v := by
  have hplace : (0x160000 + 8 * n - 0x160000) / 8 = n := by omega
  rw [regWrite_high s v (by omega) (by omega)]
  simp only [highRegWrite, inBlock_iff, hplace]
  rw [if_neg (by omega), if_neg (by omega), if_pos (by omega)]

/-- Register r of link n (R415). -/
theorem regWrite_link {o n r : Nat} (hn : n < 80) (ho : o = 0x170000 + 64 * n + r := by omega)
    (hr : r < 64 := by omega) (h8 : r % 8 = 0 := by omega) : s.regWrite o v =
    if r = 0 then s.writeLinkCtl n v else if r = 8 then s.writeLinkStat n v else if r = 16 then s.markLane n v else s := by
  have hplace : (o - 0x170000) / 64 = n := by omega
  have hreg : o % 64 = r := by omega
  rw [regWrite_high s v (by omega) (by omega)]
  simp only [highRegWrite, inBlock_iff, hplace, hreg]
  rw [if_neg (by omega), if_neg (by omega), if_neg (by omega), if_pos (by omega)]

/-- PW_LAYER of layer l (R433). -/
theorem regWrite_power {l : Nat} (hl : l < 32) : s.regWrite (0x1A0000 + 8 * l) v = s.writePower l v := by
  have hplace : (0x1A0000 + 8 * l - 0x1A0000) / 8 = l := by omega
  rw [regWrite_high s v (by omega) (by omega)]
  simp only [highRegWrite, inBlock_iff, hplace]
  rw [if_neg (by omega), if_neg (by omega), if_neg (by omega), if_neg (by omega), if_pos (by omega)]

end State
end Sys2Proof.Machine

/-! ### The registers of a link and of Lodestone's mailbox (R407, R415) -/

namespace Sys2Proof.Machine.State

theorem regWrite_lmStat (s : State) (v : Word) : s.regWrite 0x1B0010 v = s.writeLmStat v := rfl

/-- A CMD that names no command has no effect (R415). -/
theorem linkCommand_of_none {c : Nat} (s : State) (n : Nat) (h : c = 0 ∨ 6 ≤ c) : s.linkCommand n c = s := by
  match c, h with
  | 0, _ => rfl
  | _ + 6, _ => rfl

end Sys2Proof.Machine.State

namespace Sys2Proof.Claims
open Sys2Proof Sys2Proof.Machine

/-- A CMD has the effect of the event it names (R412, R415). -/
theorem linkCommand_of_lookup {n c : Nat} {i : Instr} (s : State)
    (h : [(1, Instr.evPause n), (2, .evResume n), (3, .evRetrain n), (4, .evDisable n), (5, .evEnable n)].lookup c = some i) :
    .next (s.linkCommand n c) = exec i s := by
  match c, h with
  | 1, rfl | 2, rfl | 3, rfl | 4, rfl | 5, rfl => rfl

end Sys2Proof.Claims

/-! ## The registers of a function's BAR 0 (R402, R405) -/

namespace Sys2Proof.Machine.State
variable {s : State} {n : Nat} {t : Bool}

theorem vfWrite_of_open (h : s.barOpen n t = true) (o : Nat) (v : Word) : s.vfWrite n o t v = s.vfAccepted n o v := if_pos h

/-- An interface in ERROR takes no write (R405). -/
theorem vfWrite_of_error (h : (s.iface n).st = 3) (o : Nat) (v : Word) : s.vfWrite n o t v = s := by
  simp [vfWrite, barOpen, h]

/-- The LK registers lie below a function's windows (R402). -/
theorem vfAccepted_of_low {o : Nat} (s : State) (n : Nat) (v : Word) (ho : o < 0x20000) (h8 : o % 8 = 0) :
    s.vfAccepted n o v = s.writeLk n o v := by
  simp only [vfAccepted, inBlock_iff]
  rw [if_neg (by omega), if_neg (by omega), if_neg (by omega), if_neg (by omega), if_neg (by omega)]

theorem boundTo_iff (s : State) (x n : Nat) : s.boundTo x n = true ↔ (s.context x).st ≠ 0 ∧ (s.context x).iface = some n := by
  simp [boundTo]

/-- A function writes the stage-1 roots of the contexts bound to it (R368, R402). -/
theorem vfAccepted_root {x : Nat} (s : State) (n : Nat) (v : Word) (hx : x < 128) : s.vfAccepted n (0x30000 + 64 * x) v =
    if (s.context x).st ≠ 0 ∧ (s.context x).iface = some n then { s with s1root := put s.s1root x (rootValue v) } else s := by
  have hplace : (0x30000 + 64 * x - 0x30000) / 64 = x := by omega
  have hreg : (0x30000 + 64 * x) % 64 = 0 := by omega
  simp only [vfAccepted, inBlock_iff, hplace, hreg, decide_true, Bool.true_and, boundTo_iff]
  rw [if_neg (by omega), if_neg (by omega), if_pos (by omega)]

end Sys2Proof.Machine.State

namespace Sys2Proof.Claims
open Sys2Proof Sys2Proof.Machine

theorem exec_registerWrite_eq {s u : State} {o : Nat} {t : Bool} {v : Word} (h : s.regWrite o v = u) :
    exec (.evRegisterWrite none o t v) s = .next u :=
  congrArg Host.Outcome.next h

theorem exec_registerWrite_function (s : State) (n o : Nat) (t : Bool) (v : Word) :
    exec (.evRegisterWrite (some n) o t v) s = .next (if n < 64 then s.vfWrite n o t v else s) := rfl

theorem exec_registerWrite_error {n : Nat} {s : State} (h : (s.iface n).st = 3) (o : Nat) (t : Bool) (v : Word) :
    exec (.evRegisterWrite (some n) o t v) s = .next s := by
  rw [exec_registerWrite_function, State.vfWrite_of_error h, ite_self]

/-- The registers of link n that the host writes (R415). -/
theorem linkRegisterWrites {n : Nat} (s : State) (t : Bool) (v : Word) (hn : n < 80) :
    (field v 0 3 = 0 ∨ 6 ≤ field v 0 3 → exec (.evRegisterWrite none (0x170000 + 64 * n) t v) s = .next (ctlWritten s n v)) ∧
    (∀ c, [(1, Instr.evPause n), (2, .evResume n), (3, .evRetrain n), (4, .evDisable n), (5, .evEnable n)].lookup (field v 0 3) =
      some c → exec (.evRegisterWrite none (0x170000 + 64 * n) t v) s = exec c (ctlWritten s n v)) ∧
    exec (.evRegisterWrite none (0x170008 + 64 * n) t v) s = .next
      (if field v 15 1 = 1 then s.setLink n { s.link n with retryHi := false } else s) ∧
    sameAs (.evRegisterWrite none (0x170010 + 64 * n) t v) (.evLaneMark n v) s ∧
    exec (.evRegisterWrite none (0x170018 + 64 * n) t v) s = .next s := by
  have hctl : s.regWrite (0x170000 + 64 * n) v = (ctlWritten s n v).linkCommand n (field v 0 3) :=
    State.regWrite_link s v (r := 0) hn
  refine ⟨fun hnone => ?_, fun c hc => ?_, ?_, ?_, ?_⟩
  · rw [exec_registerWrite_eq hctl, State.linkCommand_of_none _ n hnone]
  · rw [exec_registerWrite_eq hctl, linkCommand_of_lookup _ hc]
  · exact exec_registerWrite_eq (State.regWrite_link s v (r := 8) hn)
  · exact exec_registerWrite_eq (State.regWrite_link s v (r := 16) hn)
  · exact exec_registerWrite_eq (State.regWrite_link s v (r := 24) hn)

/-- The registers of a function whose interface takes the write (R402, R405). -/
theorem functionRegisterWrites {n : Nat} {t : Bool} (s : State) (v : Word) (hn : n < 64) (hopen : s.barOpen n t = true) :
    exec (.evRegisterWrite (some n) 0 t v) s = .next (s.setIface n { s.iface n with ctl := BitVec.ofNat 4 (field v 0 4) }) ∧
    exec (.evRegisterWrite (some n) 0x10 t v) s =
      .next (s.setIface n { s.iface n with apbase := BitVec.ofNat 21 (field v 36 21) }) ∧
    ∀ x < 128, exec (.evRegisterWrite (some n) (0x30000 + 64 * x) t v) s = .next
      (if (s.context x).st ≠ 0 ∧ (s.context x).iface = some n
       then { s with s1root := put s.s1root x (v &&& 0x0000FFFFFFFFF001) } else s) := by
  have haccepted : ∀ o, exec (.evRegisterWrite (some n) o t v) s = .next (s.vfAccepted n o v) := fun o => by
    rw [exec_registerWrite_function, if_pos hn, State.vfWrite_of_open hopen]
  refine ⟨?_, ?_, fun x hx => ?_⟩
  · rw [haccepted, State.vfAccepted_of_low s n v (by omega) (by omega)]; rfl
  · rw [haccepted, State.vfAccepted_of_low s n v (by omega) (by omega)]; rfl
  · rw [haccepted, State.vfAccepted_root s n v hx]; rfl

theorem registerWrites : RegisterWrites := by
  intro s t v
  refine ⟨fun q hq => ?_, fun q hq => ?_, fun x hx => ⟨?_, ?_⟩, fun p hp => ⟨?_, ?_, ?_, fun i hi => ?_⟩, fun n hn => ?_,
    fun l hl => ?_, fun n hn => linkRegisterWrites s t v hn, ?_, fun o ho => ?_,
    fun n hn hopen => functionRegisterWrites s v hn hopen, fun n o h => exec_registerWrite_error h o t v⟩
  · exact exec_registerWrite_eq (State.regWrite_queue s v (r := 0) hq)
  · exact exec_registerWrite_eq (State.regWrite_queue s v (r := 8) hq)
  · exact exec_registerWrite_eq (State.regWrite_root s v (r := 0) hx)
  · exact exec_registerWrite_eq (State.regWrite_root s v (r := 8) hx)
  · exact exec_registerWrite_eq (State.regWrite_partition s v (r := 0) hp)
  · exact exec_registerWrite_eq (State.regWrite_partition s v (r := 8) hp)
  · exact exec_registerWrite_eq (State.regWrite_partition s v (r := 16) hp)
  · exact exec_registerWrite_eq (State.regWrite_tileSet s v hp hi)
  · exact exec_registerWrite_eq (State.regWrite_vfBind s v hn)
  · exact exec_registerWrite_eq (State.regWrite_power s v hl)
  · exact exec_registerWrite_eq (State.regWrite_lmStat s v)
  · exact exec_registerWrite_eq (State.regWrite_unaligned s v ho)

/-- Settles O46: the events of queues and windows, then each register by the place of its block. -/
theorem queuesAndRegisters : Obligations.QueuesAndRegisters := ⟨queueEvents, registerWrites⟩

end Sys2Proof.Claims

/-! # Proof of the device family: every step keeps memory in its canonical form (O60)

Two layers. The first says of each function that does not write memory that it leaves `mem` as it is: `f_mem`. The second
says of each function that does that the canonical form is kept: `wf_f`, on top of the rules of the memory operations in
the model's laws. An instruction is then one citation of the one or the other. -/

/-! ## Loops, choices and optional states that leave memory as it is -/

namespace Sys2Proof.Machine.State
variable {α : Type} {s t : State} {o : Option State}

/-- A loop whose every turn leaves memory alone leaves it alone. -/
@[simp] theorem foldl_mem {f : State → α → State} (hf : ∀ s a, (f s a).mem = s.mem) (l : List α) (s : State) :
    (l.foldl f s).mem = s.mem := by
  induction l generalizing s with
  | nil => rfl
  | cons a l ih => rw [List.foldl_cons, ih, hf]

@[simp] theorem foldl_post_mem (f : State → α → Instr) (l : List α) (s : State) :
    (l.foldl (fun s a => s.post (f s a)) s).mem = s.mem :=
  foldl_mem (fun s a => post_mem s (f s a)) l s
@[simp] theorem foldl_setTile_mem (p : State → α → Nat) (x : State → α → Tile) (l : List α) (s : State) :
    (l.foldl (fun s a => s.setTile (p s a) (x s a)) s).mem = s.mem :=
  foldl_mem (fun s a => setTile_mem s (p s a) (x s a)) l s
@[simp] theorem foldl_setSlot_mem (p n : State → α → Nat) (x : State → α → Slot) (l : List α) (s : State) :
    (l.foldl (fun s a => s.setSlot (p s a) (n s a) (x s a)) s).mem = s.mem :=
  foldl_mem (fun s a => setSlot_mem s (p s a) (n s a) (x s a)) l s
@[simp] theorem foldl_setThread_mem (t : State → α → Nat) (x : State → α → Thread) (l : List α) (s : State) :
    (l.foldl (fun s a => s.setThread (t s a) (x s a)) s).mem = s.mem :=
  foldl_mem (fun s a => setThread_mem s (t s a) (x s a)) l s

@[simp] theorem ite_mem (c : Prop) [Decidable c] (s t : State) : (if c then s else t).mem = if c then s.mem else t.mem :=
  apply_ite ..

/-- An optional next state, if it is one, has s's memory. -/
structure SameMem (s : State) (o : Option State) : Prop where
  mem_eq : ∀ {t}, o = some t → t.mem = s.mem

@[simp] theorem sameMem_none : s.SameMem none := ⟨nofun⟩
@[simp] theorem sameMem_some : s.SameMem (some t) ↔ t.mem = s.mem :=
  ⟨fun h => h.mem_eq rfl, fun h => ⟨fun e => by cases e; exact h⟩⟩
@[simp] theorem sameMem_ite {a b : Option State} (c : Prop) [Decidable c] :
    s.SameMem (if c then a else b) ↔ (c → s.SameMem a) ∧ (¬c → s.SameMem b) := by split <;> simp [*]

theorem SameMem.of_mem_eq (h : t.SameMem o) (e : t.mem = s.mem) : s.SameMem o := ⟨fun hu => (h.mem_eq hu).trans e⟩

theorem SameMem.bind {f : State → Option State} (h : s.SameMem o) (hf : ∀ t : State, t.SameMem (f t)) :
    s.SameMem (o.bind f) := by
  cases o with
  | none => exact sameMem_none
  | some t => exact (hf t).of_mem_eq (h.mem_eq rfl)

theorem SameMem.foldl {f : State → α → Option State} (hf : ∀ (t : State) a, t.SameMem (f t a)) (l : List α) :
    ∀ {o : Option State}, s.SameMem o → s.SameMem (l.foldl (fun o a => o.bind fun t => f t a) o) := by
  induction l with
  | nil => exact id
  | cons a l ih => exact fun h => ih (h.bind fun t => hf t a)

theorem SameMem.of_eq (h : s.SameMem o) (e : o = some t) : s.SameMem (some t) := e ▸ h

/-- The same for a loop over a state and what goes with it. -/
theorem foldl_fst_mem {β : Type} {f : State × β → α → State × β} {l : List α}
    (hf : ∀ q, ∀ a ∈ l, (f q a).1.mem = q.1.mem) (q : State × β) : (l.foldl f q).1.mem = q.1.mem := by
  induction l generalizing q with
  | nil => rfl
  | cons a l ih =>
    rw [List.foldl_cons, ih fun q b hb => hf q b (List.mem_cons_of_mem a hb), hf q a List.mem_cons_self]
end Sys2Proof.Machine.State

/-! ## The functions that leave memory as it is, file by file of the model -/

namespace Sys2Proof.Machine.State
variable (s : State)

/-! ### Ops -/

@[simp] theorem postOnce_mem (i) : (s.postOnce i).mem = s.mem := by simp [postOnce]
@[simp] theorem postNow_mem (i) : (s.postNow i).mem = s.mem := by simp [postNow]
@[simp] theorem postAt_mem (n i) : (s.postAt n i).mem = s.mem := by simp [postAt]
@[simp] theorem postFirst_mem (i) : (s.postFirst i).mem = s.mem := by simp [postFirst]
@[simp] theorem setG_mem (r v) : (s.setG r v).mem = s.mem := by simp [setG]
@[simp] theorem setC_mem (r v) : (s.setC r v).mem = s.mem := by simp [setC]
@[simp] theorem advance_mem : s.advance.mem = s.mem := by simp [advance]
@[simp] theorem retire_mem (d v) : (s.retire d v).mem = s.mem := by simp [retire]
@[simp] theorem retireC_mem (d v) : (s.retireC d v).mem = s.mem := by simp [retireC]
@[simp] theorem raise_mem (r) : (s.raise r).mem = s.mem := by simp [raise]
@[simp] theorem trapped_mem (t cause detail val addr) : (s.trapped t cause detail val addr).mem = s.mem := by
  simp [trapped]
@[simp] theorem takeTrapOf_mem (t cause detail val addr) : (s.takeTrapOf t cause detail val addr).mem = s.mem := by
  simp [takeTrapOf]
@[simp] theorem trap_mem (cause detail val) : (s.trap cause detail val).mem = s.mem := by simp [trap]
@[simp] theorem illegal_mem (i) : (s.illegal i).mem = s.mem := by simp [illegal]
@[simp] theorem privilege_mem (i) : (s.privilege i).mem = s.mem := by simp [privilege]
@[simp] theorem trapCap_mem (f a) : (s.trapCap f a).mem = s.mem := by simp [trapCap]
@[simp] theorem engarg_mem (w) : (s.engarg w).mem = s.mem := by simp [engarg]
@[simp] theorem trapReturn_mem : s.trapReturn.mem = s.mem := by simp [trapReturn]
@[simp] theorem yieldThread_mem (t x) : (s.yieldThread t x).mem = s.mem := by simp [yieldThread]
@[simp] theorem block_mem (w check) : (s.block w check).mem = s.mem := by simp [block]
@[simp] theorem yield_mem : s.yield.mem = s.mem := by simp [yield]
@[simp] theorem sendFor_mem (c m t) : (s.sendFor c m t).mem = s.mem := by simp [sendFor]
@[simp] theorem sendHeld_mem (c m) : (s.sendHeld c m).mem = s.mem := by simp [sendHeld]
@[simp] theorem countError_mem (gh) : (s.countError gh).mem = s.mem := by simp [countError]
@[simp] theorem haltThread_mem (t) : (s.haltThread t).mem = s.mem := by simp [haltThread]
@[simp] theorem spoilCopies_mem (x) : (s.spoilCopies x).mem = s.mem := by simp [spoilCopies]
@[simp] theorem setCredit_mem (p k c) : (s.setCredit p k c).mem = s.mem := by simp [setCredit]
@[simp] theorem charge_mem (x k) : (s.charge x k).mem = s.mem := by simp [charge]
@[simp] theorem holdEvent_mem (x k i) : (s.holdEvent x k i).mem = s.mem := by simp [holdEvent]

/-! ### Page -/

@[simp] theorem atsFetch_mem (k pa) : (s.atsFetch k pa).mem = s.mem := by simp [atsFetch]
@[simp] theorem holdEntry_mem (k e) : (s.holdEntry k e).mem = s.mem := by simp [holdEntry]

/-! ### Access -/

@[simp] theorem countRequest_mem (port p) : (s.countRequest port p).mem = s.mem := by simp [countRequest]
@[simp] theorem makeRoom_mem (port) : (s.makeRoom port).mem = s.mem := by simp [makeRoom]
@[simp] theorem fillL1_mem (port p) : (s.fillL1 port p).mem = s.mem := by simp [fillL1]
@[simp] theorem updateL1_mem (port p bs) : (s.updateL1 port p bs).mem = s.mem := by unfold updateL1; split <;> simp
@[simp] theorem dropL1_mem (port p) : (s.dropL1 port p).mem = s.mem := by simp [dropL1]
@[simp] theorem trapPage_mem (stage va) : (s.trapPage stage va).mem = s.mem := by simp [trapPage]
@[simp] theorem pageFault_mem (va f) : (s.pageFault va f).mem = s.mem := by simp [pageFault]
@[simp] theorem holdHelm_mem (p) : (s.holdHelm p).mem = s.mem := by simp [holdHelm]

/-! ### Fault -/

@[simp] theorem sendMsix_mem (f v) : (s.sendMsix f v).mem = s.mem := by simp [sendMsix]
@[simp] theorem dropRaised_mem (id) : (s.dropRaised id).mem = s.mem := by simp [dropRaised]
@[simp] theorem answerGen_mem (p n act) : (s.answerGen p n act).mem = s.mem := by
  unfold answerGen; dsimp only; split <;> simp
@[simp] theorem answerThread_mem (t cause act stage addr) : (s.answerThread t cause act stage addr).mem = s.mem := by
  simp [answerThread]
@[simp] theorem answerPort_mem (gh q page act) : (s.answerPort gh q page act).mem = s.mem :=
  (foldl_mem (fun _ _ => by simp) _ _).trans (by simp)
@[simp] theorem answerEngine_mem (k act) : (s.answerEngine k act).mem = s.mem := by
  unfold answerEngine; repeat' split <;> simp
@[simp] theorem answerSieve_mem (x k page act) : (s.answerSieve x k page act).mem = s.mem := by simp [answerSieve]
@[simp] theorem failRaiser_mem (r) : (s.failRaiser r).mem = s.mem := by unfold failRaiser; split <;> simp
@[simp] theorem answerRaiser_mem (r act) : (s.answerRaiser r act).mem = s.mem := by
  unfold answerRaiser; split <;> simp
@[simp] theorem applyAction_mem (r act) : (s.applyAction r act).mem = s.mem := by simp [applyAction]
@[simp] theorem passAction_mem (r act) : (s.passAction r act).mem = s.mem := by simp [passAction]
@[simp] theorem retryRaised_mem (h x) : (s.retryRaised h x).mem = s.mem := by simp [retryRaised]
@[simp] theorem respond_mem (x v) : (s.respond x v).mem = s.mem := by unfold respond; dsimp only; split <;> simp
@[simp] theorem freeH_mem (i) : (s.freeH i).mem = s.mem := by simp [freeH]
@[simp] theorem unresolvable_mem (r) : (s.unresolvable r).mem = s.mem := by simp [unresolvable]

/-! ### Flags -/

@[simp] theorem writeFaultq_mem (x v) : (s.writeFaultq x v).mem = s.mem := by simp [writeFaultq]
@[simp] theorem writeK_mem (k v) : (s.writeK k v).mem = s.mem := by unfold writeK; split <;> simp

/-! ### Fabric -/

@[simp] theorem wakeRegion_mem (g r) : (s.wakeRegion g r).mem = s.mem := by simp [wakeRegion]
@[simp] theorem wake_mem (p n) : (s.wake p n).mem = s.mem := by simp [wake]
@[simp] theorem moved_mem (p) : (s.moved p).mem = s.mem := by simp [moved]
@[simp] theorem nudge_mem (h) : (s.nudge h).mem = s.mem := foldl_mem (fun _ _ => by simp) _ _
@[simp] theorem raisePorts_mem (h) : (s.raisePorts h).mem = s.mem := by simp [raisePorts]
@[simp] theorem countArrived_mem (h r q) : (s.countArrived h r q).mem = s.mem := by simp [countArrived]
@[simp] theorem countTaken_mem (h r q) : (s.countTaken h r q).mem = s.mem := by simp [countTaken]
@[simp] theorem settlePort_mem (p n o) : (s.settlePort p n o).mem = s.mem := by simp [settlePort]
@[simp] theorem joinPort_mem (p n o a) : (s.joinPort p n o a).mem = s.mem := by simp [joinPort]
@[simp] theorem takeFrom_mem (p n o k) : (s.takeFrom p n o k).mem = s.mem := by
  unfold takeFrom; repeat' split <;> simp
@[simp] theorem sendEdge_mem (p e c a) : s.SameMem (s.sendEdge p e c a) := by
  simp only [sendEdge]; (repeat' split) <;> simp
@[simp] theorem sendPort_mem (p e o a) : s.SameMem (s.sendPort p e o a) := by simp [sendPort]
@[simp] theorem offerPort_mem (p n o a) : s.SameMem (s.offerPort p n o a) := by simp [offerPort]
@[simp] theorem offerRoute_mem (p r a) : s.SameMem (s.offerRoute p r a) := by
  unfold offerRoute; (repeat' split) <;> simp
@[simp] theorem offer_mem (p dest a) : s.SameMem (s.offer p dest a) := by simp only [offer]; (repeat' split) <;> simp
@[simp] theorem emitAt_mem (p n due dest b) : (s.emitAt p n due dest b).mem = s.mem := by simp [emitAt]
@[simp] theorem emitNow_mem (p n dest b) : (s.emitNow p n dest b).mem = s.mem := by simp [emitNow]
@[simp] theorem emitAll_mem (p n dest bs) : (s.emitAll p n dest bs).mem = s.mem := by simp [emitAll]
@[simp] theorem offerAll_mem (p dest n region bs) : s.SameMem (s.offerAll p dest n region bs) :=
  SameMem.foldl (fun t _ => offer_mem t ..) bs (by simp)
@[simp] theorem advanceTo_mem (p n dest) : (s.advanceTo p n dest).mem = s.mem := by
  unfold advanceTo; dsimp only; split
  · rfl
  · split
    · rfl
    · simpa using (offerAll_mem s ..).mem_eq ‹_›

/-! ### Compute -/

@[simp] theorem bearing_mem (op a) : (s.bearing op a).mem = s.mem := by simp [bearing]
@[simp] theorem countErrors_mem (p k) : (s.countErrors p k).mem = s.mem := by simp [countErrors]
@[simp] theorem fireWith_mem (f ports) : (s.fireWith f ports).mem = s.mem := by simp [fireWith]
@[simp] theorem fire_mem (op a f) : (s.fire op a f).mem = s.mem := by simp [fire]

/-! ### ConfigWord -/

@[simp] theorem applyWord_mem (p n b) : (s.applyWord p n b).mem = s.mem := by
  unfold applyWord; dsimp only; split <;> simp
@[simp] theorem applyPort_mem (p n o) : (s.applyPort p n o).mem = s.mem := by
  simp only [applyPort]; (repeat' split) <;> simp

/-! ### StreamElem -/

@[simp] theorem setRun_mem (r) : (s.setRun r).mem = s.mem := by simp [setRun]
theorem turn_mem (op a) {f : State → Option State} (hf : ∀ t : State, t.SameMem (f t)) : (s.turn op a f).mem = s.mem := by
  unfold turn; dsimp only; split
  · rfl
  · split
    · split
      · have := (hf _).mem_eq ‹_›; split <;> simp_all
      · simp
    · simp
@[simp] theorem taken_mem (o k) : (s.taken o k).mem = s.mem := by simp [taken]
@[simp] theorem toX_mem (bs) : (s.toX bs).mem = s.mem := by simp [toX]
@[simp] theorem toY_mem (bs) : (s.toY bs).mem = s.mem := by simp [toY]
@[simp] theorem toBoth_mem (bs) : (s.toBoth bs).mem = s.mem := by simp [toBoth]
@[simp] theorem elError_mem : s.elError.mem = s.mem := by simp [elError]
@[simp] theorem dropLoopP_mem : s.dropLoopP.mem = s.mem := by simp [dropLoopP]
@[simp] theorem steerStep_mem : s.SameMem s.steerStep := by unfold steerStep; (repeat' split) <;> simp
@[simp] theorem gateStep_mem : s.SameMem s.gateStep := by unfold gateStep; (repeat' split) <;> simp
@[simp] theorem mergeStep_mem : s.SameMem s.mergeStep := by simp only [mergeStep]; (repeat' split) <;> simp
@[simp] theorem splitStep_mem : s.SameMem s.splitStep := by unfold splitStep; split <;> simp
@[simp] theorem unzipStep_mem : s.SameMem s.unzipStep := by unfold unzipStep; split <;> simp
@[simp] theorem zipStep_mem : s.SameMem s.zipStep := by unfold zipStep; (repeat' split) <;> simp
@[simp] theorem frameStep_mem : s.SameMem s.frameStep := by unfold frameStep; split <;> simp
@[simp] theorem unframeStep_mem : s.SameMem s.unframeStep := by unfold unframeStep; split <;> simp
@[simp] theorem openSeq_mem (poi) : (s.openSeq poi).mem = s.mem := by simp [openSeq]
@[simp] theorem seqStep_mem : s.SameMem s.seqStep := by simp only [seqStep]; (repeat' split) <;> simp
@[simp] theorem seqxStep_mem : s.SameMem s.seqxStep := by simp [seqxStep]
@[simp] theorem dupFire_mem : s.dupFire.mem = s.mem := by unfold dupFire; dsimp only; split <;> simp

/-! ### Bank -/

@[simp] theorem setBank_mem (p i b) : (s.setBank p i b).mem = s.mem := by simp [setBank]
@[simp] theorem noteSpilled_mem (p i row x) : (s.noteSpilled p i row x).mem = s.mem := by
  unfold noteSpilled; split <;> simp
@[simp] theorem setRow_mem (p i row bs tags poi) : (s.setRow p i row bs tags poi).mem = s.mem := by simp [setRow]
@[simp] theorem mfifoStep_mem : s.SameMem s.mfifoStep := by simp only [mfifoStep]; (repeat' split) <;> simp
@[simp] theorem commandStep_mem : s.SameMem s.commandStep := by simp only [commandStep]; (repeat' split) <;> simp

/-! ### Stream -/

@[simp] theorem placeBeats_mem (p u n bs) : (s.placeBeats p u n bs).mem = s.mem := by simp [placeBeats]
@[simp] theorem sendBeat_mem (n b) : (s.sendBeat n b).mem = s.mem := by simp [sendBeat]
@[simp] theorem sendCap_mem (d c n) : (s.sendCap d c n).mem = s.mem := by simp [sendCap]
@[simp] theorem recvBeat_mem (d n) : (s.recvBeat d n).mem = s.mem := by unfold recvBeat; dsimp only; split <;> simp
@[simp] theorem drained_mem (n) : (s.drained n).mem = s.mem := by simp [drained]
@[simp] theorem streamBarrier_mem : s.streamBarrier.mem = s.mem := by simp [streamBarrier]
@[simp] theorem sendMsg_mem (v n) : (s.sendMsg v n).mem = s.mem := by simp [sendMsg]
@[simp] theorem raiseGen_mem (t) : (s.raiseGen t).mem = s.mem := by simp [raiseGen]
@[simp] theorem recvMsg_mem (d n) : (s.recvMsg d n).mem = s.mem := by simp [recvMsg]

/-! ### Barrier -/

@[simp] theorem setBarrier_mem (p b x) : (s.setBarrier p b x).mem = s.mem := by simp [setBarrier]
@[simp] theorem setAp_mem (t b v) : (s.setAp t b v).mem = s.mem := by simp [setAp]
@[simp] theorem arrive_mem (p b coll) : (s.arrive p b coll).mem = s.mem := by simp [arrive]
@[simp] theorem arriveThread_mem (b coll) : (s.arriveThread b coll).mem = s.mem := by simp [arriveThread]
@[simp] theorem waitBarrier_mem (b) : (s.waitBarrier b).mem = s.mem := by simp [waitBarrier]
@[simp] theorem arriveWait_mem (b) : (s.arriveWait b).mem = s.mem := by simp [arriveWait]
@[simp] theorem sendHome_mem (h m i) : (s.sendHome h m i).mem = s.mem := by simp [sendHome]
@[simp] theorem releaseWaiter_mem (b t) : (s.releaseWaiter b t).mem = s.mem := by simp [releaseWaiter]
@[simp] theorem applyPhase_mem (p b ph) : (s.applyPhase p b ph).mem = s.mem := by simp [applyPhase]
@[simp] theorem sendPhase_mem (h far p ph) : (s.sendPhase h far p ph).mem = s.mem := by simp [sendPhase]
@[simp] theorem applySaved_mem (x k b scope ph) : (s.applySaved x k b scope ph).mem = s.mem := by simp [applySaved]
@[simp] theorem announce_mem (h ph) : (s.announce h ph).mem = s.mem := by unfold announce; split <;> simp
@[simp] theorem countArrival_mem (h coll) : (s.countArrival h coll).mem = s.mem := by simp [countArrival]
@[simp] theorem openHome_mem (h p e) : (s.openHome h p e).mem = s.mem := by simp [openHome]
@[simp] theorem sendReply_mem (h p) : (s.sendReply h p).mem = s.mem := by simp [sendReply]
@[simp] theorem homeTake_mem (again h) : (s.homeTake again h).mem = s.mem := by
  unfold homeTake; repeat' split <;> simp
@[simp] theorem takePhase_mem (p b ph) : (s.takePhase p b ph).mem = s.mem := foldl_mem (fun _ _ => by simp) _ _
@[simp] theorem applyReply_mem (p b) : (s.applyReply p b).mem = s.mem := by unfold applyReply; split <;> simp
@[simp] theorem applyHere_mem (p b) : (s.applyHere p b).mem = s.mem := by simp [applyHere]
@[simp] theorem settleTile_mem (p b) : (s.settleTile p b).mem = s.mem := by simp [settleTile]
@[simp] theorem initBarrier_mem (scope v b) : (s.initBarrier scope v b).mem = s.mem := by simp [initBarrier]

/-! ### Beacon -/

@[simp] theorem broadcastRows_mem (c w) : (s.broadcastRows c w).mem = s.mem := by
  unfold broadcastRows; repeat' split <;> simp
@[simp] theorem beaconFence_mem : s.beaconFence.mem = s.mem := by simp [beaconFence]

/-! ### BeaconRun -/

@[simp] theorem refillStep_mem (l) : (s.refillStep l).mem = s.mem := by
  simp only [refillStep]; (repeat' split) <;> simp
@[simp] theorem frameLayer_mem (k l) : (s.frameLayer k l).mem = s.mem := by simp [frameLayer]
@[simp] theorem beginFrame_mem (k) : (s.beginFrame k).mem = s.mem :=
  (foldl_mem (fun _ _ => by simp) _ _).trans (by simp)
@[simp] theorem frame_mem (k) : (s.frame k).mem = s.mem := by simp [frame]
@[simp] theorem applyPayload_mem (k y0) : (s.applyPayload k y0).mem = s.mem := by simp [applyPayload]
@[simp] theorem fillSlot_mem (k n) : (s.fillSlot k n).mem = s.mem := by unfold fillSlot; split <;> rfl
@[simp] theorem contextSlot_mem (k n) : (s.contextSlot k n).mem = s.mem := by unfold contextSlot; split <;> simp
@[simp] theorem completionSlot_mem (k) : (s.completionSlot k).mem = s.mem := by unfold completionSlot; split <;> simp
@[simp] theorem clearSlot_mem (k) : (s.clearSlot k).mem = s.mem := by unfold clearSlot; split <;> simp
@[simp] theorem slotApply_mem (k n) : (s.slotApply k n).mem = s.mem := by simp [slotApply]
@[simp] theorem sleepLayer_mem (l) : (s.sleepLayer l).mem = s.mem := by simp [sleepLayer]
@[simp] theorem wakeLayer_mem (l) : (s.wakeLayer l).mem = s.mem := by simp [wakeLayer]

/-! ### Engine -/

@[simp] theorem postRequest_mem (kind d a w) : (s.postRequest kind d a w).mem = s.mem := by simp [postRequest]
@[simp] theorem request_mem (kind arg d a w) : (s.request kind arg d a w).mem = s.mem := by
  simp only [request]; (repeat' split) <;> simp

/-! ### EngineRun -/

@[simp] theorem engRevoked_mem (e detail va c) : (s.engRevoked e detail va c).2.mem = s.mem := by
  unfold engRevoked; split <;> rfl
@[simp] theorem dropGroupL1_mem (e p) : (s.dropGroupL1 e p).mem = s.mem := foldl_mem (fun _ _ => by simp) _ _
@[simp] theorem setEngine_mem (e) : (s.setEngine e).mem = s.mem := by simp [setEngine]
@[simp] theorem engHold_mem (e) : (s.engHold e).mem = s.mem := by simp [engHold]
@[simp] theorem engStop_mem (e va store f) : (s.engStop e va store f).mem = s.mem := by
  unfold engStop; split <;> simp
@[simp] theorem engNext_mem (e) : (s.engNext e).mem = s.mem := by simp [engNext]
@[simp] theorem engToken_mem (e) : (s.engToken e).mem = s.mem := by simp [engToken]
@[simp] theorem engDone_mem (e) : (s.engDone e).mem = s.mem := by simp [engDone]
@[simp] theorem collPop_mem (h) : (s.collPop h).mem = s.mem := by simp [collPop]
@[simp] theorem countBounce_mem (e) : (s.countBounce e).mem = s.mem := by unfold countBounce; split <;> simp
@[simp] theorem respondEngine_mem (k) : (s.respondEngine k).mem = s.mem := by
  unfold respondEngine; repeat' split <;> simp
@[simp] theorem engReturn_mem (h) : (s.engReturn h).mem = s.mem := by simp [engReturn]

/-! ### GroupCmd -/

@[simp] theorem postCommand_mem (h sub w) : (s.postCommand h sub w).mem = s.mem := by simp [postCommand]
@[simp] theorem groupCommand_mem (i d h w sub zeroRun) : (s.groupCommand i d h w sub zeroRun).mem = s.mem := by
  simp [groupCommand]

/-! ### Gen -/

@[simp] theorem cutPoint_mem (p n d) : (s.cutPoint p n d).mem = s.mem := by unfold cutPoint; split <;> simp
@[simp] theorem flushList_mem (p n kept l) : (s.flushList p n kept l).mem = s.mem := by
  induction l generalizing s kept with
  | nil => rfl
  | cons q l ih =>
    unfold flushList; dsimp only; split
    · split
      · rw [ih]; split <;> simp
      · simp
    · split
      · exact ih ..
      · split <;> simp
@[simp] theorem flushGen_mem (p n) : (s.flushGen p n).mem = s.mem := by simp [flushGen]
@[simp] theorem addMark_mem (p n late bs) : (s.addMark p n late bs).mem = s.mem := by simp [addMark]
@[simp] theorem addReq_mem (p n q) : (s.addReq p n q).mem = s.mem := by simp [addReq]
@[simp] theorem closeGen_mem (p n) : (s.closeGen p n).mem = s.mem := by simp [closeGen]
@[simp] theorem openGen_mem (p n) : (s.openGen p n).mem = s.mem := by simp only [openGen]; (repeat' split) <;> simp
@[simp] theorem genTake_mem (p n aop) : (s.genTake p n aop).mem = s.mem := by simp [genTake]
@[simp] theorem genLoop_mem (p n aop units) : (s.genLoop p n aop units).mem = s.mem := by
  simp [genLoop]
@[simp] theorem genAdvance_mem (p n) : (s.genAdvance p n).mem = s.mem := by simp [genAdvance]
@[simp] theorem genStop_mem (p n acts) : (s.genStop p n acts).mem = s.mem := by simp [genStop]
@[simp] theorem genIssue_mem (p n aop acts) : (s.genIssue p n aop acts).mem = s.mem := by
  simp only [genIssue, moved_mem, flushGen_mem, genAdvance_mem, setSlot_mem]
  rw [foldl_mem fun t c => by split <;> simp, genTake_mem]
@[simp] theorem genData_mem (p n skip) : (s.genData p n skip).mem = s.mem := by
  unfold genData; dsimp only; split
  · simp
  · split
    · simp
    · split <;> simp
@[simp] theorem genAbort_mem (p n) : (s.genAbort p n).mem = s.mem := by
  simp [genAbort]
@[simp] theorem settleStop_mem (p n) : (s.settleStop p n).mem = s.mem := by
  simp only [settleStop]; (repeat' split) <;> simp
@[simp] theorem genFire_mem (op a) : (s.genFire op a).mem = s.mem := by simp [genFire]
@[simp] theorem setReq_mem (p n id f) : (s.setReq p n id f).mem = s.mem := by simp [setReq]
@[simp] theorem finishReq_mem (p n q bs) : (s.finishReq p n q bs).mem = s.mem := by simp [finishReq]
@[simp] theorem joinRecord_mem (gh port page) : (s.joinRecord gh port page).mem = s.mem := by simp [joinRecord]
@[simp] theorem spillReq_mem (p n gh x q f) : (s.spillReq p n gh x q f).mem = s.mem := by
  unfold spillReq; split <;> simp
@[simp] theorem xlatFire_mem (a) : (s.xlatFire a).mem = s.mem := by unfold xlatFire; repeat' split <;> simp

/-! ### Lut -/

@[simp] theorem islandFire_mem (op a) : (s.islandFire op a).mem = s.mem := by simp [islandFire]
@[simp] theorem setEl_mem (x) : (s.setEl x).mem = s.mem := by simp [setEl]
@[simp] theorem lpackStep_mem : s.SameMem s.lpackStep := by unfold lpackStep; split <;> simp
@[simp] theorem setHeld_mem (y r) : (s.setHeld y r).mem = s.mem := by simp [setHeld]
@[simp] theorem lunpkStep_mem : s.SameMem s.lunpkStep := by simp only [lunpkStep]; (repeat' split) <;> simp
@[simp] theorem ldecStep_mem : s.SameMem s.ldecStep := by simp only [ldecStep]; (repeat' split) <;> simp

/-! ### Slab -/

@[simp] theorem setGen_mem (g) : (s.setGen g).mem = s.mem := by simp [setGen]
@[simp] theorem toBothIn_mem (n bs) : (s.toBothIn n bs).mem = s.mem := by simp [toBothIn]
@[simp] theorem sendSlab_mem (bs) : (s.sendSlab bs).mem = s.mem := by simp [sendSlab]
@[simp] theorem malformed_mem (k) : (s.malformed k).mem = s.mem := by simp [malformed]
theorem slabTurn_mem (cap ok) {f : State → List Beat → State} (hf : ∀ t l, (f t l).mem = t.mem) :
    s.SameMem (s.slabTurn cap ok f) := by
  unfold slabTurn; split
  · simp
  · dsimp only; split <;> split <;> simp [hf]
@[simp] theorem qmxSlab_mem (l) : (s.qmxSlab l).mem = s.mem := by simp [qmxSlab]
@[simp] theorem dqmxSlab_mem (l) : (s.dqmxSlab l).mem = s.mem := by simp [dqmxSlab]
@[simp] theorem qmxStep_mem : s.SameMem s.qmxStep := slabTurn_mem s _ _ qmxSlab_mem
@[simp] theorem dqmxStep_mem : s.SameMem s.dqmxStep := slabTurn_mem s _ _ dqmxSlab_mem

/-! ### Matrix -/

@[simp] theorem setMat_mem (x) : (s.setMat x).mem = s.mem := by simp [setMat]
@[simp] theorem xOut_mem (bs) : (s.xOut bs).mem = s.mem := by simp [xOut]
@[simp] theorem xStatus_mem (b) : (s.xStatus b).mem = s.mem := by simp [xStatus]
@[simp] theorem xErrors_mem (k) : (s.xErrors k).mem = s.mem := by simp [xErrors]
@[simp] theorem setXGen_mem (g) : (s.setXGen g).mem = s.mem := by simp [setXGen]
@[simp] theorem popToken_mem : s.popToken.mem = s.mem := by simp [popToken]
@[simp] theorem rejectToken_mem (poisoned) : (s.rejectToken poisoned).mem = s.mem := by simp [rejectToken]
@[simp] theorem openBeat_mem (o a) : (s.openBeat o a).mem = s.mem := by simp [openBeat]
@[simp] theorem openPort_mem (o) : (s.openPort o).mem = s.mem := by simp [openPort]
@[simp] theorem freeRoom_mem (l) : (s.freeRoom l).mem = s.mem := by simp [freeRoom]
@[simp] theorem judgePort_mem (o) : (s.judgePort o).mem = s.mem := by simp [judgePort]
@[simp] theorem takeIntake_mem (o i) : (s.takeIntake o i).mem = s.mem := by simp [takeIntake]
@[simp] theorem putWork_mem (w) : (s.putWork w).mem = s.mem := by simp [putWork]
@[simp] theorem doneOp_mem : s.doneOp.mem = s.mem := by simp [doneOp]
@[simp] theorem arrayWork_mem (cost) : (s.arrayWork cost).1.mem = s.mem := by
  simp only [arrayWork]; (repeat' split) <;> simp
@[simp] theorem openPorts_mem (need) : (s.openPorts need).mem = s.mem := by simp [openPorts]
theorem matrixOp_mem (use a need valid) {f : State → State} (hf : ∀ t, (f t).mem = t.mem) :
    (s.matrixOp use a need valid f).mem = s.mem := by
  unfold matrixOp; dsimp only; split
  · rfl
  · split
    · simp
    · split <;> simp [hf]
theorem withSlabs_mem (need) {f : State → List Intake → State} (hf : ∀ t is, (f t is).mem = t.mem) :
    (s.withSlabs need f).mem = s.mem := by
  unfold withSlabs; dsimp only; split <;> simp [hf]
@[simp] theorem takeAll_mem (need is) : (s.takeAll need is).mem = s.mem := by simp [takeAll]
@[simp] theorem multiply_mem (op a) : (s.multiply op a).mem = s.mem := by
  refine withSlabs_mem s _ fun t is => ?_
  dsimp only; split <;> simp
@[simp] theorem loadOp_mem (a add) : (s.loadOp a add).mem = s.mem := by
  refine withSlabs_mem s _ fun t is => ?_
  dsimp only; split <;> simp
@[simp] theorem vectorOp_mem (a bias) : (s.vectorOp a bias).mem = s.mem :=
  withSlabs_mem s _ fun t is => by simp
@[simp] theorem emitBlock_mem (tgt mode same poi vs) : (s.emitBlock tgt mode same poi vs).mem = s.mem := by
  simp [emitBlock]
@[simp] theorem storeOp_mem (a zero) : (s.storeOp a zero).mem = s.mem := by simp [storeOp]
@[simp] theorem zeroOp_mem (a) : (s.zeroOp a).mem = s.mem := by simp [zeroOp]
@[simp] theorem bloadOp_mem (a) : (s.bloadOp a).mem = s.mem :=
  withSlabs_mem s _ fun t is => by simp
@[simp] theorem bdropOp_mem : s.bdropOp.mem = s.mem := by simp [bdropOp]
@[simp] theorem trnOp_mem (a) : (s.trnOp a).mem = s.mem :=
  withSlabs_mem s _ fun t is => by simp
@[simp] theorem rowOp_mem (a sum) : (s.rowOp a sum).mem = s.mem := by simp [rowOp]
@[simp] theorem statusOp_mem (v clear) : (s.statusOp v clear).mem = s.mem := by simp [statusOp]
@[simp] theorem nodeTurn_mem (op a) : (s.nodeTurn op a).mem = s.mem := by unfold nodeTurn; repeat' split <;> simp
@[simp] theorem abandon_mem (p) : (s.abandon p).mem = s.mem := by simp [abandon]

/-! ### Online -/

@[simp] theorem examineCut_mem (p n) : s.SameMem (s.examineCut p n) := by
  simp only [examineCut]; (repeat' split) <;> simp
@[simp] theorem streamOut_mem (op bs) : (s.streamOut op bs).mem = s.mem := by simp [streamOut]
@[simp] theorem endStream_mem (op) : (s.endStream op).mem = s.mem := by simp [endStream]
@[simp] theorem drainStep_mem : s.SameMem s.drainStep := by unfold drainStep; dsimp only; split <;> simp
@[simp] theorem openStream_mem (op) : s.SameMem (s.openStream op) := by simp [openStream]
@[simp] theorem badStream_mem (op) : (s.badStream op).mem = s.mem := by simp [badStream]
@[simp] theorem collectStep_mem (op) : s.SameMem (s.collectStep op) := by
  unfold collectStep; dsimp only; split <;> simp
@[simp] theorem produceStep_mem (op) : s.SameMem (s.produceStep op) := by simp [produceStep]
@[simp] theorem fromStep_mem : s.SameMem s.fromStep := by unfold fromStep; split <;> simp
@[simp] theorem ofromStep_mem : s.SameMem s.ofromStep := by simp [ofromStep]
@[simp] theorem arithStep_mem (op) : s.SameMem (arithStep op s) := by
  unfold arithStep; split
  · exact (drainStep_mem s).of_eq ‹_›
  · split
    · simp
    · split
      · simp
      · split
        · exact (collectStep_mem s op).of_eq ‹_›
        · simp
@[simp] theorem otoStep_mem : s.SameMem s.otoStep := by
  unfold otoStep; split
  · exact (drainStep_mem s).of_eq ‹_›
  · simp
@[simp] theorem ocmpStep_mem : s.SameMem s.ocmpStep := by
  unfold ocmpStep; split
  · exact (drainStep_mem s).of_eq ‹_›
  · dsimp only; split
    · simp
    · split
      · simp
      · split <;> simp
@[simp] theorem chosenStep_mem (op) : s.SameMem (s.chosenStep op) := by unfold chosenStep; dsimp only; split <;> simp
@[simp] theorem choiceStep_mem (op) : s.SameMem (choiceStep op s) := by
  unfold choiceStep; split
  · exact (drainStep_mem s).of_eq ‹_›
  · simp only [sameMem_ite]
    split <;> simp
theorem onlineTurn_mem (op a) {f : State → Option State} (hf : ∀ t : State, t.SameMem (f t)) :
    (s.onlineTurn op a f).mem = s.mem :=
  turn_mem s op a fun t => by split <;> simp [hf]

/-! ### Port -/

@[simp] theorem popInch_mem (p e c) : (s.popInch p e c).mem = s.mem := by simp [popInch]
@[simp] theorem terminate_mem (p e c b) : (s.terminate p e c b).mem = s.mem := by simp [terminate]
@[simp] theorem moveInch_mem (op p e c) : s.SameMem (moveInch op s p e c) := by
  unfold moveInch; split
  · simp
  · dsimp only; split
    · simp
    · split
      · simp
      · split
        · simp
        · exact (sendEdge_mem ..).of_mem_eq (popInch_mem ..)
@[simp] theorem edgeStep_mem (op) : s.SameMem (edgeStep op s) := by
  unfold edgeStep; dsimp only; split
  · refine sameMem_some.2 (foldl_fst_mem (fun q c _ => ?_) (s, false))
    split
    · exact (moveInch_mem ..).mem_eq ‹_›
    · rfl
  · simp
@[simp] theorem hinPort_mem (o) : s.SameMem (s.hinPort o) := by unfold hinPort; split <;> simp
@[simp] theorem houtTo_mem (i) : s.SameMem (s.houtTo i) := by simp only [houtTo]; (repeat' split) <;> simp
theorem eachMove_mem {fs : List (State → Option State)} (hf : ∀ f ∈ fs, ∀ t : State, t.SameMem (f t)) :
    s.SameMem (eachMove fs s) := by
  unfold eachMove; dsimp only; split
  · refine sameMem_some.2 (foldl_fst_mem (fun q f hm => ?_) (s, false))
    split
    · exact (hf f hm _).mem_eq ‹_›
    · rfl
  · exact sameMem_none
theorem hinMoves_mem : ∀ f ∈ hinMoves, ∀ t : State, t.SameMem (f t) := by simp [hinMoves]
theorem houtMoves_mem : ∀ f ∈ houtMoves, ∀ t : State, t.SameMem (f t) := by simp [houtMoves]
@[simp] theorem kgateStep_mem : s.SameMem s.kgateStep := by unfold kgateStep; split <;> simp
@[simp] theorem klastStep_mem : s.SameMem s.klastStep := by unfold klastStep; dsimp only; split <;> simp
@[simp] theorem kwaveStep_mem : s.SameMem s.kwaveStep := by simp [kwaveStep]
@[simp] theorem kbarStep_mem : s.SameMem s.kbarStep := by simp only [kbarStep]; (repeat' split) <;> simp

/-! ### Reduce -/

@[simp] theorem closeRun_mem (op poi byLoop) : (s.closeRun op poi byLoop).mem = s.mem := by simp [closeRun]
@[simp] theorem takeValue_mem (op b) : (s.takeValue op b).mem = s.mem := by simp [takeValue]
@[simp] theorem takeLoop_mem (op b) : (s.takeLoop op b).mem = s.mem := by simp [takeLoop]
@[simp] theorem restFor_mem (n) : (s.restFor n).mem = s.mem := by simp [restFor]
@[simp] theorem reduceStep_mem (op) : s.SameMem (reduceStep op s) := by unfold reduceStep; split <;> simp
@[simp] theorem mismatched_mem (k) : (s.mismatched k).mem = s.mem := by simp [mismatched]
@[simp] theorem dotaStep_mem (op) : s.SameMem (dotaStep op s) := by unfold dotaStep; dsimp only; split <;> simp

/-! ### Region -/

@[simp] theorem claim_mem (h r) : (s.claim h r).mem = s.mem := by simp [claim]
@[simp] theorem gateGroup_mem (h) : (s.gateGroup h).mem = s.mem := by simp [gateGroup]
@[simp] theorem setRegion_mem (h r f) : (s.setRegion h r f).mem = s.mem := by simp [setRegion]
@[simp] theorem markMembers_mem (h r gated) : (s.markMembers h r gated).mem = s.mem := by simp [markMembers]
@[simp] theorem takeWord_mem (q) : (s.takeWord q).mem = s.mem := by unfold takeWord; dsimp only; split <;> simp
@[simp] theorem holdRegion_mem (h r due beat) : (s.holdRegion h r due beat).mem = s.mem := by simp [holdRegion]

/-! ### Route -/

@[simp] theorem claimPath_mem (path) : (s.claimPath path).mem = s.mem := foldl_mem (fun _ _ => by simp) _ _
@[simp] theorem holdPort_mem (t k) : (s.holdPort t k).mem = s.mem := by simp [holdPort]
@[simp] theorem freePort_mem (t k) : (s.freePort t k).mem = s.mem := by simp [freePort]
@[simp] theorem layRoute_mem (h l p i r) : s.SameMem (s.layRoute h l p i r) := by
  unfold layRoute; dsimp only; split
  · simp
  · split
    · simp
    · cases s.netPath _ _ p r.tile <;> simp
@[simp] theorem releaseRoutes_mem (p) : (s.releaseRoutes p).mem = s.mem :=
  foldl_mem (fun _ _ => foldl_mem (fun t _ => freePort_mem t ..) _ _) _ _
@[simp] theorem layRoutes_mem (h l) : s.SameMem (s.layRoutes h l) :=
  SameMem.foldl (fun t _ => layRoute_mem t ..) _ (by simp)

/-! ### System -/

@[simp] theorem scrubThread_mem (t) : (s.scrubThread t).mem = s.mem := by simp [scrubThread]
@[simp] theorem syield_mem : s.syield.mem = s.mem := by simp [syield]
@[simp] theorem sleepFor_mem (n) : (s.sleepFor n).mem = s.mem := by simp [sleepFor]
@[simp] theorem endThread_mem : s.endThread.mem = s.mem := by simp [endThread]
@[simp] theorem broadcast_mem (v st2) : (s.broadcast v st2).mem = s.mem := by
  simp [broadcast]
@[simp] theorem stopContext_mem (x) : (s.stopContext x).mem = s.mem := foldl_mem (fun _ _ => by simp) _ _
@[simp] theorem queuesTo_mem (x fromSt toSt) : (s.queuesTo x fromSt toSt).mem = s.mem := by simp [queuesTo]
@[simp] theorem quiesce_mem (x) : (s.quiesce x).2.mem = s.mem := by unfold quiesce; dsimp only; split <;> simp
@[simp] theorem releaseHyper_mem (h) : (s.releaseHyper h).mem = s.mem := by simp [releaseHyper]
@[simp] theorem leaseAgain_mem (h) : (s.leaseAgain h).mem = s.mem := by simp [leaseAgain]
@[simp] theorem resumeContext_mem (x) : (s.resumeContext x).2.mem = s.mem := by
  unfold resumeContext; dsimp only; split <;> simp
@[simp] theorem dropAt_mem (i r) : (s.dropAt i r).mem = s.mem := by unfold dropAt; split <;> simp

/-! ### Sieve -/

@[simp] theorem setSieve_mem (x v) : (s.setSieve x v).mem = s.mem := by simp [setSieve]
@[simp] theorem markScrub_mem (x) : (s.markScrub x).mem = s.mem := by simp [markScrub]
@[simp] theorem sieveGo_mem (x) : (s.sieveGo x).mem = s.mem := by
  simp [sieveGo]
@[simp] theorem writeSieveCtl_mem (x w) : (s.writeSieveCtl x w).mem = s.mem := by simp [writeSieveCtl]
@[simp] theorem writeSieve_mem (x o w) : (s.writeSieve x o w).mem = s.mem := by simp [writeSieve]
@[simp] theorem sweepWindow_mem (x k) : (s.sweepWindow x k).mem = s.mem := by simp [sweepWindow]
@[simp] theorem scrubGroup_mem (x h) : (s.scrubGroup x h).mem = s.mem := by simp [scrubGroup]
@[simp] theorem scrubContext_mem (x) : (s.scrubContext x).mem = s.mem := by simp [scrubContext]
@[simp] theorem releasePilot_mem (h) : (s.releasePilot h).mem = s.mem := by simp [releasePilot]
@[simp] theorem askStops_mem (x) : (s.askStops x).mem = s.mem := by simp [askStops]
@[simp] theorem scrubWhenCut_mem (x) : (s.scrubWhenCut x).mem = s.mem := by
  simp [scrubWhenCut]
@[simp] theorem requestScrub_mem (x) : (s.requestScrub x).mem = s.mem := by simp [requestScrub]

@[simp] theorem chargeReads_mem (x k n) : (s.chargeReads x k n).mem = s.mem := by simp [chargeReads]
@[simp] theorem sievePass_mem (x k next pages) : (s.sievePass x k next pages).mem = s.mem := by simp [sievePass]
@[simp] theorem sweepDone_mem (x) : (s.sweepDone x).mem = s.mem := by simp [sweepDone]
@[simp] theorem abandonSweep_mem (x) : (s.abandonSweep x).mem = s.mem := by simp [abandonSweep]

/-! ### Placement -/

@[simp] theorem choosePorts_mem (l) : (s.choosePorts l).1.mem = s.mem :=
  foldl_fst_mem (fun q _ _ => by exact foldl_fst_mem (fun q _ _ => by exact used_mem q.1) q) (s, [])
@[simp] theorem writeChart_mem (h l) : (s.writeChart h l).mem = s.mem := by
  simp only [writeChart]
  cases hl : State.layRoutes _ h l with
  | none => simp
  | some t => rw [Option.getD_some, (layRoutes_mem ..).mem_eq hl]; simp
@[simp] theorem markRows_mem (p x) : (s.markRows p x).mem = s.mem := foldl_mem (fun _ _ => by simp) _ _
@[simp] theorem dropTile_mem (p banks) : (s.dropTile p banks).mem = s.mem := by simp [dropTile]
@[simp] theorem renameRecords_mem (h f) : (s.renameRecords h f).mem = s.mem := by simp [renameRecords]
@[simp] theorem renameEngines_mem (h f) : (s.renameEngines h f).mem = s.mem := by simp [renameEngines]
@[simp] theorem renameTiles_mem (h f) : (s.renameTiles h f).mem = s.mem := by simp [renameTiles]
@[simp] theorem ownBcst_mem (p) : (s.ownBcst p).mem = s.mem := by simp [ownBcst]
@[simp] theorem repost_mem (h) : (s.repost h).mem = s.mem := foldl_mem (fun _ _ => by simp) _ _
@[simp] theorem lostPhases_mem (h j p) : (s.lostPhases h j p).mem = s.mem := by simp [lostPhases]

/-! ### GroupRun -/

@[simp] theorem setCommand_mem (h c) : (s.setCommand h c).mem = s.mem := by simp [setCommand]
@[simp] theorem recordCommand_mem (h sub who) : (s.recordCommand h sub who).mem = s.mem := by
  unfold recordCommand; split <;> rfl
@[simp] theorem finishCommand_mem (h c code) : (s.finishCommand h c code).mem = s.mem := by simp [finishCommand]
@[simp] theorem beginCommand_mem (h c) : (s.beginCommand h c).mem = s.mem := by simp [beginCommand]
@[simp] theorem planCommand_mem (h c l) : (s.planCommand h c l).mem = s.mem := by simp [planCommand]
theorem takeCommand_mem (h sub who again) {act : State → GCommand → State} (hact : ∀ t c, (act t c).mem = t.mem) :
    (s.takeCommand h sub who again act).mem = s.mem := by
  unfold takeCommand; dsimp only; split
  · rfl
  · split
    · simp
    · split
      · simp
      · split <;> simp [hact]
@[simp] theorem stopThread_mem (t) : (s.stopThread t).mem = s.mem := by simp [stopThread]
@[simp] theorem stopParts_mem (h) : (s.stopParts h).mem = s.mem := by simp [stopParts]
@[simp] theorem stopGroup_mem (h who) : (s.stopGroup h who).mem = s.mem := by
  unfold stopGroup; dsimp only; split <;> simp
@[simp] theorem stopRequest_mem (h who) : (s.stopRequest h who).mem = s.mem := by
  unfold stopRequest; split
  · exact takeCommand_mem _ _ _ _ _ fun t c => by split <;> simp
  · split <;> simp
@[simp] theorem takeQueued_mem (h l) : (s.takeQueued h l).mem = s.mem := by simp [takeQueued]
@[simp] theorem liftPayloads_mem (h) : (s.liftPayloads h).mem = s.mem := foldl_mem (fun _ _ => by simp) _ _
@[simp] theorem afterCut_mem (h) : (s.afterCut h).mem = s.mem := by simp only [afterCut]; (repeat' split) <;> simp
@[simp] theorem emptyCaches_mem (h) : (s.emptyCaches h).mem = s.mem := by simp [emptyCaches]
@[simp] theorem holdParts_mem (h on) : (s.holdParts h on).mem = s.mem := by simp [holdParts]
@[simp] theorem releaseParts_mem (h) : (s.releaseParts h).mem = s.mem := by simp [releaseParts]
@[simp] theorem freezeGroup_mem (h who) : (s.freezeGroup h who).mem = s.mem := by simp [freezeGroup]
@[simp] theorem freezeRequest_mem (h who) : (s.freezeRequest h who).mem = s.mem := by
  unfold freezeRequest; split
  · exact takeCommand_mem _ _ _ _ _ fun t c => by split <;> simp
  · split
    · simp
    · split <;> simp
@[simp] theorem stopExpire_mem (h) : (s.stopExpire h).mem = s.mem := by unfold stopExpire; repeat' split <;> simp
@[simp] theorem applyActions_mem (h) : (s.applyActions h).mem = s.mem := by simp [applyActions]
@[simp] theorem restorePayloads_mem (h) : (s.restorePayloads h).mem = s.mem := by simp [restorePayloads]
@[simp] theorem standParts_mem (h) : (s.standParts h).mem = s.mem := by simp [standParts]
@[simp] theorem wakeThread_mem (t) : (s.wakeThread t).mem = s.mem := by simp [wakeThread]
@[simp] theorem startParts_mem (h) : (s.startParts h).mem = s.mem :=
  (foldl_mem (fun _ _ => by simp) _ _).trans (by simp)
@[simp] theorem resumeGroup_mem (h) : (s.resumeGroup h).mem = s.mem := by simp [resumeGroup]
@[simp] theorem settleHolds_mem (h) : (s.settleHolds h).mem = s.mem := by simp [settleHolds]
@[simp] theorem leaveHolds_mem (h who) : (s.leaveHolds h who).mem = s.mem := by simp [leaveHolds]
@[simp] theorem resumeHolds_mem (h who) : (s.resumeHolds h who).mem = s.mem := by simp [resumeHolds]
@[simp] theorem resumeRequest_mem (h) : (s.resumeRequest h).mem = s.mem := by
  unfold resumeRequest; split
  · exact takeCommand_mem _ _ _ _ _ fun t c => by dsimp only; split <;> simp
  · simp
@[simp] theorem applyKept_mem (h) : (s.applyKept h).mem = s.mem := by simp [applyKept]
@[simp] theorem settleHomes_mem (h) : (s.settleHomes h).mem = s.mem := by
  unfold settleHomes
  refine (foldl_mem (fun t p => by simp) _ _).trans (foldl_mem (fun t i => foldl_mem (fun u m => ?_) _ _) _ _)
  dsimp only; split
  · split <;> simp
  · simp
@[simp] theorem freezeRelease_mem (h) : (s.freezeRelease h).mem = s.mem := by simp [freezeRelease]
@[simp] theorem retryLeases_mem (x) : (s.retryLeases x).mem = s.mem := by simp [retryLeases]
@[simp] theorem endMove_mem (h c code) : (s.endMove h c code).mem = s.mem := by simp [endMove]
@[simp] theorem startMove_mem (h c) : (s.startMove h c).mem = s.mem := by unfold startMove; split <;> simp
@[simp] theorem compact_mem (h) : (s.compact h).mem = s.mem := by simp only [compact]; (repeat' split) <;> simp
@[simp] theorem dropParties_mem (h) : (s.dropParties h).mem = s.mem := by simp [dropParties]
@[simp] theorem standStill_mem (h) : (s.standStill h).mem = s.mem := by simp [standStill]
@[simp] theorem leaveTile_mem (h p) : (s.leaveTile h p).mem = s.mem := by simp [leaveTile]
@[simp] theorem evictGroup_mem (h) : (s.evictGroup h).mem = s.mem := by simp [evictGroup]
@[simp] theorem takeRows_mem (h p) : (s.takeRows h p).mem = s.mem := by simp [takeRows]
@[simp] theorem endReplace_mem (h c) : (s.endReplace h c).mem = s.mem := by unfold endReplace; split <;> simp
@[simp] theorem snapDone_mem (s0 h off len ep) : (snapDone s0 s h off len ep).mem = s.mem := rfl

/-! ### Fetch -/

@[simp] theorem tick_mem (n) : (s.tick n).mem = s.mem := by simp [tick]

/-! ### Queue -/

@[simp] theorem appendRecord_mem (q r) : (s.appendRecord q r).mem = s.mem := by simp [appendRecord]
@[simp] theorem push_mem (d q r) : (s.push d q r).mem = s.mem := by simp [push]
@[simp] theorem bindQueue_mem (q y) : (s.bindQueue q y).mem = s.mem := by simp [bindQueue]
@[simp] theorem unbindQueue_mem (q y) : (s.unbindQueue q y).mem = s.mem := by simp [unbindQueue]
@[simp] theorem writeQcfg_mem (q v) : (s.writeQcfg q v).mem = s.mem := by simp [writeQcfg]

/-! ### Admission -/

@[simp] theorem holdRead_mem (x i) : (s.holdRead x i).mem = s.mem := by simp [holdRead]
@[simp] theorem submit_mem (q full r) : (s.submit q full r).mem = s.mem := by simp [submit]
@[simp] theorem completeLaunch_mem (q x r) : (s.completeLaunch q x r).mem = s.mem := by simp [completeLaunch]
@[simp] theorem rejectRecord_mem (q x img err code block slot) : (s.rejectRecord q x img err code block slot).mem = s.mem := by
  simp [rejectRecord]
@[simp] theorem rejectKernel_mem (h err code block slot) : (s.rejectKernel h err code block slot).mem = s.mem := by
  simp [rejectKernel]
@[simp] theorem readStopped_mem (q x err e) : (s.readStopped q x err e).2.mem = s.mem := by
  unfold readStopped; repeat' split <;> simp
@[simp] theorem refreshReady_mem : s.refreshReady.mem = s.mem := by simp [refreshReady]
@[simp] theorem takeHead_mem (q) : (s.takeHead q).mem = s.mem := by simp [takeHead]
@[simp] theorem firstAdmission_mem (x) : (s.firstAdmission x).mem = s.mem := by simp [firstAdmission]
@[simp] theorem startKernel_mem (q x r seeds) : (s.startKernel q x r seeds).mem = s.mem := by simp [startKernel]
@[simp] theorem verifyFailed_mem (h few r) : (s.verifyFailed h few r).mem = s.mem := by simp [verifyFailed]
@[simp] theorem verified_mem (h d m) : (s.verified h d m).mem = s.mem := by simp [verified]
@[simp] theorem loadStopped_mem (h e) : (s.loadStopped h e).mem = s.mem := by unfold loadStopped; split <;> simp
@[simp] theorem takeImage_mem (h) : (s.takeImage h).mem = s.mem := by simp [takeImage]
@[simp] theorem windowWrite_mem (v o full r) : (s.windowWrite v o full r).mem = s.mem := by
  simp only [windowWrite]; (repeat' split) <;> simp

/-! ### Branch -/

@[simp] theorem jumpTo_mem (t) : (jumpTo s t).mem = s.mem := by unfold jumpTo; split <;> simp
@[simp] theorem branch_mem (taken o) : (branch s taken o).mem = s.mem := by simp [branch]
@[simp] theorem setPcc_mem (x) : (setPcc s x).mem = s.mem := by simp [setPcc]

/-! ### Kernel -/

@[simp] theorem compactFor_mem (h) : (s.compactFor h).mem = s.mem := by
  simp only [compactFor]; (repeat' split) <;> simp
@[simp] theorem configureTile_mem (h b p right) : (s.configureTile h b p right).mem = s.mem :=
  (foldl_mem (fun _ _ => by simp) _ _).trans (by simp)
@[simp] theorem releaseTiles_mem (h) : (s.releaseTiles h).mem = s.mem := by simp [releaseTiles]
@[simp] theorem finalCount_mem (h) : (s.finalCount h).mem = s.mem := by simp [finalCount]
@[simp] theorem refuseConfig_mem (h i) : (s.refuseConfig h i).mem = s.mem := by simp [refuseConfig]
@[simp] theorem configureNext_mem (h) : (s.configureNext h).mem = s.mem := by
  unfold configureNext; dsimp only; split
  · rfl
  · split
    · rfl
    · split <;> simp
@[simp] theorem startThread_mem (h k) : (s.startThread h k).mem = s.mem := by
  unfold startThread; dsimp only; split <;> simp
@[simp] theorem afterArmed_mem (h) : (s.afterArmed h).mem = s.mem := by
  simp [afterArmed]
@[simp] theorem armGroup_mem (h) : (s.armGroup h).mem = s.mem := by simp [armGroup]
@[simp] theorem tileReported_mem (h p) : (s.tileReported h p).mem = s.mem := by
  simp [tileReported]
@[simp] theorem waveAt_mem (p r) : (s.waveAt p r).mem = s.mem := by simp [waveAt]
@[simp] theorem armRegion_mem (h r) : (s.armRegion h r).mem = s.mem := by
  simp [armRegion]
@[simp] theorem wave_mem (h r) : (s.wave h r).mem = s.mem := by simp [wave]
@[simp] theorem acknowledge_mem (h k) : (s.acknowledge h k).mem = s.mem := by simp [acknowledge]
@[simp] theorem startKernelParts_mem (h) : (s.startKernelParts h).mem = s.mem := by simp [startKernelParts]
@[simp] theorem offerSeed_mem (h e) : s.SameMem (s.offerSeed h e) := by
  unfold offerSeed; dsimp only; split
  · simp
  · split
    · simp
    · cases h : s.offerPort _ _ _ _ with
      | none => simp
      | some t => simpa using (offerPort_mem ..).mem_eq h
@[simp] theorem injectSeeds_mem (h l full) : (s.injectSeeds h l full).1.mem = s.mem := by
  induction l generalizing s full with
  | nil => rfl
  | cons e l ih =>
    unfold injectSeeds; split
    · exact ih ..
    · split
      · rw [ih]; exact (offerSeed_mem ..).mem_eq ‹_›
      · exact ih ..
@[simp] theorem seedInject_mem (h) : (s.seedInject h).mem = s.mem := by simp [seedInject]
@[simp] theorem kernelComplete_mem (h) : (s.kernelComplete h).mem = s.mem := by simp [kernelComplete]
@[simp] theorem kernelRetire_mem (h) : (s.kernelRetire h).mem = s.mem := by simp [kernelRetire]

/-! ### LinkRun -/

@[simp] theorem linkNotice_mem (n) : (s.linkNotice n).mem = s.mem := by simp [linkNotice]
@[simp] theorem setLinkState_mem (n st) : (s.setLinkState n st).mem = s.mem := by simp [setLinkState]
@[simp] theorem linkOpened_mem : s.linkOpened.mem = s.mem := by simp [linkOpened]
@[simp] theorem openLink_mem (n) : (s.openLink n).mem = s.mem := by simp [openLink]
@[simp] theorem beginTraining_mem (n st) : (s.beginTraining n st).mem = s.mem := by simp [beginTraining]
@[simp] theorem failTraining_mem (n) : (s.failTraining n).mem = s.mem := by simp [failTraining]
@[simp] theorem endTraining_mem (n f) : (s.endTraining n f).mem = s.mem := by
  unfold endTraining; repeat' split <;> simp
@[simp] theorem trainingTimeout_mem (n) : (s.trainingTimeout n).mem = s.mem := by simp [trainingTimeout]
@[simp] theorem pauseLink_mem (n) : (s.pauseLink n).mem = s.mem := by simp [pauseLink]
@[simp] theorem drainLink_mem (n) : (s.drainLink n).mem = s.mem := by simp [drainLink]
@[simp] theorem resumeLink_mem (n) : (s.resumeLink n).mem = s.mem := by simp [resumeLink]
@[simp] theorem retrainLink_mem (n) : (s.retrainLink n).mem = s.mem := by simp [retrainLink]
@[simp] theorem disableLink_mem (n) : (s.disableLink n).mem = s.mem := by simp [disableLink]
@[simp] theorem enableLink_mem (n) : (s.enableLink n).mem = s.mem := by simp [enableLink]
@[simp] theorem replayFlit_mem (n k) : (s.replayFlit n k).mem = s.mem := by simp [replayFlit]
@[simp] theorem receiveFlit_mem (n q ok) : (s.receiveFlit n q ok).mem = s.mem := by simp [receiveFlit]
@[simp] theorem idleFlit_mem (n) : (s.idleFlit n).mem = s.mem := by simp [idleFlit]
@[simp] theorem rxTimeout_mem (n) : (s.rxTimeout n).mem = s.mem := by simp [rxTimeout]
@[simp] theorem retryWindow_mem (n k w) : (s.retryWindow n k w).mem = s.mem := by simp [retryWindow]
@[simp] theorem markLane_mem (n v) : (s.markLane n v).mem = s.mem := by simp [markLane]
@[simp] theorem linkCommand_mem (n c) : (s.linkCommand n c).mem = s.mem := by unfold linkCommand; split <;> simp
@[simp] theorem writeLinkCtl_mem (n v) : (s.writeLinkCtl n v).mem = s.mem := by simp [writeLinkCtl]
@[simp] theorem writeLinkStat_mem (n v) : (s.writeLinkStat n v).mem = s.mem := by simp [writeLinkStat]
@[simp] theorem fromSnapshot_mem (h y) : (s.fromSnapshot h y).mem = s.mem := by simp [fromSnapshot]

/-! ### ContextRun -/

@[simp] theorem answerMailbox_mem (status result) : (s.answerMailbox status result).mem = s.mem := by
  simp [answerMailbox]
@[simp] theorem buildComplete_mem (x) : (s.buildComplete x).mem = s.mem := by simp [buildComplete]
@[simp] theorem quiesceComplete_mem (x) : (s.quiesceComplete x).mem = s.mem := by simp [quiesceComplete]
@[simp] theorem endGroup_mem (h) : (s.endGroup h).mem = s.mem := by simp [endGroup]
@[simp] theorem endBeacon_mem (x k) : (s.endBeacon x k).mem = s.mem := by simp [endBeacon]
@[simp] theorem endQueues_mem (x retired) : (s.endQueues x retired).mem = s.mem := by simp [endQueues]
@[simp] theorem endChannels_mem (x) : (s.endChannels x).mem = s.mem := by simp [endChannels]
@[simp] theorem failIface_mem (n) : (s.failIface n).mem = s.mem := by simp [failIface]
@[simp] theorem endContext_mem (x retired) : (s.endContext x retired).mem = s.mem := by simp [endContext]
@[simp] theorem containContext_mem (x cause) : (s.containContext x cause).mem = s.mem := by
  simp only [containContext]; (repeat' split) <;> simp
@[simp] theorem retireContext_mem (x) : (s.retireContext x).mem = s.mem := by simp [retireContext]
@[simp] theorem releaseContext_mem (x) : (s.releaseContext x).mem = s.mem := by simp [releaseContext]
@[simp] theorem migrationMessage_mem (status) : (s.migrationMessage status).mem = s.mem := by simp [migrationMessage]
@[simp] theorem moveRecords_mem (x q) : (s.moveRecords x q).mem = s.mem := by unfold moveRecords; split <;> rfl
@[simp] theorem moveGroup_mem (x h) : (s.moveGroup x h).mem = s.mem := by simp [moveGroup]
@[simp] theorem moveChannels_mem (x y) : (s.moveChannels x y).mem = s.mem := by simp [moveChannels]

/-! ### Partition -/

@[simp] theorem writePtCfg_mem (p v) : (s.writePtCfg p v).mem = s.mem := by simp [writePtCfg]
@[simp] theorem writePtWays_mem (p v) : (s.writePtWays p v).mem = s.mem := by simp [writePtWays]
@[simp] theorem releaseLimiters_mem (p) : (s.releaseLimiters p).mem = s.mem := by simp [releaseLimiters]
@[simp] theorem writePtRate_mem (p v) : (s.writePtRate p v).mem = s.mem := by simp [writePtRate]
@[simp] theorem writeTileBit_mem (p t on) : (s.writeTileBit p t on).mem = s.mem := by simp [writeTileBit]
@[simp] theorem writeTileSet_mem (p i v) : (s.writeTileSet p i v).mem = s.mem := by simp [writeTileSet]
@[simp] theorem writeVfBind_mem (v w) : (s.writeVfBind v w).mem = s.mem := by simp [writeVfBind]
@[simp] theorem sendPending_mem (n) : (s.sendPending n).mem = s.mem := by simp [sendPending]
@[simp] theorem containBound_mem (n) : (s.containBound n).mem = s.mem := by unfold containBound; split <;> simp
@[simp] theorem lockIface_mem (n) : (s.lockIface n).mem = s.mem := by simp [lockIface]
@[simp] theorem startIface_mem (n) : (s.startIface n).mem = s.mem := by simp [startIface]
@[simp] theorem breakIface_mem (n) : (s.breakIface n).mem = s.mem := by simp [breakIface]
@[simp] theorem stopIface_mem (n) : (s.stopIface n).mem = s.mem := by unfold stopIface; split <;> simp
@[simp] theorem resetFunction_mem (n) : (s.resetFunction n).mem = s.mem := by simp [resetFunction]
@[simp] theorem reply_mem (ur poi v) : (s.reply ur poi v).mem = s.mem := by simp [reply]
@[simp] theorem apertureWindow_mem (x va z w) : (s.apertureWindow x va z w).mem = s.mem := by simp [apertureWindow]

/-! ### Lodestone -/


@[simp] theorem startRequest_mem : s.startRequest.mem = s.mem := by unfold startRequest; repeat' split <;> simp
@[simp] theorem writeLmBuf_mem (v) : (s.writeLmBuf v).mem = s.mem := by simp [writeLmBuf]
theorem serve_mem (op) {f : List Byte → Answer} (hf : ∀ d, s.SameMem (f d).state) : (s.serve op f).mem = s.mem := by
  unfold serve; split
  · rfl
  · split
    · simp
    · dsimp only; split
      · simpa using (hf _).mem_eq ‹_›
      · simp
@[simp] theorem completeMailbox_mem : s.completeMailbox.mem = s.mem := by simp [completeMailbox]
@[simp] theorem writeTags_mem (x l) : (s.writeTags x l).mem = s.mem := foldl_mem (fun _ _ => by simp) _ _
@[simp] theorem retireRequest_mem (d) : s.SameMem (s.retireRequest d).state := by
  simp only [retireRequest]; (repeat' split) <;> simp
@[simp] theorem tilesRequest_mem (d) : s.SameMem (s.tilesRequest d).state := by
  simp only [tilesRequest]; (repeat' split) <;> simp
@[simp] theorem migoutRequest_mem (d) : s.SameMem (s.migoutRequest d).state := by
  simp only [migoutRequest]; (repeat' split) <;> simp
@[simp] theorem miginRequest_mem (d) : s.SameMem (s.miginRequest d).state := by
  simp only [miginRequest]; (repeat' split) <;> simp
@[simp] theorem migabortRequest_mem (d) : s.SameMem (s.migabortRequest d).state := by
  simp only [migabortRequest]; (repeat' split) <;> simp
@[simp] theorem changeRun_mem (k r v) : (s.changeRun k r v).mem = s.mem := by simp [changeRun]
@[simp] theorem grantRequest_mem (d) : s.SameMem (s.grantRequest d).state := by
  simp only [grantRequest]; (repeat' split) <;> simp
@[simp] theorem reclaimRequest_mem (d) : s.SameMem (s.reclaimRequest d).state := by
  simp only [reclaimRequest]; (repeat' split) <;> simp
@[simp] theorem keyslotRequest_mem (d) : s.SameMem (s.keyslotRequest d).state := by
  simp only [keyslotRequest]; (repeat' split) <;> simp
@[simp] theorem spdmMeasure_mem (n) : (s.spdmMeasure n).mem = s.mem := by unfold spdmMeasure; split <;> simp
@[simp] theorem setCounter_mem (svn minsvn) : (s.setCounter svn minsvn).mem = s.mem := by simp [setCounter]
@[simp] theorem activate_mem (f svn minsvn) : (s.activate f svn minsvn).mem = s.mem := by
  simp [activate]
@[simp] theorem awaitActivation_mem (m) : (s.awaitActivation m).mem = s.mem := by simp [awaitActivation]
@[simp] theorem retryFlash_mem (ok) : (s.retryFlash ok).mem = s.mem := by unfold retryFlash; split <;> simp

/-! ### BringUp -/

@[simp] theorem retryAll_mem : s.retryAll.mem = s.mem := by simp [retryAll]
@[simp] theorem unitReady_mem (u) : (s.unitReady u).mem = s.mem := by unfold unitReady; repeat' split <;> simp
@[simp] theorem verifyMap_mem : s.verifyMap.mem = s.mem := by unfold verifyMap; repeat' split <;> simp
@[simp] theorem writePower_mem (l v) : (s.writePower l v).mem = s.mem := by simp [writePower]
@[simp] theorem setJunction_mem (l j) : (s.setJunction l j).mem = s.mem := by simp [setJunction]

/-! ### Walk -/

@[simp] theorem takeH_mem (r act) : (s.takeH r act).mem = s.mem := by unfold takeH; repeat' split <;> simp
@[simp] theorem respondH_mem (v) : (s.respondH v).mem = s.mem := by unfold respondH; dsimp only; split <;> simp
@[simp] theorem respondTo_mem (x v act) : (s.respondTo x v act).mem = s.mem := by simp [respondTo]
@[simp] theorem releaseLimiter_mem (p k) : (s.releaseLimiter p k).mem = s.mem := by simp [releaseLimiter]

/-! ### Regs -/

@[simp] theorem writeFhCfg_mem (v) : (s.writeFhCfg v).mem = s.mem := by simp [writeFhCfg]
@[simp] theorem writeQstatus_mem (q v) : (s.writeQstatus q v).mem = s.mem := by simp [writeQstatus]
@[simp] theorem lowRegWrite_mem (o v) : (s.lowRegWrite o v).mem = s.mem := by simp [lowRegWrite]
@[simp] theorem writeLmStat_mem (v) : (s.writeLmStat v).mem = s.mem := by simp [writeLmStat]
@[simp] theorem writeMsix_mem (n i v) : (s.writeMsix n i v).mem = s.mem := by simp [writeMsix]
@[simp] theorem writeLk_mem (n o v) : (s.writeLk n o v).mem = s.mem := by simp [writeLk]
@[simp] theorem writeFqResp_mem (n x v) : (s.writeFqResp n x v).mem = s.mem := by simp [writeFqResp]
@[simp] theorem vfAccepted_mem (n o v) : (s.vfAccepted n o v).mem = s.mem := by
  unfold vfAccepted; dsimp only; (repeat' split) <;> simp
@[simp] theorem vfWrite_mem (n o t v) : (s.vfWrite n o t v).mem = s.mem := by simp [vfWrite]

/-! ### LoadStore -/

@[simp] theorem amoDone_mem (d a wide old) : (s.amoDone d a wide old).mem = s.mem := by unfold amoDone; split <;> simp

/-! ### Wait -/

@[simp] theorem completeBlocked_mem (i) : (s.completeBlocked i).mem = s.mem := by
  cases i
  case ssend | sseed => exact sendBeat_mem ..
  case sload => exact sendCap_mem ..
  case srecv => exact recvBeat_mem ..
  case sdrain => exact drained_mem ..
  case sbar => exact streamBarrier_mem ..
  case msend => exact sendMsg_mem ..
  case mrecv => exact recvMsg_mem ..
  case ecopy | egather | ecoll => exact request_mem ..
  case bwait => exact waitBarrier_mem ..
  case barvw => exact arriveWait_mem ..
  case bcst => exact broadcastRows_mem ..
  case bcfence => exact beaconFence_mem ..
  case tlbsync => exact advance_mem ..
  case gstat => exact retire_mem ..
  all_goals rfl
@[simp] theorem settle_mem (w n) : (s.settle w n).mem = s.mem := by simp [settle]

/-! ### Order -/

@[simp] theorem nextFc_mem : s.nextFc.mem = s.mem := by simp [nextFc]

end Sys2Proof.Machine.State

/-! ## The canonical form, kept -/

namespace Sys2Proof.Machine.State
variable {s t : State} {α ε : Type}

/-- A state with the memory of a canonical one is canonical. -/
theorem wf_mem (h : s.memWf = true) (e : t.mem = s.mem := by simp) : t.memWf = true :=
  (congrArg Memory.wf e).trans h

theorem wf_ite {c : Prop} [Decidable c] (hs : s.memWf = true) (ht : t.memWf = true) : (if c then s else t).memWf = true := by
  split <;> assumption

/-- Tags and dirty lines are apart from the bytes. -/
theorem wf_setTags (h : s.memWf = true) (l : List Nat) : (s.setMemory { s.mem with tags := l }).memWf = true :=
  wf_sameCells h _ rfl

theorem wf_setDirty (h : s.memWf = true) (l : Table L2Line) : (s.setMemory { s.mem with dirty := l }).memWf = true :=
  wf_sameCells h _ rfl

/-- What comes with an answer. -/
theorem wf_snd {α : Type} {r : α × State} {a : α} (hr : r.2.memWf = true) (e : r = (a, t)) : t.memWf = true := by
  subst e; exact hr

theorem wf_loaded {r : List Byte × Bool × Bool × State} {bs : List Byte} {b c : Bool} (hr : r.2.2.2.memWf = true)
    (e : r = (bs, b, c, t)) : t.memWf = true := by
  subst e; exact hr

/-- A loop whose every turn keeps the canonical form keeps it. -/
theorem wf_foldl {f : State → α → State} (hf : ∀ {s : State}, s.memWf = true → ∀ a, (f s a).memWf = true)
    (l : List α) : ∀ {s : State}, s.memWf = true → (l.foldl f s).memWf = true := by
  induction l with
  | nil => exact id
  | cons a l ih => exact fun h => ih (hf h a)

/-- An answer or a failure, each with a canonical state. -/
structure ExceptWf (e : ε → State) (a : α → State) (r : Except ε α) : Prop where
  error : ∀ {x}, r = .error x → (e x).memWf = true
  ok : ∀ {x}, r = .ok x → (a x).memWf = true

variable {e : ε → State} {a : α → State}

@[simp] theorem exceptWf_error {x : ε} : ExceptWf e a (.error x) ↔ (e x).memWf = true :=
  ⟨fun h => h.error rfl, fun h => ⟨fun hx => by cases hx; exact h, nofun⟩⟩
@[simp] theorem exceptWf_ok {x : α} : ExceptWf e a (.ok x) ↔ (a x).memWf = true :=
  ⟨fun h => h.ok rfl, fun h => ⟨nofun, fun hx => by cases hx; exact h⟩⟩

theorem ExceptWf.map {β : Type} {b : β → State} {r : Except ε α} (hr : ExceptWf e a r)
    (f : α → β) (hf : ∀ x, b (f x) = a x) : ExceptWf e b (r.map f) := by
  cases r with
  | error x => exact exceptWf_error.2 (hr.error rfl)
  | ok x => exact exceptWf_ok.2 ((congrArg (fun t : State => t.memWf = true) (hf x)).mpr (hr.ok rfl))

/-- The same where there may be no answer. -/
structure OptionWf (a : α → State) (o : Option α) : Prop where
  some : ∀ {x}, o = some x → (a x).memWf = true

@[simp] theorem optionWf_none : OptionWf a none := ⟨nofun⟩
@[simp] theorem optionWf_some {x : α} : OptionWf a (some x) ↔ (a x).memWf = true :=
  ⟨fun h => h.some rfl, fun h => ⟨fun hx => by cases hx; exact h⟩⟩

theorem OptionWf.getD {o : Option State} (ho : OptionWf (fun t => t) o) (h : s.memWf = true) : (o.getD s).memWf = true := by
  cases o with
  | none => exact h
  | some t => exact ho.some rfl
end Sys2Proof.Machine.State

/-! ## Walks, accesses and fault records -/

namespace Sys2Proof.Machine.State
variable {s : State} (h : s.memWf = true)
include h

/-! ### Page -/

theorem wf_entryAt (k p va) : (s.entryAt k p va).2.memWf = true := wf_loadLine h ..

theorem wf_readEntry (k st2 p va lo log) : (s.readEntry k st2 p va lo log).2.memWf = true := by
  fun_cases readEntry s k st2 p va lo log
  · exact wf_used h
  · exact wf_entryAt (wf_used h) ..
  · exact wf_ite (wf_mem (wf_snd (wf_entryAt h ..) ‹_›)) (wf_snd (wf_entryAt h ..) ‹_›)
  · exact wf_entryAt h ..

theorem wf_walk2 (k va gpa walk d level table) :
    ExceptWf Prod.snd Prod.snd (s.walk2 k va gpa walk d level table) := by
  fun_induction walk2 s k va gpa walk d level table
  case case1 => exact exceptWf_error.2 h
  case case6 ih => exact ih (wf_snd (wf_readEntry (wf_mem h (atsFetch_mem ..)) ..) ‹_›)
  case case8 => exact exceptWf_ok.2 (wf_markEntry (wf_snd (wf_readEntry (wf_mem h (atsFetch_mem ..)) ..) ‹_›) ..)
  all_goals exact exceptWf_error.2 (wf_snd (wf_readEntry (wf_mem h (atsFetch_mem ..)) ..) ‹_›)

theorem wf_stage2 (k va gpa walk d) : ExceptWf Prod.snd Prod.snd (s.stage2 k va gpa walk d) := by
  fun_cases stage2 s k va gpa walk d
  · exact wf_walk2 h ..
  · exact exceptWf_ok.2 h
  · exact exceptWf_error.2 h

theorem wf_tableAt (k va ga d) : ExceptWf Prod.snd Prod.snd (s.tableAt k va ga d) := by
  have hs := wf_stage2 h k va ga true d
  fun_cases tableAt s k va ga d
  · exact exceptWf_error.2 (hs.error ‹_›)
  · exact exceptWf_error.2 (hs.ok ‹_›)
  · exact exceptWf_error.2 (hs.ok ‹_›)
  · exact exceptWf_ok.2 (wf_mem (hs.ok ‹_›))

theorem wf_walk1 (k va level table) : ExceptWf Prod.snd Prod.snd (s.walk1 k va level table) := by
  fun_induction walk1 s k va level table
  case case1 => exact exceptWf_error.2 ((wf_tableAt h ..).error ‹_›)
  case case6 ih => exact ih (wf_snd (wf_readEntry ((wf_tableAt h ..).ok ‹_›) ..) ‹_›)
  case case7 => exact exceptWf_ok.2 (wf_snd (wf_readEntry ((wf_tableAt h ..).ok ‹_›) ..) ‹_›)
  all_goals exact exceptWf_error.2 (wf_snd (wf_readEntry ((wf_tableAt h ..).ok ‹_›) ..) ‹_›)

theorem wf_stage1 (k va) : ExceptWf Prod.snd Prod.snd (s.stage1 k va) := by
  fun_cases stage1 s k va
  · exact wf_walk1 h ..
  · exact exceptWf_ok.2 h
  · exact exceptWf_error.2 h

theorem wf_markLeaf1 (k va l d) : ExceptWf Prod.snd (fun t => t) (s.markLeaf1 k va l d) := by
  fun_cases markLeaf1 s k va l d
  · exact exceptWf_ok.2 h
  · exact exceptWf_ok.2 h
  · exact exceptWf_error.2 ((wf_tableAt h ..).error ‹_›)
  · exact exceptWf_ok.2 (wf_markEntry ((wf_tableAt h ..).ok (x := (_, _)) ‹_›) ..)

/-- A walk keeps the canonical form, whether it answers or fails. -/
theorem wf_walk (k va n) : ExceptWf Prod.snd Prod.snd (s.walk k va n) := by
  have h1 := wf_stage1 h k va
  fun_cases walk s k va n
  · exact exceptWf_error.2 (h1.error ‹_›)
  · exact exceptWf_error.2 (h1.ok ‹_›)
  · exact exceptWf_error.2 (h1.ok ‹_›)
  · exact exceptWf_error.2 ((wf_markLeaf1 (h1.ok ‹_›) ..).error ‹_›)
  · exact exceptWf_error.2 ((wf_stage2 ((wf_markLeaf1 (h1.ok ‹_›) ..).ok ‹_›) ..).error ‹_›)
  · exact exceptWf_error.2 ((wf_stage2 ((wf_markLeaf1 (h1.ok ‹_›) ..).ok ‹_›) ..).ok (x := (_, _)) ‹_›)
  · exact exceptWf_error.2 ((wf_stage2 ((wf_markLeaf1 (h1.ok ‹_›) ..).ok ‹_›) ..).ok (x := (_, _)) ‹_›)
  · have h3 := (wf_stage2 ((wf_markLeaf1 (h1.ok ‹_›) ..).ok ‹_›) ..).ok ‹_›
    exact exceptWf_ok.2 (wf_ite h3 (wf_mem h3))

theorem wf_chargedWalk (k va n) : ExceptWf Prod.snd Prod.snd (s.chargedWalk k va n) := by
  fun_cases chargedWalk s k va n
  · exact exceptWf_error.2 (wf_mem ((wf_walk h ..).error ‹_›) (mem_chargeWalk ..))
  · exact exceptWf_ok.2 (wf_mem ((wf_walk h ..).ok ‹_›) (mem_chargeWalk ..))

theorem wf_translate (cache cap k va n) : ExceptWf Prod.snd (fun r => r.2.2) (s.translate cache cap k va n) := by
  fun_cases translate s cache cap k va n
  · exact exceptWf_ok.2 h
  · exact exceptWf_error.2 ((wf_chargedWalk h ..).error ‹_›)
  · exact exceptWf_ok.2 ((wf_chargedWalk h ..).ok (x := (_, _)) ‹_›)

/-! ### Access -/

theorem wf_mapLoad (x k r va) : (s.mapLoad x k r va).2.memWf = true := by
  fun_cases mapLoad s x k r va
  · exact h
  · exact wf_loadLine ((wf_chargedWalk h ..).ok (x := (_, _)) ‹_›) ..
  · exact (wf_chargedWalk h ..).error (x := (_, _)) ‹_›

theorem wf_filterReads (x k r c) : (s.filterReads x k r c).memWf = true :=
  wf_ite (wf_foldl (fun h _ => wf_mapLoad h ..) _ h) h

theorem wf_fillLoad (port p n va gh) : (s.fillLoad port p n va gh).2.2.2.memWf = true := by
  have hl := wf_loadLine (wf_mem h (countRequest_mem s port p)) p n va (portSource port gh)
  exact wf_ite hl (wf_mem hl)

theorem wf_portLoad (port p n va gh) : (s.portLoad port p n va gh).2.2.2.memWf = true := by
  fun_cases portLoad s port p n va gh
  · exact wf_fillLoad h ..
  · exact wf_used h
  · exact wf_fillLoad (wf_used h) ..

theorem wf_portStore (port p bs tag poi va gh) : (s.portStore port p bs tag poi va gh).memWf = true :=
  wf_mem (wf_store (wf_mem h (countRequest_mem ..)) ..) (updateL1_mem ..)

theorem wf_helmTranslate (a n) : ExceptWf (fun t => t) Prod.snd (s.helmTranslate a n) := by
  fun_cases helmTranslate s a n
  · exact exceptWf_error.2 (wf_mem h)
  · exact exceptWf_error.2 (wf_mem ((wf_translate h ..).error ‹_›) (pageFault_mem ..))
  · exact exceptWf_ok.2 (wf_mem ((wf_translate h ..).ok ‹_›) (setUnit_mem ..))

theorem wf_revokedLoad (port a c) : (s.revokedLoad port a c).memWf = true :=
  wf_mem (wf_filterReads h ..) ((trapCap_mem ..).trans (raise_mem ..))

theorem wf_helmWindow (c a n) : ExceptWf (fun t => t) Prod.snd (s.helmWindow c a n) := by
  fun_cases helmWindow s c a n
  · exact exceptWf_error.2 (wf_mem h)
  · exact exceptWf_error.2 (wf_revokedLoad h ..)
  · exact exceptWf_ok.2 (wf_filterReads h ..)

theorem wf_helmLoadAt (c a n ph) : ExceptWf (fun t => t) Prod.snd (s.helmLoadAt c a n ph) := by
  fun_cases helmLoadAt s c a n ph
  · exact exceptWf_error.2 (wf_revokedLoad h ..)
  · exact exceptWf_error.2 (wf_mem h)
  · exact exceptWf_ok.2 (wf_loaded (wf_portLoad (wf_filterReads h ..) ..) ‹_›)

/-- A load of a helm thread keeps the canonical form, whether it answers, traps or waits. -/
theorem wf_helmLoad (c a n need) : ExceptWf (fun t => t) Prod.snd (s.helmLoad c a n need) := by
  fun_cases helmLoad s c a n need
  · exact exceptWf_error.2 (wf_mem h)
  · exact exceptWf_ok.2 (wf_loaded (wf_loadLine h ..) ‹_›)
  · exact exceptWf_ok.2 h
  · exact exceptWf_error.2 (wf_mem h)
  · exact exceptWf_ok.2 h
  · exact wf_helmWindow h ..
  · exact exceptWf_error.2 ((wf_helmTranslate h ..).error ‹_›)
  · exact wf_helmLoadAt ((wf_helmTranslate h ..).ok ‹_›) ..

theorem wf_helmStoreAt (c a bs tag ph) : (s.helmStoreAt c a bs tag ph).memWf = true := by
  have hf := wf_filterReads h s.ctx (stackOf s.cur) (portSource (s.slicePort s.curGroup (s.helmPort s.cur) ph) s.curGroup) c
  exact wf_ite (wf_mem hf) (wf_portStore hf ..)

/-- A store of a helm thread does too. -/
theorem wf_helmStore (c a bs tag) : ExceptWf (fun t => t) (fun t => t) (s.helmStore c a bs tag) := by
  fun_cases helmStore s c a bs tag
  · exact exceptWf_error.2 (wf_mem h)
  · exact exceptWf_ok.2 (wf_store h ..)
  · exact exceptWf_ok.2 h
  · exact exceptWf_error.2 (wf_mem h)
  · exact exceptWf_ok.2 h
  · exact exceptWf_error.2 ((wf_helmTranslate h ..).error ‹_›)
  · exact exceptWf_error.2 (wf_mem ((wf_helmTranslate h ..).ok ‹_›) (holdHelm_mem ..))
  · exact exceptWf_ok.2 (wf_helmStoreAt ((wf_helmTranslate h ..).ok (x := (_, _)) ‹_›) ..)

/-! ### Fault -/

theorem wf_writeH (r) : (s.writeH r).memWf = true := by
  unfold writeH; dsimp only; split
  · simp only [memWf, sendHeld_mem, dropRaised_mem, sendMsix_mem]
    exact wf_storeLine h ..
  · split
    · exact h
    · exact wf_mem h

theorem wf_recordPlace (x va k) : (s.recordPlace x va k).2.memWf = true := by
  fun_cases recordPlace s x va k
  · exact (wf_chargedWalk h ..).error (x := (_, _)) ‹_›
  · exact (wf_chargedWalk h ..).ok (x := (_, _)) ‹_›

theorem wf_redirect (r) : (s.redirect r).memWf = true := by
  unfold redirect; exact wf_writeH (wf_mem h) _

theorem wf_writeSlot (x r i p) : (s.writeSlot x r i p).memWf = true := by
  unfold writeSlot; dsimp only
  split <;> simp only [memWf, sendMsix_mem, sendHeld_mem, setContext_mem, dropRaised_mem] <;> exact wf_storeLine h ..

theorem wf_writeContext (x r) : (s.writeContext x r).memWf = true := by
  fun_cases writeContext s x r
  · exact wf_redirect h r
  · exact h
  · exact wf_mem h
  · exact wf_redirect (wf_snd (wf_recordPlace h ..) ‹_›) r
  · exact wf_mem (wf_snd (wf_recordPlace h ..) ‹_›) (postOnce_mem ..)
  · exact wf_writeSlot (wf_snd (wf_recordPlace h ..) ‹_›) ..

theorem wf_writeRecord (r) : (s.writeRecord r).memWf = true := by
  fun_cases writeRecord s r
  · exact wf_writeH h r
  · exact wf_writeContext h ..
  · exact wf_writeH h r

theorem wf_writeInOrder (r) : (s.writeInOrder r).memWf = true :=
  wf_foldl (fun h _ => wf_ite (wf_writeRecord h _) h) _ h

end Sys2Proof.Machine.State

/-! ## Banks, the Beacon and the engines -/

namespace Sys2Proof.Machine.State
variable {s : State} (h : s.memWf = true)
include h

/-! ### Bank -/

theorem wf_spillRow (p i row x) : (s.spillRow p i row x).memWf = true := by
  have hw := wf_chargedWalk h { ctx := x, stack := stackOfTile p } (s.rowAddress x p i row) Need.store
  unfold spillRow
  refine wf_mem ?_ (setBank_mem ..)
  split
  · split
    · have h3 := fun q bs b c => wf_mem (wf_storeLine (hw.ok ‹_›) q bs b c) (noteSpilled_mem _ p i row x)
      exact wf_ite (h3 ..) (wf_setTags (h3 ..) _)
    · exact hw.error ‹_›
  · exact h

theorem wf_fetchRow (x p i row q) : (s.fetchRow x p i row q).memWf = true := by
  have hw := wf_chargedWalk h { ctx := x, stack := stackOfTile p } (s.rowAddress x q i row) Need.load
  unfold fetchRow; dsimp only; split
  · exact wf_mem (hw.error ‹_›)
  · exact wf_mem (wf_loadLine (hw.ok ‹_›) ..) (setRow_mem ..)

theorem wf_ownRow (p i row) : (s.ownRow p i row).memWf = true := by
  fun_cases ownRow s p i row
  · exact h
  · exact wf_spillRow h ..
  · exact h

theorem wf_touchRow (p i row) : (s.touchRow p i row).memWf = true := by
  fun_cases touchRow s p i row
  · exact wf_fetchRow (wf_mem (wf_ownRow h ..) (setTile_mem ..)) ..
  · exact wf_ownRow h ..

theorem wf_touchRows (p i rows) : (s.touchRows p i rows).memWf = true :=
  wf_ite h (wf_foldl (fun h _ => wf_touchRow h ..) _ h)

theorem wf_touchBytes (p i a n) : (s.touchBytes p i a n).memWf = true := wf_touchRows h ..

/-- The bytes that a command reaches, row by row. -/
theorem wf_touchEach (p i : Nat) (l : List (Nat × Nat)) :
    (l.foldl (fun (t : State) m => t.touchBytes p i m.1 m.2) s).memWf = true :=
  wf_foldl (fun h _ => wf_touchBytes h ..) l h

theorem wf_bankFire (op a) : (s.bankFire op a).memWf = true := by
  unfold bankFire; split
  · exact h
  · extract_lets p n s1 x units s2 ends
    split
    · refine wf_mem (wf_foldl (fun h k => ?_) _ (wf_ite ?_ ?_)) (moved_mem ..)
      · extract_lets us b r b1 b2
        have hb : b.memWf = true := wf_ite (wf_touchEach h ..) h
        exact wf_mem hb (by unfold b2 b1; split <;> simp)
      · exact wf_mem h (by simp [s2, s1])
      · exact wf_mem h (by simp [s2, s1])
    · exact wf_mem h (bearing_mem ..)

theorem wf_mdbufWrite (len base a u) : (s.mdbufWrite len base a u).memWf = true := by
  fun_cases mdbufWrite s len base a u
  · exact wf_mem h
  · exact wf_mem h
  · exact wf_mem (wf_touchEach h ..) ((countErrors_mem ..).trans ((taken_mem ..).trans (taken_mem ..)))

theorem wf_mdbufRead (len base c) : (s.mdbufRead len base c).memWf = true := by
  unfold mdbufRead; dsimp only; split
  · exact wf_mem h
  · exact wf_mem (wf_touchEach h ..) ((toX_mem ..).trans ((countErrors_mem ..).trans (taken_mem ..)))

theorem wf_transfer (p n f) : (s.transfer p n f).memWf = true := by
  unfold transfer; dsimp only
  split <;> exact wf_mem (wf_touchBytes (wf_touchBytes h ..) ..) (setBank_mem ..)

theorem wf_mdbufStep : OptionWf (fun t => t) s.mdbufStep := by
  unfold mdbufStep; extract_lets x r len wbase rbase at_ first syncs s1 out s2 wrote
  have hw : OptionWf (fun t => t) wrote := by
    unfold wrote; split
    · split
      · exact optionWf_none
      · exact optionWf_some.2 (wf_mdbufWrite h ..)
    · split
      · exact optionWf_some.2 (wf_mdbufWrite h ..)
      · exact optionWf_none
    · exact optionWf_none
  split
  · exact optionWf_some.2 (wf_mem h (by unfold s2; split <;> simp [s1]))
  · split
    · exact hw
    · split
      · exact hw
      · exact optionWf_some.2 (wf_mdbufRead (hw.getD h) ..)

theorem wf_turn (op a) {f : State → Option State} (hf : ∀ {t : State}, t.memWf = true → OptionWf (fun t => t) (f t)) :
    (s.turn op a f).memWf = true := by
  have hb := wf_mem h (bearing_mem s op a)
  unfold turn; split
  · exact h
  · extract_lets s1
    split
    · split
      · have h2 := (hf hb).some ‹_›
        exact wf_ite (wf_mem h2) hb
      · exact hb
    · exact hb

/-! ### BeaconRun -/

theorem wf_dropBroadcast (p u r t) : (s.dropBroadcast p u r t).memWf = true := by
  unfold dropBroadcast; extract_lets gh va s1 u1 s2
  have h2 : s2.memWf = true := wf_mem (wf_filterReads h ..) ((setUnit_mem ..).trans (raise_mem ..))
  exact wf_ite h2 (wf_mem h2)

theorem wf_rowRead (p u) : (s.rowRead p u).memWf = true := by
  fun_cases rowRead s p u
  · exact h
  · exact h
  · exact wf_mem h
  · exact wf_dropBroadcast h ..
  · refine wf_mem ?_ (postOnce_mem ..)
    refine wf_ite ?_ (wf_mem ?_ (postOnce_mem ..)) <;>
      exact wf_mem (wf_touchBytes h ..) ((setUnit_mem ..).trans (setLayer_mem ..))

/-! ### EngineRun -/

theorem wf_engPlace (e va n) : ExceptWf Prod.snd Prod.snd (s.engPlace e va n) := by
  have hw := wf_chargedWalk h (s.engAsker e) va n
  fun_cases engPlace s e va n
  · exact exceptWf_ok.2 h
  · exact exceptWf_error.2 h
  · exact exceptWf_error.2 h
  · exact exceptWf_error.2 (hw.error (x := (_, _)) ‹_›)
  · exact exceptWf_ok.2 (wf_mem (hw.ok ‹_›) (charge_mem ..))
  · exact exceptWf_error.2 (hw.ok (x := (_, _)) ‹_›)

theorem wf_engLine (e p va n) : (s.engLine e p va n).2.memWf = true :=
  wf_loadLine (wf_ite h (wf_lineReady h ..)) ..

theorem wf_engRead (e va n) : ExceptWf Prod.snd (fun r => r.2.2) (s.engRead e va n) := by
  have hp := wf_engPlace h e va Need.load
  fun_cases engRead s e va n
  · refine exceptWf_ok.2 ?_
    split
    · exact wf_mem h
    · exact h
  · exact exceptWf_error.2 (hp.error ‹_›)
  · exact exceptWf_ok.2 (wf_engLine (hp.ok (x := (_, _)) ‹_›) ..)
  · exact exceptWf_ok.2 (wf_mem (wf_filterReads (hp.ok ‹_›) ..) (engRevoked_mem ..))
  · exact exceptWf_ok.2 (wf_engLine (wf_filterReads (hp.ok (x := (_, _)) ‹_›) ..) ..)

theorem wf_setGranules (e p va gs) : (s.setGranules e p va gs).memWf = true := wf_setTags h _

theorem wf_engRuns (e va rs) : ExceptWf Prod.snd (fun r => r.2.2.2) (s.engRuns e va rs) := by
  have hp := wf_engPlace h e va Need.store
  have hf : ∀ {p t}, s.engPlace e va Need.store = .ok (p, t) → (if isCore e.thread then t
      else t.filterReads e.ctx (stackOf e.thread) (engSource e) e.dst).memWf = true :=
    fun hs => wf_ite (hp.ok hs) (wf_filterReads (hp.ok hs) ..)
  fun_cases engRuns s e va rs
  · exact exceptWf_error.2 (hp.error ‹_›)
  · exact exceptWf_ok.2 (wf_mem (hf ‹_›) (engRevoked_mem ..))
  · exact exceptWf_ok.2 (wf_mem (wf_foldl (fun h _ => wf_store h ..) _ (hf ‹_›)) (dropGroupL1_mem ..))

theorem wf_engWrite (e va bs gs poi) : ExceptWf Prod.snd (fun r => r.2.2) (s.engWrite e va bs gs poi) := by
  have hr := wf_engRuns h e va [(0, bs, poi)]
  fun_cases engWrite s e va bs gs poi
  · exact exceptWf_error.2 (hr.error ‹_›)
  · exact exceptWf_ok.2 (wf_ite (wf_setGranules (hr.ok (x := (_, _, _, _)) ‹_›) ..) (hr.ok (x := (_, _, _, _)) ‹_›))

theorem wf_readPieces (e l) : ExceptWf (fun t => t) Prod.snd (s.readPieces e l) := by
  fun_induction readPieces s e l
  case case1 => exact exceptWf_ok.2 h
  case case2 ih => exact ih h
  case case3 => exact exceptWf_error.2 (wf_mem ((wf_engRead h ..).error ‹_›) (engStop_mem ..))
  case case4 ih => exact ih ((wf_engRead h ..).ok ‹_›)

theorem wf_readUnit (e va n) : ExceptWf (fun t => t) Prod.snd (s.readUnit e va n) := wf_readPieces h ..

theorem wf_bankUnit (e o r) : (s.bankUnit e o r).memWf = true :=
  wf_mem (wf_touchBytes h ..) (setBank_mem ..)

theorem wf_copyUnit (e u) : ExceptWf (fun t => t) Prod.snd (s.copyUnit e u) := by
  have hr := wf_readUnit h e (e.src.va + u.1) u.2
  fun_cases copyUnit s e u
  · exact exceptWf_error.2 (hr.error ‹_›)
  · exact exceptWf_ok.2 (wf_bankUnit (hr.ok (x := (_, _)) ‹_›) ..)
  · exact exceptWf_error.2 (wf_mem ((wf_engWrite (hr.ok (x := (_, _)) ‹_›) ..).error (x := (_, _)) ‹_›) (engStop_mem ..))
  · next hx => exact exceptWf_ok.2 ((wf_engWrite (hr.ok (x := (_, _)) ‹_›) ..).ok hx)

theorem wf_copyRun (e l) : (s.copyRun e l).memWf = true := by
  fun_induction copyRun s e l
  case case1 => exact wf_mem h
  case case2 => exact (wf_copyUnit h ..).error ‹_›
  case case3 ih => exact ih (wf_mem ((wf_copyUnit h ..).ok ‹_›) (setEngine_mem ..))

theorem wf_gatherRead (e i) : ExceptWf (fun t => t) (fun r => r.2.2) (s.gatherRead e i) := by
  fun_cases gatherRead s e i
  · exact exceptWf_ok.2 h
  · exact exceptWf_ok.2 h
  · exact (wf_readUnit h ..).map _ fun _ => rfl

theorem wf_gatherFlush (e l) : ExceptWf (fun t => t) Prod.snd (s.gatherFlush e l) := by
  fun_induction gatherFlush s e l
  case case1 => exact exceptWf_ok.2 h
  case case2 => exact exceptWf_error.2 (wf_mem ((wf_engRuns h ..).error ‹_›) (engStop_mem ..))
  case case3 ih => exact ih ((wf_engRuns h ..).ok ‹_›)

theorem wf_gatherUnit (e i) : ExceptWf (fun t => t) Prod.snd (s.gatherUnit e i) := by
  have hr := fun p j a n => wf_gatherRead (wf_touchBytes h p j a n) e i
  fun_cases gatherUnit s e i
  · exact exceptWf_error.2 ((hr ..).error ‹_›)
  · next hx => exact exceptWf_ok.2 ((hr ..).ok hx)
  · next hx _ _ _ => exact exceptWf_ok.2 ((hr ..).ok hx)

theorem wf_gatherRun (e l) : (s.gatherRun e l).memWf = true := by
  fun_induction gatherRun s e l
  case case1 => exact (wf_gatherFlush h ..).error ‹_›
  case case2 => exact wf_mem ((wf_gatherFlush h ..).ok ‹_›) (engDone_mem ..)
  case case3 => exact (wf_gatherUnit ((wf_gatherFlush h ..).ok (x := (_, _)) ‹_›) ..).error ‹_›
  case case4 ih =>
    have hu := wf_gatherUnit ((wf_gatherFlush h ..).ok (x := (_, _)) ‹_›)
    exact ih (wf_mem ((hu ..).ok ‹_›) (setEngine_mem ..))

theorem wf_transferRun (k) : (s.transferRun k).memWf = true := by
  fun_cases transferRun s k
  · exact h
  · exact h
  · exact wf_copyRun h ..
  · exact wf_gatherRun h ..
  · exact h

theorem wf_collReads (l) : ExceptWf (fun t => t) (fun t => t) (s.collReads l) := by
  fun_induction collReads s l
  case case1 => exact exceptWf_ok.2 h
  case case2 => exact exceptWf_error.2 ((wf_readPieces h ..).error ‹_›)
  case case3 ih => exact ih (wf_mem ((wf_readPieces h ..).ok ‹_›) (setEngine_mem ..))

theorem wf_collWrite (bs poi e l) : ExceptWf (fun t => t) Prod.snd (s.collWrite bs poi e l) := by
  fun_induction collWrite s bs poi e l
  case case1 => exact exceptWf_ok.2 h
  case case2 ih => exact ih h
  case case3 ih => exact ih ((wf_engWrite h ..).ok ‹_›)
  case case4 => exact exceptWf_error.2 (wf_mem ((wf_engWrite h ..).error ‹_›) (engStop_mem ..))

theorem wf_collWrites (bs poi l) : ExceptWf (fun t => t) (fun t => t) (s.collWrites bs poi l) := by
  fun_induction collWrites s bs poi l
  case case1 => exact exceptWf_ok.2 h
  case case2 => exact exceptWf_error.2 ((wf_collWrite h ..).error ‹_›)
  case case3 ih => exact ih (wf_mem ((wf_collWrite h ..).ok ‹_›) (setEngine_mem ..))

theorem wf_combine (i) : (s.combine i).memWf = true := by
  have hc := fun l => wf_collReads (wf_mem h (foldl_mem (f := fun (t : State) (o : EngReq) => t.setEngine { o with edge := none })
    (fun _ _ => setEngine_mem ..) l s))
  fun_cases combine s i
  · exact wf_mem h
  · exact h
  · exact wf_mem h
  · exact (hc ..).error ‹_›
  · exact (wf_collWrites ((hc ..).ok ‹_›) ..).error ‹_›
  · exact wf_mem (wf_collWrites ((hc ..).ok ‹_›) ..|>.ok ‹_›)

end Sys2Proof.Machine.State

/-! ## Generators, the Sieve, places and groups -/

namespace Sys2Proof.Machine.State
variable {s : State} (h : s.memWf = true)
include h

/-! ### Gen -/

theorem wf_performAt (p n gh x port q ph) : (s.performAt p n gh x port q ph).memWf = true := by
  have hf := wf_filterReads h x (stackOfTile port) (portSource port gh) q.cap
  have hl := fun c => wf_loadLine (wf_mem hf ((dropL1_mem _ port ph).trans (countRequest_mem _ port ph))) ph q.size q.va c
  unfold performAt; dsimp only; split
  · exact wf_mem hf ((finishReq_mem ..).trans (raise_mem ..))
  · split
    · exact wf_mem (wf_portStore hf ..) (finishReq_mem ..)
    · split
      · exact wf_mem (wf_storeLine (hl _) ..) ((finishReq_mem ..).trans (raisePorts_mem ..))
      · refine wf_mem ?_ ((finishReq_mem ..).trans (raisePorts_mem ..))
        exact wf_ite (wf_ite (wf_storeLine (hl _) ..) (hl _)) (wf_storeLine (hl _) ..)
    · exact wf_mem (wf_portLoad hf ..) (finishReq_mem ..)

theorem wf_xlatReq (p n q) : ExceptWf Prod.snd Prod.snd (s.xlatReq p n q) := by
  have ht := wf_translate h (s.slot p q.xslot).run.cache 64 (s.reqAsker p q) (bits q.va 0 57) (Req.need q)
  fun_cases xlatReq s p n q
  · exact exceptWf_ok.2 h
  · exact exceptWf_error.2 (ht.error ‹_›)
  · have h1 := ht.ok (x := (_, _, _)) ‹_›
    refine exceptWf_ok.2 ?_
    split
    · exact wf_mem h1 ((setSlot_mem ..).trans (setSlot_mem ..))
    · exact wf_mem h1 (setSlot_mem ..)

theorem wf_windowReq (p n gh x q) : (s.windowReq p n gh x q).memWf = true := by
  unfold windowReq; dsimp only; split
  · exact wf_mem (wf_filterReads h ..) ((finishReq_mem ..).trans (raise_mem ..))
  · exact wf_mem (wf_filterReads h ..) (finishReq_mem ..)

theorem wf_perform (p n q) : (s.perform p n q).memWf = true := by
  have hx := wf_xlatReq h p n q
  fun_cases perform s p n q
  · exact wf_mem h
  · exact wf_windowReq h ..
  · exact h
  · exact wf_mem h
  · exact wf_mem h
  · exact wf_mem (hx.error (x := (_, _)) ‹_›)
  · exact wf_performAt (hx.ok (x := (_, _)) ‹_›) ..
  · exact wf_mem (hx.ok (x := (_, _)) ‹_›)

theorem wf_answerLookup (p n b) : (s.answerLookup p n b).memWf = true := by
  fun_cases answerLookup s p n b
  · exact wf_mem h
  · exact wf_mem ((wf_translate h ..).error (x := (_, _)) ‹_›)
  · exact wf_mem ((wf_translate h ..).ok (x := (_, _, _)) ‹_›) ((emitNow_mem ..).trans (setSlot_mem ..))

/-! ### System -/

theorem wf_ldiscLine (p m) : (s.ldiscLine p m).memWf = true := by
  unfold ldiscLine; dsimp only; split
  · exact h
  · split
    · exact wf_used (wf_evictLine h ..)
    · refine wf_used ?_
      split
      · exact wf_mem (wf_dropLine h (p.key / 64)) rfl
      · exact wf_setDirty h _
      · exact wf_setDirty h _

theorem wf_ldiscLines (m a n) : ExceptWf (fun t => t) (fun t => t) (s.ldiscLines m a n) := by
  fun_induction ldiscLines s m a n
  case case1 => exact exceptWf_ok.2 h
  case case2 => exact exceptWf_error.2 (wf_mem h)
  case case3 ih => exact ih (wf_ldiscLine h ..)
  case case4 ih => exact ih h
  case case5 => exact exceptWf_error.2 (wf_mem h)
  case case6 ih => exact ih h
  case case7 => exact exceptWf_error.2 ((wf_helmTranslate h ..).error ‹_›)
  case case8 ih => exact ih (wf_ldiscLine ((wf_helmTranslate h ..).ok (x := (_, _)) ‹_›) ..)

theorem wf_ldisc (m c len) : (s.ldisc m c len).memWf = true := by
  fun_cases ldisc s m c len
  · exact wf_mem h
  · exact wf_mem h
  · exact wf_mem (wf_filterReads h ..) ((advance_mem ..).trans (raise_mem ..))
  · exact (wf_ldiscLines h ..).error ‹_›
  · exact wf_mem ((wf_ldiscLines h ..).ok ‹_›) ((advance_mem ..).trans (raiseGen_mem ..))

/-! ### Sieve -/

theorem wf_sieveRead (x k va) : ExceptWf (fun r => r.2.2) (fun t => t) (s.sieveRead x k va) := by
  fun_cases sieveRead s x k va
  · exact exceptWf_ok.2 h
  · exact exceptWf_error.2 ((wf_chargedWalk h ..).error (x := (_, _)) ‹_›)
  · exact exceptWf_ok.2 (wf_mem (wf_loadLine ((wf_chargedWalk h ..).ok (x := (_, _)) ‹_›) ..) (charge_mem ..))

theorem wf_sieveMaps (x k l) : ExceptWf (fun r => r.2.2) (fun t => t) (s.sieveMaps x k l) := by
  fun_induction sieveMaps s x k l
  case case1 => exact exceptWf_ok.2 h
  case case2 => exact exceptWf_error.2 ((wf_sieveRead h ..).error ‹_›)
  case case3 ih => exact ih ((wf_sieveRead h ..).ok ‹_›)

theorem wf_sweepLine (x line) : (s.sweepLine x line).memWf = true := h

omit h in
theorem wf_sieveStop {f : Nat × WalkFail × State} (hf : f.2.2.memWf = true) (x k) : (sieveStop x k f).memWf = true :=
  wf_mem hf (raise_mem ..)

theorem wf_sieveStack (x k) : (s.sieveStack x k).memWf = true := by
  have hm := fun l => wf_sieveMaps h x k l
  fun_cases sieveStack s x k
  · exact h
  · exact wf_mem h
  · exact wf_sieveStop ((hm ..).error ‹_›) ..
  · exact wf_mem (wf_sweepLine ((hm ..).ok ‹_›) ..) ((post_mem ..).trans (sievePass_mem ..))
  · exact wf_sieveStop ((hm ..).error ‹_›) ..
  · refine wf_mem ((hm ..).ok ‹_›) ((requestScrub_mem ..).trans ?_)
    exact (setSieve_mem ..).trans ((sweepWindow_mem ..).trans (sievePass_mem ..))
  · refine wf_mem ((hm ..).ok ‹_›) ?_
    exact (setSieve_mem ..).trans ((sweepWindow_mem ..).trans (sievePass_mem ..))

/-! ### Placement -/

theorem wf_clearRows (g p) : (s.clearRows g p).memWf = true := by
  unfold clearRows; dsimp only; split
  · exact h
  · exact wf_mem (wf_ite (wf_foldl (fun h _ => wf_spillRow h ..) _ h) h) (setTile_mem ..)

theorem wf_putRow (p i row b) : (s.putRow p i row b).memWf = true :=
  wf_mem (wf_ownRow h ..) (setBank_mem ..)

theorem wf_putRows (p l) : (s.putRows p l).memWf = true :=
  wf_foldl (fun h _ => wf_foldl (fun h _ => wf_putRow h ..) _ h) _ h

theorem wf_putTile (g p v) : (s.putTile g p v).memWf = true := by
  unfold putTile; extract_lets t x v1 s1 s2 v2 s3 s4 s5
  have h2 : s2.memWf = true := wf_putRows (wf_mem h (setTile_mem ..)) p v.tile.banks
  have h4 : s4.memWf = true := wf_foldl (fun h _ => wf_mem h (setThread_mem ..)) _ (wf_mem h2 (setTile_mem ..))
  have h5 : s5.memWf = true := wf_foldl (fun h _ => wf_mem h (setChan_mem ..)) _ h4
  exact wf_foldl (fun h _ => wf_mem h (setHome_mem ..)) _ h5

theorem wf_moveTiles (g l) : (s.moveTiles g l).memWf = true := by
  unfold moveTiles; extract_lets x saved f s1 s2 s3 s4
  have h3 : s3.memWf = true := wf_foldl (fun h _ => wf_clearRows h ..) _ (wf_mem h (by simp [s2, s1]))
  have h4 : s4.memWf = true :=
    wf_foldl (fun h _ => wf_mem (wf_putTile h ..) ((lostPhases_mem ..).trans (ownBcst_mem ..))) _ h3
  exact wf_mem h4 ((repost_mem ..).trans ((raisePorts_mem ..).trans (writeChart_mem ..)))

theorem wf_replaceGroup (g l) : (s.replaceGroup g l).memWf = true := by
  unfold replaceGroup; extract_lets x saved s1 s2 f g2 s3 s4 s5
  have h2 : s2.memWf = true := wf_foldl (fun h _ => wf_clearRows h ..) _ (wf_mem h (by simp [s1]))
  have h5 : s5.memWf = true := by
    refine wf_foldl (fun h v => ?_) _ (wf_mem h2 (by simp [s4, s3]))
    split
    · exact wf_mem (wf_putTile h ..) ((lostPhases_mem ..).trans (ownBcst_mem ..))
    · exact h
  exact wf_mem h5 ((raisePorts_mem ..).trans (writeChart_mem ..))

/-! ### GroupRun -/

theorem wf_takeUnread (g l) : (s.takeUnread g l).memWf = true := by
  unfold takeUnread; extract_lets rs s1 ys s2
  have h1 : s1.memWf = true := wf_foldl (fun h _ => wf_touchBytes h ..) _ h
  exact wf_mem h1 (by simp [s2])

theorem wf_savePayloads (g) : (s.savePayloads g).memWf = true :=
  wf_foldl (fun h _ => wf_ite h (wf_takeUnread (wf_mem h (takeQueued_mem ..)) ..)) _ h

theorem wf_stopComplete (g) : (s.stopComplete g).memWf = true := by
  fun_cases stopComplete s g
  · exact h
  · exact wf_mem h
  · exact wf_mem (wf_savePayloads h g) ((afterCut_mem ..).trans ((setGroup_mem ..).trans (emptyCaches_mem ..)))

theorem wf_commitMove (g c) : (s.commitMove g c).memWf = true := by
  fun_cases commitMove s g c
  · exact wf_mem (wf_moveTiles (wf_mem h (liftPayloads_mem ..)) ..) (endMove_mem ..)
  · exact wf_mem h

theorem wf_moveStep (g c) : (s.moveStep g c).memWf = true := by
  fun_cases moveStep s g c
  case case1 => exact wf_commitMove h ..
  all_goals exact wf_mem h

theorem wf_takeCommand (g sub who again) {act : State → GCommand → State}
    (hact : ∀ {t : State}, t.memWf = true → ∀ c, (act t c).memWf = true) :
    (s.takeCommand g sub who again act).memWf = true := by
  have h1 := wf_mem h (recordCommand_mem s g sub who)
  fun_cases takeCommand s g sub who again act
  · exact h
  · exact h1
  · exact wf_mem h1 (post_mem ..)
  · exact wf_mem h1 (finishCommand_mem ..)
  · exact hact h1 _

theorem wf_moveRequest (g) : (s.moveRequest g).memWf = true := by
  fun_cases moveRequest s g
  · exact wf_takeCommand h _ _ _ _ fun h _ => wf_moveStep h ..
  · exact h

/-- A store of the Pilot that is done or failed leaves a canonical memory. -/
structure PilotStoreWf (r : PilotStore) : Prop where
  done : ∀ {t}, r = .done t → t.memWf = true
  failed : ∀ {t}, r = .failed t → t.memWf = true

theorem pilotStoreWf_done : PilotStoreWf (.done s) := ⟨fun e => by cases e; exact h, nofun⟩
theorem pilotStoreWf_failed : PilotStoreWf (.failed s) := ⟨nofun, fun e => by cases e; exact h⟩
omit h in
theorem pilotStoreWf_waits : PilotStoreWf .waits := ⟨nofun, nofun⟩

theorem wf_storeContext (x k z l bs) : PilotStoreWf (s.storeContext x k z l bs) := by
  fun_induction storeContext s x k z l bs
  case case1 => exact pilotStoreWf_done h
  case case2 => exact pilotStoreWf_failed ((wf_chargedWalk h ..).error (x := (_, _)) ‹_›)
  case case3 => exact pilotStoreWf_waits
  case case4 ih => exact ih (wf_store (wf_mem ((wf_chargedWalk h ..).ok (x := (_, _)) ‹_›) (charge_mem ..)) ..)

omit h in
/-- A property of structural recursion over a list with a state carried along, without unfolding the recursion. -/
theorem brecOn_list {α σ β : Type} {P : σ → Prop} {Q : β → Prop}
    {F : (l : List α) → List.below (motive := fun _ => σ → β) l → σ → β} (hnil : ∀ b s, P s → Q (F [] b s))
    (hcons : ∀ a l b, (∀ s, P s → Q (b.1 s)) → ∀ s, P s → Q (F (a :: l) b s)) (l : List α) :
    ∀ s, P s → Q (List.brecOn (motive := fun _ => σ → β) l F s) := by
  induction l with
  | nil => exact hnil _
  | cons a l ih => exact hcons _ _ _ ih

/-- The equation of `spillSlots` at a cons cannot be checked: the kernel would evaluate the address of the slot, a sum with
0x80000 and with a product by 0x100000, in unary. So the address is named before the recursion is taken apart. -/
theorem wf_spillSlots (x p l) : PilotStoreWf (s.spillSlots x p l) := by
  obtain ⟨place, hplace⟩ : ∃ place : Nat → Nat → Nat, ∀ a n, a + p * 0x100000 + 0x80000 + n * 0x1000 = place a n :=
    ⟨_, fun _ _ => rfl⟩
  delta spillSlots spillSlots._f
  simp only [hplace]
  refine brecOn_list (P := fun s => s.memWf = true) (Q := PilotStoreWf) (fun _ s h => pilotStoreWf_done h) ?_ l s h
  intro n t b ih s h
  dsimp only
  split
  · exact ih _ ((wf_storeContext (wf_used h) ..).done ‹_›)
  · exact ih _ ((wf_storeContext (wf_used h) ..).failed ‹_›)
  · exact pilotStoreWf_waits

theorem wf_spillGroup (x l) : PilotStoreWf (s.spillGroup x l) := by
  fun_induction spillGroup s x l
  case case1 => exact pilotStoreWf_done h
  case case2 ih => exact ih ((wf_spillSlots h ..).done ‹_›)
  case case3 => exact wf_spillSlots h ..

theorem wf_evictStep (g c) : (s.evictStep g c).memWf = true := by
  have hs := fun x l => wf_spillGroup (wf_mem h (standStill_mem s g)) x l
  fun_cases evictStep s g c
  · exact wf_mem ((hs ..).done ‹_›) ((scrubWhenCut_mem ..).trans ((finishCommand_mem ..).trans (evictGroup_mem ..)))
  · exact wf_mem ((hs ..).failed ‹_›) ((scrubWhenCut_mem ..).trans ((finishCommand_mem ..).trans (evictGroup_mem ..)))
  · exact wf_mem h
  · exact h
  · exact wf_mem h
  · exact wf_mem h

theorem wf_evictRequest (g) : (s.evictRequest g).memWf = true := by
  fun_cases evictRequest s g
  · exact wf_takeCommand h _ _ _ _ fun h _ => wf_evictStep h ..
  · exact h

theorem wf_writeSnapshot (g) : PilotStoreWf (s.writeSnapshot g) := by
  unfold writeSnapshot; extract_lets g c len s0 off skip ep k r
  have h0 : s0.memWf = true := wf_used h
  have hskip : ∀ {t : State}, t.memWf = true → (skip t).memWf = true := fun ht => wf_mem ht (setGroup_mem ..)
  split
  · exact pilotStoreWf_done (hskip h0)
  · split
    · exact pilotStoreWf_waits
    · exact pilotStoreWf_done (hskip ((wf_storeContext h0 ..).failed ‹_›))
    · have h1 := (wf_storeContext h0 ..).done ‹_›
      split
      · exact pilotStoreWf_waits
      · exact pilotStoreWf_done (hskip ((wf_storeContext h1 ..).failed ‹_›))
      · exact pilotStoreWf_done (wf_mem ((wf_storeContext h1 ..).done ‹_›) (snapDone_mem ..))

theorem wf_snapshot (g) : (s.snapshot g).memWf = true := by
  fun_cases snapshot s g
  · exact wf_mem ((wf_writeSnapshot h g).done ‹_›) ((releasePilot_mem ..).trans (setGroup_mem ..))
  · exact wf_mem ((wf_writeSnapshot h g).failed ‹_›) ((releasePilot_mem ..).trans (setGroup_mem ..))
  · exact wf_mem h
  · exact h
  · exact wf_mem h
  · exact wf_mem h
  · exact wf_mem h
  · exact h

end Sys2Proof.Machine.State

/-! ## Kernels, contexts, interfaces, Lodestone and the helm threads -/

namespace Sys2Proof.Machine.State
variable {s : State} (h : s.memWf = true)
include h

/-! ### Fetch -/

theorem wf_fetchWord : ExceptWf (fun t => t) Prod.snd s.fetchWord := by
  have hl := wf_helmLoad h s.th.pcc s.pc 4 Need.fetch
  fun_cases fetchWord s
  · exact exceptWf_error.2 (wf_mem h)
  · exact exceptWf_error.2 (hl.error ‹_›)
  · exact exceptWf_error.2 (wf_mem (hl.ok (x := (_, _)) ‹_›) (trap_mem ..))
  · exact exceptWf_ok.2 (hl.ok (x := (_, _)) ‹_›)

/-! ### Queue -/

theorem wf_pushRecord (d c q) : (s.pushRecord d c q).memWf = true := by
  have hl := wf_helmLoad h c c.lo 64 Need.load
  fun_cases pushRecord s d c q
  · exact wf_mem h
  · exact hl.error ‹_›
  · exact wf_mem (hl.ok (x := (_, _)) ‹_›) (trap_mem ..)
  · exact wf_mem (hl.ok (x := (_, _)) ‹_›) (push_mem ..)

/-! ### Admission -/

theorem wf_readPiece (x a n r) : ExceptWf Prod.snd Prod.snd (s.readPiece x a n r) := by
  have hw := wf_chargedWalk h { ctx := x } a Need.load
  have hl : ∀ {t : State}, t.memWf = true → ∀ p, ((t.charge x 0).loadLine p n (wd a) r).2.2.2.memWf = true :=
    fun ht p => wf_loadLine (wf_mem ht (charge_mem ..)) ..
  fun_cases readPiece s x a n r
  · exact exceptWf_error.2 h
  · exact exceptWf_ok.2 h
  · exact exceptWf_ok.2 h
  · exact exceptWf_error.2 (hw.error (x := (_, _)) ‹_›)
  · exact exceptWf_error.2 (hw.ok (x := (_, _)) ‹_›)
  · exact exceptWf_error.2 (hl (hw.ok (x := (_, _)) ‹_›) _)
  · exact exceptWf_ok.2 (hl (hw.ok (x := (_, _)) ‹_›) _)

theorem wf_readList (x r got n l) : (s.readList x r got n l).2.2.2.memWf = true := by
  fun_induction readList s x r got n l
  case case1 => exact h
  case case2 => exact (wf_readPiece h ..).error ‹_›
  case case3 ih => exact ih ((wf_readPiece h ..).ok ‹_›)

theorem wf_readOn (q x ps) : (s.readOn q x ps).2.memWf = true :=
  wf_mem (wf_readList h ..) (setQueue_mem ..)

theorem wf_readStopped (q x err e) : (s.readStopped q x err e).2.memWf = true :=
  wf_mem h (readStopped_mem ..)

theorem wf_examine (q x r) : (s.examine q x r).2.memWf = true := by
  have ho := fun ps => wf_readOn h q x ps
  fun_cases examine s q x r
  · exact h
  · exact h
  · exact h
  · exact wf_readStopped (wf_snd (ho _) ‹_›) ..
  · exact wf_snd (ho _) ‹_›
  · exact wf_snd (ho _) ‹_›
  · exact wf_readStopped (wf_snd (wf_readOn (wf_snd (ho _) ‹_›) ..) ‹_›) ..
  · exact wf_snd (wf_readOn (wf_snd (ho _) ‹_›) ..) ‹_›

theorem wf_admitFrom (q y) : (s.admitFrom q y).memWf = true := by
  have he := fun r => wf_examine h q y.ctx r
  fun_cases admitFrom s q y
  · exact h
  · exact wf_snd (he _) ‹_›
  · exact wf_mem (wf_snd (he _) ‹_›) ((postOnce_mem ..).trans ((rejectRecord_mem ..).trans (takeHead_mem ..)))
  · exact wf_mem (wf_snd (he _) ‹_›)
      ((postOnce_mem ..).trans ((completeLaunch_mem ..).trans ((firstAdmission_mem ..).trans (takeHead_mem ..))))
  · exact wf_mem (wf_snd (he _) ‹_›)
      ((postOnce_mem ..).trans ((startKernel_mem ..).trans ((firstAdmission_mem ..).trans (takeHead_mem ..))))

theorem wf_readHeld : s.readHeld.memWf = true := by
  refine wf_foldl (fun h q => ?_) _ h
  split
  · exact wf_examine h ..
  · exact h

theorem wf_admission : s.admission.memWf = true := by
  have hr := wf_readHeld (wf_mem h (refreshReady_mem s))
  fun_cases admission s
  · exact hr
  · exact wf_mem hr (postOnce_mem ..)
  · exact wf_admitFrom hr ..

theorem wf_copyImage (g n) : (s.copyImage g n).2.memWf = true :=
  wf_mem (wf_readList h ..) (setGroup_mem ..)

theorem wf_verifyKernel (g) : (s.verifyKernel g).memWf = true := by
  have ht := wf_mem h (takeImage_mem s g)
  have hc := wf_copyImage ht g
  fun_cases verifyKernel s g
  · exact ht
  · exact wf_mem (wf_snd (hc _) ‹_›) (loadStopped_mem ..)
  · exact wf_mem (wf_snd (hc _) ‹_›) (verifyFailed_mem ..)
  · exact wf_mem (wf_snd (wf_copyImage (wf_snd (hc _) ‹_›) ..) ‹_›) (loadStopped_mem ..)
  · exact wf_mem (wf_snd (wf_copyImage (wf_snd (hc _) ‹_›) ..) ‹_›) (verifyFailed_mem ..)
  · exact wf_mem (wf_snd (wf_copyImage (wf_snd (hc _) ‹_›) ..) ‹_›) (verified_mem ..)

/-! ### Kernel -/

theorem wf_leaseGroup (g l) : (s.leaseGroup g l).memWf = true :=
  wf_mem (wf_foldl (fun h _ => wf_clearRows h ..) _ h) ((post_mem ..).trans ((setGroup_mem ..).trans (writeChart_mem ..)))

theorem wf_ownLease (g) : (s.ownLease g).memWf = true := by
  fun_cases ownLease s g
  · exact h
  · exact wf_mem h
  · exact wf_leaseGroup h ..
  · exact wf_mem h

theorem wf_ownReplace (g) : (s.ownReplace g).memWf = true := by
  fun_cases ownReplace s g
  · exact wf_mem h
  · exact wf_mem (wf_replaceGroup h ..) (endReplace_mem ..)
  · exact h

theorem wf_placeFirstTime (g c) : (s.placeFirstTime g c).memWf = true := by
  fun_cases placeFirstTime s g c
  · exact h
  · exact wf_mem h
  · exact wf_mem (wf_leaseGroup h ..) (finishCommand_mem ..)
  · exact wf_mem h
  · exact wf_mem h
  · exact wf_mem h
  · exact wf_mem h ((post_mem ..).trans (planCommand_mem ..))
  · exact wf_mem h

theorem wf_placeAgain (g c) : (s.placeAgain g c).memWf = true := by
  fun_cases placeAgain s g c
  · exact wf_mem (wf_replaceGroup h ..) (endReplace_mem ..)
  · exact wf_mem h ((finishCommand_mem ..).trans (setGroup_mem ..))
  · exact wf_mem h
  · exact wf_mem h
  · exact wf_mem h ((post_mem ..).trans ((setGroup_mem ..).trans (planCommand_mem ..)))

theorem wf_pilotLease (g) : (s.pilotLease g).memWf = true := by
  fun_cases pilotLease s g
  · refine wf_takeCommand h _ _ _ _ fun {t} ht c => ?_
    dsimp only; split
    · exact wf_placeFirstTime ht ..
    · split
      · exact wf_placeAgain ht ..
      · exact wf_mem ht
  · exact wf_ownReplace h ..
  · exact wf_ownLease h ..

/-! ### LinkRun -/

theorem wf_deviceReplace (g) : (s.deviceReplace g).memWf = true := by
  have hr : ∀ {l a b c t}, s.readList (s.group g).ctx (baseSource 10 0 g) [] 0 l = (a, b, c, t) → t.memWf = true :=
    fun {l _ _ _ _} e => by simpa only [e] using wf_readList h (s.group g).ctx (baseSource 10 0 g) [] 0 l
  fun_cases deviceReplace s g
  case case1 | case2 => exact h
  case case3 => exact wf_mem (hr ‹_›) (post_mem ..)
  case case4 | case5 | case6 => exact hr ‹_›
  case case7 => exact wf_mem (wf_replaceGroup (wf_mem (hr ‹_›) (fromSnapshot_mem ..)) ..) (endReplace_mem ..)

/-! ### ContextRun -/

theorem wf_writeRoots (c p) : (s.writeRoots c p).memWf = true :=
  wf_foldl (fun h _ => wf_storeLine h ..) _ (wf_foldl (fun h _ => wf_storeLine h ..) _ h)

theorem wf_placeLine (c) : (s.placeLine c).memWf = true := by
  have hw := wf_writeLine h c.1 c.2.1 false c.2.2.2
  exact wf_ite hw (wf_setTags hw _)

theorem wf_copyPages (x y) : (s.copyPages x y).memWf = true := wf_foldl (fun h _ => wf_placeLine h _) _ h

theorem wf_takeOver (x y) : (s.takeOver x y).memWf = true := by
  unfold takeOver; extract_lets qs s1 s2 s3
  have h2 : s2.memWf = true := wf_foldl (fun h _ => wf_mem h (moveGroup_mem ..)) _
    (wf_foldl (fun h _ => wf_mem h (moveRecords_mem ..)) _ h)
  have h3 : s3.memWf = true := wf_mem (wf_copyPages h2 x y) (moveChannels_mem ..)
  exact wf_mem h3 ((migrationMessage_mem ..).trans (retireContext_mem ..))

theorem wf_commitHere (x) : (s.commitHere x).memWf = true := by
  unfold commitHere; split; next d m c _ =>
  extract_lets s1 s2
  have h1 : s1.memWf = true := wf_mem h (setContext_mem ..)
  have h2 : s2.memWf = true := by
    unfold s2; split
    · exact wf_takeOver h1 ..
    · exact h1
  exact wf_ite h (wf_mem h2 ((post_mem ..).trans (queuesTo_mem ..)))

theorem wf_commitMigration (x) : (s.commitMigration x).memWf = true := by
  fun_cases commitMigration s x
  · exact wf_mem h
  · exact h
  · exact wf_commitHere h ..
  · exact h
  · exact h

/-! ### Partition -/

theorem wf_aperturePlace (x va w) : OptionWf Prod.snd (s.aperturePlace x va w) := by
  fun_cases aperturePlace s x va w
  · exact optionWf_none
  · exact optionWf_some.2 (wf_mem ((wf_walk h ..).ok (x := (_, _)) ‹_›) (mem_chargeWalk ..))

theorem wf_apertureLine (p va z w v) : (s.apertureLine p va z w v).memWf = true := by
  fun_cases apertureLine s p va z w v
  · exact wf_store h ..
  · exact wf_mem (wf_loadLine h ..) (reply_mem ..)
  · exact wf_mem (wf_loadLine h ..) (reply_mem ..)

theorem wf_aperture (n o z w t v) : (s.aperture n o z w t v).memWf = true := by
  unfold aperture; extract_lets x va refused
  have hr : (refused s).memWf = true := wf_ite h (wf_mem h)
  split
  · exact hr
  · split
    · exact wf_mem h
    · split
      · exact hr
      · have hp := (wf_aperturePlace h ..).some (x := (_, _)) ‹_›
        exact wf_ite (wf_apertureLine (wf_mem hp (charge_mem ..)) ..) (wf_mem h)

theorem wf_bar2 (n o z w t v) : (s.bar2 n o z w t v).memWf = true := by
  unfold bar2; dsimp only
  exact wf_ite (wf_aperture h ..) (wf_ite h (wf_mem h))

/-! ### Lodestone -/

theorem wf_lodeRead (l) : (s.lodeRead l).2.memWf = true := by
  fun_induction lodeRead s l
  case case1 => exact h
  case case2 => exact h
  case case3 => exact wf_loadLine h ..
  case case4 ih => exact ih (wf_loadLine h ..)

theorem wf_lodeBytes (a n) : (s.lodeBytes a n).2.memWf = true := wf_lodeRead h _

theorem wf_lodeWrite (a bs) : (s.lodeWrite a bs).memWf = true := by
  refine wf_foldl (fun h c => ?_) _ h
  split
  · exact wf_store h ..
  · exact h

theorem wf_writeLmCmd (v) : (s.writeLmCmd v).memWf = true := by
  fun_cases writeLmCmd s v
  · exact h
  · exact wf_mem (wf_lodeBytes h ..) (startRequest_mem _)

theorem wf_rootPlace (x c) : OptionWf Prod.snd (s.rootPlace x c) := by
  fun_cases rootPlace s x c
  · exact optionWf_none
  · exact optionWf_some.2 ((wf_walk h ..).ok (x := (_, _)) ‹_›)
  · exact optionWf_none

theorem wf_create : s.create.memWf = true := by
  fun_cases create s
  case case8 s1 p s2 hp _ _ =>
    have h2 : s2.memWf = true := (wf_rootPlace (wf_mem (s := s1) h (setContext_mem ..)) ..).some hp
    exact wf_mem (wf_writeRoots (wf_mem h2 (writeTags_mem ..)) ..) (post_mem ..)
  case case1 | case3 => exact h
  all_goals exact wf_mem h

theorem wf_attestRequest (d) : OptionWf (fun t => t) (s.attestRequest d).state := by
  fun_cases attestRequest s d
  · exact optionWf_none
  · exact optionWf_none
  · exact optionWf_some.2 (wf_lodeWrite h ..)

theorem wf_serve (op) {f : List Byte → Answer} (hf : ∀ d, OptionWf (fun t => t) (f d).state) :
    (s.serve op f).memWf = true := by
  fun_cases serve s op f
  · exact h
  · exact wf_mem h
  · exact wf_mem ((hf _).some ‹_›) (answerMailbox_mem ..)
  · exact wf_mem h

theorem wf_fwact : s.fwact.memWf = true := by
  have hi := fun a b c d => wf_lodeBytes (wf_lodeBytes h a b) c d
  fun_cases fwact s
  case case1 => exact h
  case case2 | case3 => exact wf_mem h
  case case7 => exact wf_mem (hi ..) (awaitActivation_mem ..)
  all_goals exact wf_mem (hi ..) (answerMailbox_mem ..)

/-! ### BringUp -/

omit h in
theorem risesFrom_filter {α : Type} {b : Nat} (p : Nat × α → Bool) {t : Table α} (ht : risesFrom b t = true) :
    risesFrom b (t.filter p) = true := by
  induction t generalizing b with
  | nil => rfl
  | cons c t ih =>
    simp only [risesFrom, Bool.and_eq_true, decide_eq_true_eq] at ht
    rw [List.filter_cons]
    split
    · simpa [risesFrom, ht.1] using ih ht.2
    · exact risesFrom_mono (ih ht.2) (by omega)

/-- Some of the bytes of a canonical memory. -/
theorem wf_filterCells (p) : Memory.wf { cells := s.mem.cells.filter p } = true := by
  obtain ⟨hr, hv⟩ := (cellsWf_iff _).1 h
  exact (cellsWf_iff _).2 ⟨risesFrom_filter p hr, fun c hc => hv c (List.mem_of_mem_filter hc)⟩

theorem wf_afterReset : s.afterReset.memWf = true := wf_filterCells h _

theorem wf_packageReset : s.packageReset.memWf = true :=
  wf_foldl (fun h _ => wf_mem h (enableLink_mem ..)) _ (wf_afterReset h)

/-! ### Walk -/

theorem wf_walkAgain (k) : (s.walkAgain k).memWf = true := by
  fun_cases walkAgain s k
  · exact h
  · next s1 _ _ e s2 hw => exact wf_mem ((wf_chargedWalk (s := s1) h ..).ok hw) (answerRaiser_mem ..)
  · next s1 _ _ f s2 hw => exact wf_mem ((wf_chargedWalk (s := s1) h ..).error hw) (raise_mem ..)

theorem wf_tagParity (k l w c) : (s.tagParity k l w c).memWf = true := by
  fun_cases tagParity s k l w c
  · exact wf_mem (wf_writeBack h l) (raise_mem ..)
  · exact wf_foldl (fun h _ => wf_mem h (containContext_mem ..)) _ (wf_mem (wf_dropLine h l) (raise_mem ..))

/-! ### Regs -/

theorem wf_highRegWrite (o v) : (s.highRegWrite o v).memWf = true := by
  fun_cases highRegWrite s o v
  case case13 => exact wf_writeLmCmd h v
  all_goals exact wf_mem h

theorem wf_regWrite (o v) : (s.regWrite o v).memWf = true :=
  wf_ite h (wf_ite (wf_mem h (lowRegWrite_mem ..)) (wf_highRegWrite h ..))

/-! ### LoadStore -/

theorem wf_registerWrite (a v) : OptionWf (fun t => t) (s.registerWrite a v) := by
  fun_cases registerWrite s a v
  · exact optionWf_some.2 (wf_regWrite h ..)
  · exact optionWf_none
  · exact optionWf_some.2 (wf_mem h)
  · exact optionWf_none

theorem wf_loadC (t b c i) : (s.loadC t b c i).memWf = true := by
  fun_cases loadC s t b c i
  · exact wf_mem h
  · exact wf_mem h
  · exact (wf_helmLoad h ..).error ‹_›
  · exact wf_mem ((wf_helmLoad h ..).ok (x := (_, _)) ‹_›) (trap_mem ..)
  · exact wf_mem ((wf_helmLoad h ..).ok (x := (_, _)) ‹_›) (retire_mem ..)

theorem wf_storeC (t b c i) : (s.storeC t b c i).memWf = true := by
  unfold storeC; dsimp only; split
  · exact wf_mem h
  · split
    · next hr =>
      split at hr
      · exact wf_mem ((wf_registerWrite h ..).some hr) (advance_mem ..)
      · cases hr
    · split
      · exact (wf_helmStore h ..).error ‹_›
      · exact wf_mem ((wf_helmStore h ..).ok ‹_›) (advance_mem ..)

theorem wf_loadCap (d c i) : (s.loadCap d c i).memWf = true := by
  fun_cases loadCap s d c i
  · exact wf_mem h
  · exact (wf_helmLoad h ..).error ‹_›
  · exact wf_mem ((wf_helmLoad h ..).ok (x := (_, _)) ‹_›) (trap_mem ..)
  · exact wf_mem ((wf_helmLoad h ..).ok (x := (_, _)) ‹_›) (retireC_mem ..)

theorem wf_storeCap (k c i) : (s.storeCap k c i).memWf = true := by
  fun_cases storeCap s k c i
  · exact wf_mem h
  · exact (wf_helmStore h ..).error ‹_›
  · exact wf_mem ((wf_helmStore h ..).ok ‹_›) (advance_mem ..)

theorem wf_amoAt (p a n op b d src) : (s.amoAt p a n op b d src).2.memWf = true := by
  have hl := wf_loadLine h p n a src
  fun_cases amoAt s p a n op b d src
  · exact hl
  · exact wf_store hl ..
  · exact hl

theorem wf_amoTile (op n wide d b c p) : (s.amoTile op n wide d b c p).memWf = true := by
  fun_cases amoTile s op n wide d b c p
  · exact wf_revokedLoad h ..
  · exact wf_mem h
  · exact wf_mem (wf_amoAt (wf_mem (wf_filterReads h ..) ((dropL1_mem ..).trans (countRequest_mem ..))) ..) (amoDone_mem ..)

theorem wf_atomic (op w k d b c) : (s.atomic op w k d b c).memWf = true := by
  fun_cases atomic s op w k d b c
  · exact wf_mem h
  · exact wf_mem h
  · exact wf_mem (wf_amoAt h ..) (amoDone_mem ..)
  · exact wf_mem h
  · exact wf_mem h
  · exact wf_mem h
  · exact (wf_helmTranslate h ..).error ‹_›
  · exact wf_amoTile ((wf_helmTranslate h ..).ok (x := (_, _)) ‹_›) ..

end Sys2Proof.Machine.State

/-! ## The elements -/

namespace Sys2Proof.Machine.State
variable {s : State} (h : s.memWf = true)
include h

omit h in
/-- The state that an instruction leaves, if it leaves one, has a canonical memory. -/
structure ResultWf (r : Result) : Prop where
  next : ∀ {t}, r = .next t → t.memWf = true

theorem resultWf_next : ResultWf (.next s) := ⟨fun e => by cases e; exact h⟩

/-- An instruction that leaves the memory as it is. -/
theorem resultWf_mem {t : State} (e : t.mem = s.mem := by simp) : ResultWf (.next t) := resultWf_next (wf_mem h e)

theorem resultWf_turn (op a) {f : State → Option State} (hf : ∀ t : State, t.SameMem (f t) := by simp) :
    ResultWf (.next (s.turn op a f)) := resultWf_mem h (turn_mem s op a hf)

theorem resultWf_onlineTurn (op a) {f : State → Option State} (hf : ∀ t : State, t.SameMem (f t) := by simp) :
    ResultWf (.next (s.onlineTurn op a f)) := resultWf_mem h (onlineTurn_mem s op a hf)

theorem resultWf_matrixOp (use a need valid) {f : State → State} (hf : ∀ t : State, (f t).mem = t.mem := by simp) :
    ResultWf (.next (s.matrixOp use a need valid f)) := resultWf_mem h (matrixOp_mem s use a need valid hf)

theorem resultWf_serve (op) {f : List Byte → Answer} (hf : ∀ d, s.SameMem (f d).state := by simp) :
    ResultWf (.next (s.serve op f)) := resultWf_mem h (serve_mem s op hf)

omit h in
/-- One opcode of a choice by opcode, and the rest of the choice. -/
theorem resultWf_dite {c : Prop} [Decidable c] {x : c → Result} {y : ¬c → Result} (hx : ∀ e, ResultWf (x e))
    (hy : ∀ e, ResultWf (y e)) : ResultWf (dite c x y) := by
  split
  · exact hx _
  · exact hy _

set_option smartUnfolding false in
/-- The choice by opcode is taken apart one opcode at a time, so that no splitter of all its 126 arms is built. -/
theorem wf_fireByOpcode (op a) : ResultWf (fireByOpcode op a s) := by
  unfold fireByOpcode
  iterate 59 refine resultWf_dite (by rintro rfl; exact resultWf_mem h) fun _ => ?_ -- mov to unpack
  iterate 2 refine resultWf_dite (by rintro rfl; exact resultWf_turn h ..) fun _ => ?_ -- qmx, dqmx
  iterate 2 refine resultWf_dite (by rintro rfl; exact resultWf_mem h) fun _ => ?_ -- bcast, dot
  refine resultWf_dite (by rintro rfl; exact resultWf_turn h ..) fun _ => ?_ -- dota
  refine resultWf_dite (by rintro rfl; exact resultWf_mem h) fun _ => ?_ -- dott
  iterate 6 refine resultWf_dite (by rintro rfl; exact resultWf_turn h ..) fun _ => ?_ -- dotta, rsum to rcnt
  iterate 3 refine resultWf_dite (by rintro rfl; exact resultWf_turn h ..) fun _ => ?_ -- steer, merge, gate
  refine resultWf_dite (by rintro rfl; exact resultWf_mem h (by split <;> simp)) fun _ => ?_  -- dup
  iterate 5 refine resultWf_dite (by rintro rfl; exact resultWf_turn h ..) fun _ => ?_ -- split to seqx
  refine resultWf_dite (by rintro rfl; exact resultWf_mem h) fun _ => ?_ -- const
  iterate 2 refine resultWf_dite (by rintro rfl; exact resultWf_turn h ..) fun _ => ?_ -- zip, unzip
  iterate 8 refine resultWf_dite (by rintro rfl; exact resultWf_mem h) fun _ => ?_ -- ald to achk
  iterate 3 refine resultWf_dite (by rintro rfl; exact resultWf_next (wf_bankFire h ..)) fun _ => ?_ -- mrd, mwr, mrmw
  refine resultWf_dite (by rintro rfl; exact resultWf_turn h ..) fun _ => ?_ -- mfifo
  refine resultWf_dite (by rintro rfl; exact resultWf_next (wf_turn h _ _ wf_mdbufStep)) fun _ => ?_
  iterate 2 refine resultWf_dite (by rintro rfl; exact resultWf_turn h ..) fun _ => ?_ -- mcopy, mfill
  refine resultWf_dite (by rintro rfl; exact resultWf_next (wf_bankFire h ..)) fun _ => ?_ -- mlut
  iterate 2 refine resultWf_dite (by rintro rfl; exact resultWf_mem h) fun _ => ?_ -- lmap, lnet
  iterate 3 refine resultWf_dite (by rintro rfl; exact resultWf_turn h ..) fun _ => ?_ -- lpack, lunpk, ldec
  iterate 8 refine resultWf_dite (by rintro rfl; exact resultWf_onlineTurn h ..) fun _ => ?_ -- ofrom to omin
  iterate 3 refine resultWf_dite (by rintro rfl; exact resultWf_mem h) fun _ => ?_ -- xnode, xnodeb, xnodes
  iterate 4 refine resultWf_dite (by rintro rfl; exact resultWf_turn h ..) fun _ => ?_ -- epass to eterm
  refine resultWf_dite (by rintro rfl; exact resultWf_turn h _ _ fun t => eachMove_mem t hinMoves_mem) fun _ => ?_
  refine resultWf_dite (by rintro rfl; exact resultWf_turn h _ _ fun t => eachMove_mem t houtMoves_mem) fun _ => ?_
  refine resultWf_dite (by
    rintro rfl
    exact resultWf_turn h _ _ fun t => eachMove_mem t (List.forall_mem_append.2 ⟨hinMoves_mem, houtMoves_mem⟩)) fun _ => ?_
  iterate 4 refine resultWf_dite (by rintro rfl; exact resultWf_turn h ..) fun _ => ?_ -- kgate to kbar
  exact resultWf_next h

end Sys2Proof.Machine.State

/-! ## The instructions and the step -/

namespace Sys2Proof.Machine.State
variable {s : State} (h : s.memWf = true)
include h

/-! ### The slots of a region -/

theorem wf_fireSlot (p n) : ResultWf (fireSlot s p n) := wf_fireByOpcode (s := { s with curTile := p, curSlot := n }) h ..

theorem wf_fireMember (q) : (s.fireMember q).memWf = true := by
  fun_cases fireMember s q
  · exact (wf_fireSlot h ..).next ‹_›
  · exact h

theorem wf_regionStep (g r) : (s.regionStep g r).memWf = true := by
  unfold regionStep; extract_lets due s1 x start s2 s3
  have h1 : s1.memWf = true := wf_foldl (fun h _ => wf_ite (wf_mem h (settleStop_mem ..)) h) _ h
  have h2 : s2.memWf = true := wf_ite (wf_mem h1 (claim_mem ..)) h1
  have h3 : s3.memWf = true :=
    wf_mem (wf_foldl (fun h _ => wf_fireMember h _) _ (wf_mem h2 (markMembers_mem ..))) (setRegion_mem ..)
  exact wf_ite (wf_mem h3 ((postOnce_mem ..).trans (gateGroup_mem ..))) (wf_mem h1 (holdRegion_mem ..))

/-! ### The instructions that go by cases -/

theorem wf_execEvMemoryReply (p n k) : ResultWf (execEvMemoryReply p n k s) := by
  refine resultWf_next ?_
  split
  · exact wf_ite h (wf_perform h ..)
  · exact h

theorem wf_execEvStoreAck (p n k) : ResultWf (execEvStoreAck p n k s) := by
  refine resultWf_next ?_
  split
  · exact wf_ite (wf_perform h ..) h
  · exact h

theorem wf_execEvXlatWalkComplete (p n) : ResultWf (execEvXlatWalkComplete p n s) := by
  refine resultWf_next ?_
  split
  · refine wf_ite h (wf_mem ?_ (wake_mem ..))
    have ha := fun x b => wf_answerLookup (wf_mem h (setSlot_mem s p n x)) p n b
    exact wf_ite (ha ..) (wf_mem (ha ..) (postOnce_mem ..))
  · exact h

theorem wf_execEvBankTransferComplete (p n) : ResultWf (execEvBankTransferComplete p n s) := by
  refine resultWf_next ?_
  split
  · refine wf_ite h (wf_ite (wf_mem h) (wf_mem ?_ ((wake_mem ..).trans ((emitNow_mem ..).trans (setSlot_mem ..)))))
    split
    · exact wf_transfer h ..
    · exact h
  · exact h

theorem wf_execEvFaultRecordWrite (k) : ResultWf (execEvFaultRecordWrite k s) := by
  refine resultWf_next ?_
  split
  · exact wf_writeInOrder h _
  · exact h

theorem wf_execEvRegisterWrite (f o t v) : ResultWf (execEvRegisterWrite f o t v s) := by
  refine resultWf_next ?_
  split
  · exact wf_regWrite h ..
  · exact wf_ite (wf_mem h) h

theorem wf_execEvOnlineCut (p n) : ResultWf (execEvOnlineCut p n s) := by
  refine resultWf_next (wf_ite ?_ h)
  split
  · exact wf_mem h ((wake_mem ..).trans ((examineCut_mem s p n).mem_eq ‹_›))
  · exact h

/-- Every instruction keeps the canonical form: those that read or write memory by the rules above, the others because
they leave it as it is. -/
theorem wf_exec (i) : ResultWf (exec i s) := by
  cases i
  case ldc => exact resultWf_next (wf_loadC h ..)
  case stc => exact resultWf_next (wf_storeC h ..)
  case ldcc => exact resultWf_next (wf_loadCap h ..)
  case stcc => exact resultWf_next (wf_storeCap h ..)
  case amoswap | amoadd | amoand | amoor | amoxor | amomin | amomax | amominu | amomaxu | amocas =>
    exact resultWf_next (wf_atomic h ..)
  case qpush => exact resultWf_next (wf_pushRecord h ..)
  case ldisc => exact resultWf_next (wf_ldisc h ..)
  case evMemoryReply => exact wf_execEvMemoryReply h ..
  case evStoreAck => exact wf_execEvStoreAck h ..
  case evXlatWalkComplete => exact wf_execEvXlatWalkComplete h ..
  case evBankTransferComplete => exact wf_execEvBankTransferComplete h ..
  case evOnlineCut => exact wf_execEvOnlineCut h ..
  case evFaultRecordWrite => exact wf_execEvFaultRecordWrite h _
  case evRegisterWrite => exact wf_execEvRegisterWrite h ..
  case evEngineTransfer => exact resultWf_next (wf_transferRun h _)
  case evEcollCombine => exact resultWf_next (wf_combine h _)
  case evSieveFinish => exact resultWf_next (wf_sieveStack h ..)
  case evBcstRowRead => exact resultWf_next (wf_rowRead h ..)
  case evRegionFire => exact resultWf_next (wf_ite (wf_regionStep h ..) h)
  case evMigrationCommit => exact resultWf_next (wf_commitMigration h _)
  case evAdmission => exact resultWf_next (wf_admission h)
  case evImageVerify => exact resultWf_next (wf_verifyKernel h _)
  case evPilotLease => exact resultWf_next (wf_pilotLease h _)
  case evDeviceReplace => exact resultWf_next (wf_deviceReplace h _)
  case evStopComplete => exact resultWf_next (wf_stopComplete h _)
  case evGroupMove => exact resultWf_next (wf_moveRequest h _)
  case evGroupEvict => exact resultWf_next (wf_evictRequest h _)
  case evSnapshot => exact resultWf_next (wf_snapshot h _)
  case evPageWalk => exact resultWf_next (wf_walkAgain h _)
  case evCreate => exact resultWf_next (wf_create h)
  case evAttest => exact resultWf_next (wf_serve h 10 (wf_attestRequest h))
  case evFwact => exact resultWf_next (wf_fwact h)
  case evPackageReset => exact resultWf_next (wf_packageReset h)
  case evBar2Access => exact resultWf_next (wf_bar2 h ..)
  case evTagParityError => exact resultWf_next (wf_tagParity h ..)
  case elMrd | elMwr | elMrmw | elMlut => exact resultWf_next (wf_bankFire h ..)
  case elMdbuf => exact resultWf_next (wf_turn h _ _ wf_mdbufStep)
  case elQmx | elDqmx | elDota | elDotta | elRsum | elRmax | elRmin | elRargmax | elRcnt | elSteer | elMerge | elGate
     | elSplit | elFrame | elUnframe | elSeq | elSeqx | elZip | elUnzip | elMfifo | elMcopy | elMfill | elLpack | elLunpk
     | elLdec | elEpass | elEturn | elEroute | elEterm | elKgate | elKlast | elKwave | elKbar => exact resultWf_turn h ..
  case elHin => exact resultWf_turn h _ _ fun t => eachMove_mem t hinMoves_mem
  case elHout => exact resultWf_turn h _ _ fun t => eachMove_mem t houtMoves_mem
  case elHbi => exact resultWf_turn h _ _ fun t => eachMove_mem t (List.forall_mem_append.2 ⟨hinMoves_mem, houtMoves_mem⟩)
  case elOfrom | elOto | elOadd | elOmul | elOmad | elOcmp | elOmax | elOmin => exact resultWf_onlineTurn h ..
  case mxMma | mxMmas | mxMmab | mxBload | mxBdrop | mxAzero | mxAload | mxAstore | mxAstorez | mxAadd | mxAscale
     | mxAbias | mxTrn | mxRmax | mxRsum | mxMark | mxXfence | mxCntrd => exact resultWf_matrixOp h ..
  case evRetire | evTiles | evMigout | evMigin | evMigabort | evGrant | evReclaim | evKeyslot => exact resultWf_serve h ..
  case jal | cjr | cjalr | ccall => exact resultWf_mem h (by split <;> simp)
  case evMatrixCommit | evRunCompletionBeat | evHeldMessageEnter | evBarrierArrivalSend | evBarrierCompletionApply
     | evTlbinvBroadcastArrive | evBeatInvalid | evBlockingConditionMet =>
    exact resultWf_mem h (by dsimp only; (repeat' split) <;> simp)
  all_goals exact resultWf_mem h

/-! ### The step -/

omit h in
/-- What the rest of a step does after the acting thread's instruction leaves the memory as it is. -/
theorem wf_settled (w n) : ∀ {r : Result}, ResultWf r → ResultWf (settled w n r)
  | .next _, hr => resultWf_next (wf_mem (hr.next rfl) (settle_mem ..))
  | .fault _, hr => hr
  | .refused _, hr => hr

theorem wf_runWord (w) : ResultWf (runWord w s) := by
  fun_cases runWord w s
  · exact wf_settled _ _ (wf_exec h _)
  · exact wf_settled _ _ (wf_exec h _)

theorem wf_runThread : ResultWf (runThread s) := by
  fun_cases runThread s
  · exact wf_runWord h _
  · exact resultWf_next (wf_mem ((wf_fetchWord h).error ‹_›) (setTh_mem ..))
  · exact wf_runWord ((wf_fetchWord h).ok (x := (_, _)) ‹_›) _

theorem wf_issue (t) : ResultWf (issue t s) := wf_runThread (s := s.issuing t) h

omit h in
theorem wf_matrixNext (p) : ∀ {r : Result}, ResultWf r → ResultWf (matrixNext p r)
  | .next t, hr => by
    have ht : t.memWf = true := hr.next rfl
    exact resultWf_next (wf_ite (by split <;> exact ht) (wf_mem ht))
  | .fault _, hr => hr
  | .refused _, hr => hr

theorem wf_runMatrix (p) : ResultWf (runMatrix p s) := by
  fun_cases runMatrix p s
  · exact resultWf_next h
  · exact resultWf_next h
  · next s1 _ _ _ _ _ => exact wf_matrixNext p (wf_exec (s := s1) h _)
  · exact resultWf_next h

/-- Every turn of an fc keeps the canonical form. -/
theorem wf_runTurn (t) : ResultWf (runTurn t s) := by
  fun_cases runTurn t s
  · exact wf_issue h _
  · exact resultWf_next h
  · exact wf_runThread (s := { s with cur := _ }) h
  · exact resultWf_next h
  · exact wf_fireSlot h ..
  · exact wf_runMatrix h _
  · exact wf_exec h _

theorem wf_step : ResultWf (step s) := by
  fun_cases step s
  · exact wf_exec (s := { s with now := [], agenda := _ }) h _
  · exact ⟨nofun⟩
  · next t rest _ => exact wf_runTurn (s := { s with now := rest }) h t
  · exact resultWf_mem h

end Sys2Proof.Machine.State

namespace Sys2Proof.Claims
open Sys2Proof.Machine

/-- Settles O60, by the cases of a step: the turn that it takes, or the next fc. Reset is such a state (`reset_memWf`). -/
theorem stepKeepsMemoryCanonical : Obligations.StepKeepsMemoryCanonical :=
  fun _ _ h hs => (State.wf_step h).next hs

end Sys2Proof.Claims

/-! # Proofs of the encoding family: words and their decoding (O57, O58), refused instructions (O25), matrix control (O42) -/

/-! ## A word as the list of its fields (R32) -/

namespace Sys2Proof

-- Proofs elaborated side by side, each in a thread of its own, would need more memory than the check leaves.
set_option Elab.async false

theorem fld_lt (w lo n : Nat) : fld w lo n < 2 ^ n := Nat.mod_lt _ (by positivity)

/-- The word whose fields (first bit, width, value), from bit 0 up, have the values of l. -/
def pack : List (Nat × Nat × Nat) → Nat
  | [] => 0
  | (_, n, v) :: l => v + 2 ^ n * pack l

/-- The fields of l lie one above the other from bit lo to bit N, and their values fit them. -/
def Tiles (N lo : Nat) : List (Nat × Nat × Nat) → Prop
  | [] => lo = N
  | (lo', n, v) :: l => lo' = lo ∧ v < 2 ^ n ∧ Tiles N (lo + n) l

/-- The fields of the N-bit word w have the values of l. -/
def Reads (N w : Nat) : List (Nat × Nat × Nat) → Prop
  | [] => w < 2 ^ N
  | (lo, n, v) :: l => fld w lo n = v ∧ Reads N w l

theorem pack_eq_div_iff {N w : Nat} : ∀ {l : List (Nat × Nat × Nat)} {lo : Nat}, Tiles N lo l →
    (pack l = w / 2 ^ lo ↔ Reads N w l)
  | [], lo, h => by
    rw [show lo = N from h, pack, Reads, eq_comm, Nat.div_eq_zero_iff_lt (by positivity)]
  | (lo', n, v) :: l, lo, ⟨hlo, hv, h⟩ => by
    have hx : v + 2 ^ n * pack l = w / 2 ^ lo ↔ fld w lo n = v ∧ pack l = w / 2 ^ (lo + n) := by
      rw [fld, pow_add, ← Nat.div_div_eq_div_mul]
      constructor
      · intro e
        rw [← e, Nat.add_mul_mod_self_left, Nat.mod_eq_of_lt hv, Nat.add_mul_div_left _ _ (by positivity),
          Nat.div_eq_of_lt hv, Nat.zero_add]
        exact ⟨rfl, rfl⟩
      · rintro ⟨rfl, e⟩
        rw [e, Nat.mod_add_div]
    rw [pack, hx, pack_eq_div_iff h, hlo, Reads]

/-- A sum of fields is w exactly if w has them. -/
theorem sum_eq_iff {N s w : Nat} {l : List (Nat × Nat × Nat)} (hs : s = pack l) (h : Tiles N 0 l) : s = w ↔ Reads N w l := by
  rw [hs, ← pack_eq_div_iff h, pow_zero, Nat.div_one]

/-! ## Operand fields and coded operands (R34-R36, R40-R42) -/

theorem reg_iff {w lo : Nat} {d : Reg} : reg w lo = d ↔ fld w lo 5 = d.val := by
  rw [Fin.ext_iff]
  exact Eq.congr_left (Nat.mod_eq_of_lt (fld_lt w lo 5))

theorem creg_iff {w lo : Nat} {d : CReg} : creg w lo = d ↔ fld w lo 4 = d.val := by
  rw [Fin.ext_iff]
  exact Eq.congr_left (Nat.mod_eq_of_lt (fld_lt w lo 4))

theorem ofNat_fld_iff {w lo n : Nat} {i : BitVec n} : BitVec.ofNat n (fld w lo n) = i ↔ fld w lo n = i.toNat := by
  rw [← BitVec.toNat_inj]
  exact Eq.congr_left (Nat.mod_eq_of_lt (fld_lt w lo n))

theorem imm16_iff {w : Nat} {i : BitVec 16} : imm16 w = i ↔ fld w 0 16 = i.toNat := ofNat_fld_iff
theorem imm13_iff {w : Nat} {i : BitVec 13} : imm13 w = i ↔ fld w 0 13 = i.toNat := ofNat_fld_iff
theorem imm26_iff {w : Nat} {i : BitVec 26} : imm26 w = i ↔ fld w 0 26 = i.toNat := ofNat_fld_iff
theorem imm8_iff {w : Nat} {i : BitVec 8} : imm8 w = i ↔ fld w 0 8 = i.toNat := ofNat_fld_iff
theorem imm6_iff {w lo : Nat} {i : BitVec 6} : imm6 w lo = i ↔ fld w lo 6 = i.toNat := ofNat_fld_iff

theorem Scope.code_lt (c : Scope) : c.code < 2 ^ 3 := by cases c <;> decide
theorem LoadType.code_lt (c : LoadType) : c.code < 2 ^ 4 := by cases c <;> decide
theorem StoreType.code_lt (c : StoreType) : c.code < 2 ^ 4 := by cases c <;> decide
theorem AmoWidth.code_lt (c : AmoWidth) : c.code < 2 ^ 1 := by cases c <;> decide
theorem AmoScope.code_lt (c : AmoScope) : c.code < 2 ^ 3 := by cases c <;> decide
theorem BarScope.code_lt (c : BarScope) : c.code < 2 ^ 3 := by cases c <;> decide
theorem LdiscMode.code_lt (c : LdiscMode) : c.code < 2 ^ 1 := by cases c <;> decide
theorem KReg.code_lt (c : KReg) : c.code < 2 ^ 8 := by cases c <;> decide

theorem Scope.ofCode_code (c : Scope) : ofCode c.code = some c := by cases c <;> rfl
theorem LoadType.ofCode_code (c : LoadType) : ofCode c.code = some c := by cases c <;> rfl
theorem StoreType.ofCode_code (c : StoreType) : ofCode c.code = some c := by cases c <;> rfl
theorem AmoWidth.ofCode_code (c : AmoWidth) : ofCode c.code = some c := by cases c <;> rfl
theorem AmoScope.ofCode_code (c : AmoScope) : ofCode c.code = some c := by cases c <;> rfl
theorem BarScope.ofCode_code (c : BarScope) : ofCode c.code = some c := by cases c <;> rfl
theorem LdiscMode.ofCode_code (c : LdiscMode) : ofCode c.code = some c := by cases c <;> rfl
theorem KReg.ofCode_code (c : KReg) : ofCode c.code = some c := by cases c <;> rfl

theorem lt_or_exists_eq_add (n k : Nat) : n < k ∨ ∃ m, n = m + k :=
  (Nat.lt_or_ge n k).imp_right fun h => ⟨n - k, (Nat.sub_add_cancel h).symm⟩

/-- What v names, if it names anything, has the code x. -/
def Named {α β : Type} (code : α → β) (x : β) : Option α → Prop
  | some c => code c = x
  | none => True

theorem Named.code_eq {α β : Type} {code : α → β} {x : β} {v : Option α} {c : α} (h : Named code x v) (hc : v = some c) :
    code c = x := by
  rwa [hc] at h

theorem Scope.named (n : Nat) : Named code n (ofCode n) := by
  obtain hn | ⟨m, rfl⟩ := lt_or_exists_eq_add n 8
  · interval_cases n <;> constructor
  · constructor

theorem LoadType.named (n : Nat) : Named code n (ofCode n) := by
  obtain hn | ⟨m, rfl⟩ := lt_or_exists_eq_add n 7
  · interval_cases n <;> constructor
  · constructor

theorem StoreType.named (n : Nat) : Named code n (ofCode n) := by
  obtain hn | ⟨m, rfl⟩ := lt_or_exists_eq_add n 4
  · interval_cases n <;> constructor
  · constructor

theorem AmoWidth.named (n : Nat) : Named code n (ofCode n) := by
  obtain hn | ⟨m, rfl⟩ := lt_or_exists_eq_add n 2
  · interval_cases n <;> constructor
  · constructor

theorem AmoScope.named (n : Nat) : Named code n (ofCode n) := by
  obtain hn | ⟨m, rfl⟩ := lt_or_exists_eq_add n 7
  · interval_cases n <;> constructor
  · constructor

theorem BarScope.named (n : Nat) : Named code n (ofCode n) := by
  obtain hn | ⟨m, rfl⟩ := lt_or_exists_eq_add n 7
  · interval_cases n <;> constructor
  · constructor

theorem LdiscMode.named (n : Nat) : Named code n (ofCode n) := by
  obtain hn | ⟨m, rfl⟩ := lt_or_exists_eq_add n 2
  · interval_cases n <;> constructor
  · constructor

theorem KReg.named (n : Nat) : Named code n (ofCode n) := by
  obtain hn | ⟨m, rfl⟩ := lt_or_exists_eq_add n 25
  · interval_cases n <;> constructor
  · constructor

/-! ## Words by format and operands (R32, R37-R42)

An encoder adds its operands, each times the weight of its field, to a constant c that holds the major opcode and, in most formats, a
function code. Such a sum is w exactly if w is a 32-bit word with c's codes, the operands in their fields and zeros elsewhere. -/

section
variable {c w : Nat}

/-! ### Formats HA, HI and HJ -/

theorem word_ha_dab {d a b : Reg} (hc : c = fld c 0 11 + fld c 26 6 * 67108864) :
    c + d.val * 2097152 + a.val * 65536 + b.val * 2048 = w ↔ fld w 0 11 = fld c 0 11 ∧ reg w 11 = b ∧ reg w 16 = a ∧
      reg w 21 = d ∧ fld w 26 6 = fld c 26 6 ∧ w < 2 ^ 32 := by
  simp only [reg_iff]
  exact sum_eq_iff (N := 32) (l := [(0, 11, fld c 0 11), (11, 5, b.val), (16, 5, a.val), (21, 5, d.val), (26, 6,
    fld c 26 6)]) (by (conv_lhs => rw [hc]); simp +arith [pack]) ⟨rfl, fld_lt _ _ _, rfl, b.isLt, rfl, a.isLt, rfl, d.isLt, rfl,
    fld_lt _ _ _, rfl⟩

theorem word_ha_da {d a : Reg} (hc : c = fld c 0 11 + fld c 26 6 * 67108864) :
    c + d.val * 2097152 + a.val * 65536 = w ↔ fld w 0 11 = fld c 0 11 ∧ fld w 11 5 = 0 ∧ reg w 16 = a ∧ reg w 21 = d ∧
      fld w 26 6 = fld c 26 6 ∧ w < 2 ^ 32 := by
  simp only [reg_iff]
  exact sum_eq_iff (N := 32) (l := [(0, 11, fld c 0 11), (11, 5, 0), (16, 5, a.val), (21, 5, d.val), (26, 6,
    fld c 26 6)]) (by (conv_lhs => rw [hc]); simp +arith [pack]) ⟨rfl, fld_lt _ _ _, rfl, by decide, rfl, a.isLt, rfl, d.isLt,
    rfl, fld_lt _ _ _, rfl⟩

theorem word_hi_dai {d a : Reg} {i : BitVec 16} (hc : c = fld c 26 6 * 67108864) :
    c + d.val * 2097152 + a.val * 65536 + i.toNat = w ↔ imm16 w = i ∧ reg w 16 = a ∧ reg w 21 = d ∧ fld w 26 6 = fld c 26 6 ∧
      w < 2 ^ 32 := by
  simp only [imm16_iff, reg_iff]
  exact sum_eq_iff (N := 32) (l := [(0, 16, i.toNat), (16, 5, a.val), (21, 5, d.val), (26, 6,
    fld c 26 6)]) (by (conv_lhs => rw [hc]); simp +arith [pack]) ⟨rfl, i.isLt, rfl, a.isLt, rfl, d.isLt, rfl, fld_lt _ _ _, rfl⟩

theorem word_hi_di {d : Reg} {i : BitVec 16} (hc : c = fld c 26 6 * 67108864) :
    c + d.val * 2097152 + i.toNat = w ↔ imm16 w = i ∧ fld w 16 5 = 0 ∧ reg w 21 = d ∧ fld w 26 6 = fld c 26 6 ∧ w < 2 ^ 32 := by
  simp only [imm16_iff, reg_iff]
  exact sum_eq_iff (N := 32) (l := [(0, 16, i.toNat), (16, 5, 0), (21, 5, d.val), (26, 6,
    fld c 26 6)]) (by (conv_lhs => rw [hc]); simp +arith [pack]) ⟨rfl, i.isLt, rfl, by decide, rfl, d.isLt, rfl, fld_lt _ _ _,
    rfl⟩

theorem word_hi_dan {d a : Reg} {n : BitVec 6} (hc : c = fld c 26 6 * 67108864) :
    c + d.val * 2097152 + a.val * 65536 + n.toNat = w ↔ imm6 w 0 = n ∧ fld w 6 10 = 0 ∧ reg w 16 = a ∧ reg w 21 = d ∧
      fld w 26 6 = fld c 26 6 ∧ w < 2 ^ 32 := by
  simp only [imm6_iff, reg_iff]
  exact sum_eq_iff (N := 32) (l := [(0, 6, n.toNat), (6, 10, 0), (16, 5, a.val), (21, 5, d.val), (26, 6,
    fld c 26 6)]) (by (conv_lhs => rw [hc]); simp +arith [pack]) ⟨rfl, n.isLt, rfl, by decide, rfl, a.isLt, rfl, d.isLt, rfl,
    fld_lt _ _ _, rfl⟩

theorem word_hi_dapl {d a : Reg} {p l : BitVec 6} (hc : c = fld c 26 6 * 67108864) :
    c + d.val * 2097152 + a.val * 65536 + p.toNat * 64 + l.toNat = w ↔ imm6 w 0 = l ∧ imm6 w 6 = p ∧ fld w 12 4 = 0 ∧
      reg w 16 = a ∧ reg w 21 = d ∧ fld w 26 6 = fld c 26 6 ∧ w < 2 ^ 32 := by
  simp only [imm6_iff, reg_iff]
  exact sum_eq_iff (N := 32) (l := [(0, 6, l.toNat), (6, 6, p.toNat), (12, 4, 0), (16, 5, a.val), (21, 5, d.val), (26, 6,
    fld c 26 6)]) (by (conv_lhs => rw [hc]); simp +arith [pack]) ⟨rfl, l.isLt, rfl, p.isLt, rfl, by decide, rfl, a.isLt, rfl,
    d.isLt, rfl, fld_lt _ _ _, rfl⟩

theorem word_hj {o : BitVec 26} (hc : c = fld c 26 6 * 67108864) :
    c + o.toNat = w ↔ imm26 w = o ∧ fld w 26 6 = fld c 26 6 ∧ w < 2 ^ 32 := by
  simp only [imm26_iff]
  exact sum_eq_iff (N := 32) (l := [(0, 26, o.toNat), (26, 6, fld c 26 6)]) (by (conv_lhs => rw [hc]); simp +arith [pack]) ⟨rfl,
    o.isLt, rfl, fld_lt _ _ _, rfl⟩

/-! ### Format HC -/

theorem word_hc_a {a : CReg} (hc : c = fld c 0 13 + fld c 26 6 * 67108864) :
    c + a.val * 262144 = w ↔ fld w 0 13 = fld c 0 13 ∧ fld w 13 5 = 0 ∧ creg w 18 = a ∧ fld w 22 4 = 0 ∧ fld w 26 6 = fld c 26 6 ∧
      w < 2 ^ 32 := by
  simp only [creg_iff]
  exact sum_eq_iff (N := 32) (l := [(0, 13, fld c 0 13), (13, 5, 0), (18, 4, a.val), (22, 4, 0), (26, 6,
    fld c 26 6)]) (by (conv_lhs => rw [hc]); simp +arith [pack]) ⟨rfl, fld_lt _ _ _, rfl, by decide, rfl, a.isLt, rfl, by decide,
    rfl, fld_lt _ _ _, rfl⟩

theorem word_hc_da {d a : CReg} (hc : c = fld c 0 13 + fld c 26 6 * 67108864) :
    c + d.val * 4194304 + a.val * 262144 = w ↔ fld w 0 13 = fld c 0 13 ∧ fld w 13 5 = 0 ∧ creg w 18 = a ∧ creg w 22 = d ∧
      fld w 26 6 = fld c 26 6 ∧ w < 2 ^ 32 := by
  simp only [creg_iff]
  exact sum_eq_iff (N := 32) (l := [(0, 13, fld c 0 13), (13, 5, 0), (18, 4, a.val), (22, 4, d.val), (26, 6,
    fld c 26 6)]) (by (conv_lhs => rw [hc]); simp +arith [pack]) ⟨rfl, fld_lt _ _ _, rfl, by decide, rfl, a.isLt, rfl, d.isLt,
    rfl, fld_lt _ _ _, rfl⟩

theorem word_hc_tbai {t : LoadType} {b : Reg} {a : CReg} {i : BitVec 13} (hc : c = fld c 26 6 * 67108864) :
    c + t.code * 4194304 + b.val * 8192 + a.val * 262144 + i.toNat = w ↔ imm13 w = i ∧ reg w 13 = b ∧ creg w 18 = a ∧
      fld w 22 4 = t.code ∧ fld w 26 6 = fld c 26 6 ∧ w < 2 ^ 32 := by
  simp only [imm13_iff, reg_iff, creg_iff]
  exact sum_eq_iff (N := 32) (l := [(0, 13, i.toNat), (13, 5, b.val), (18, 4, a.val), (22, 4, t.code), (26, 6,
    fld c 26 6)]) (by (conv_lhs => rw [hc]); simp +arith [pack]) ⟨rfl, i.isLt, rfl, b.isLt, rfl, a.isLt, rfl, t.code_lt, rfl,
    fld_lt _ _ _, rfl⟩

theorem word_hc_ubai {u : StoreType} {b : Reg} {a : CReg} {i : BitVec 13} (hc : c = fld c 26 6 * 67108864) :
    c + u.code * 4194304 + b.val * 8192 + a.val * 262144 + i.toNat = w ↔ imm13 w = i ∧ reg w 13 = b ∧ creg w 18 = a ∧
      fld w 22 4 = u.code ∧ fld w 26 6 = fld c 26 6 ∧ w < 2 ^ 32 := by
  simp only [imm13_iff, reg_iff, creg_iff]
  exact sum_eq_iff (N := 32) (l := [(0, 13, i.toNat), (13, 5, b.val), (18, 4, a.val), (22, 4, u.code), (26, 6,
    fld c 26 6)]) (by (conv_lhs => rw [hc]); simp +arith [pack]) ⟨rfl, i.isLt, rfl, b.isLt, rfl, a.isLt, rfl, u.code_lt, rfl,
    fld_lt _ _ _, rfl⟩

theorem word_hc_dai {d a : CReg} {i : BitVec 13} (hc : c = fld c 26 6 * 67108864) :
    c + d.val * 4194304 + a.val * 262144 + i.toNat = w ↔ imm13 w = i ∧ fld w 13 5 = 0 ∧ creg w 18 = a ∧ creg w 22 = d ∧
      fld w 26 6 = fld c 26 6 ∧ w < 2 ^ 32 := by
  simp only [imm13_iff, creg_iff]
  exact sum_eq_iff (N := 32) (l := [(0, 13, i.toNat), (13, 5, 0), (18, 4, a.val), (22, 4, d.val), (26, 6,
    fld c 26 6)]) (by (conv_lhs => rw [hc]); simp +arith [pack]) ⟨rfl, i.isLt, rfl, by decide, rfl, a.isLt, rfl, d.isLt, rfl,
    fld_lt _ _ _, rfl⟩

theorem word_hc_amo {x : AmoWidth} {y : AmoScope} {d b : Reg} {a : CReg} (hc : c = fld c 3 4 * 8 + fld c 26 6 * 67108864) :
    c + x.code * 128 + y.code + d.val * 256 + b.val * 8192 + a.val * 262144 = w ↔ fld w 0 3 = y.code ∧ fld w 3 4 = fld c 3 4 ∧
      fld w 7 1 = x.code ∧ reg w 8 = d ∧ reg w 13 = b ∧ creg w 18 = a ∧ fld w 22 4 = 0 ∧ fld w 26 6 = fld c 26 6 ∧
      w < 2 ^ 32 := by
  simp only [reg_iff, creg_iff]
  exact sum_eq_iff (N := 32) (l := [(0, 3, y.code), (3, 4, fld c 3 4), (7, 1, x.code), (8, 5, d.val), (13, 5, b.val), (18, 4,
    a.val), (22, 4, 0), (26, 6, fld c 26 6)]) (by (conv_lhs => rw [hc]); simp +arith [pack]) ⟨rfl, y.code_lt, rfl, fld_lt _ _ _,
    rfl, x.code_lt, rfl, d.isLt, rfl, b.isLt, rfl, a.isLt, rfl, by decide, rfl, fld_lt _ _ _, rfl⟩

theorem word_hc_dab {d a : CReg} {b : Reg} (hc : c = fld c 0 13 + fld c 26 6 * 67108864) :
    c + d.val * 4194304 + a.val * 262144 + b.val * 8192 = w ↔ fld w 0 13 = fld c 0 13 ∧ reg w 13 = b ∧ creg w 18 = a ∧
      creg w 22 = d ∧ fld w 26 6 = fld c 26 6 ∧ w < 2 ^ 32 := by
  simp only [reg_iff, creg_iff]
  exact sum_eq_iff (N := 32) (l := [(0, 13, fld c 0 13), (13, 5, b.val), (18, 4, a.val), (22, 4, d.val), (26, 6,
    fld c 26 6)]) (by (conv_lhs => rw [hc]); simp +arith [pack]) ⟨rfl, fld_lt _ _ _, rfl, b.isLt, rfl, a.isLt, rfl, d.isLt, rfl,
    fld_lt _ _ _, rfl⟩

theorem word_hc_dac {d a b : CReg} (hc : c = fld c 0 13 + fld c 26 6 * 67108864) :
    c + d.val * 4194304 + a.val * 262144 + b.val * 8192 = w ↔ fld w 0 13 = fld c 0 13 ∧ creg w 13 = b ∧ fld w 17 1 = 0 ∧
      creg w 18 = a ∧ creg w 22 = d ∧ fld w 26 6 = fld c 26 6 ∧ w < 2 ^ 32 := by
  simp only [creg_iff]
  exact sum_eq_iff (N := 32) (l := [(0, 13, fld c 0 13), (13, 4, b.val), (17, 1, 0), (18, 4, a.val), (22, 4, d.val), (26, 6,
    fld c 26 6)]) (by (conv_lhs => rw [hc]); simp +arith [pack]) ⟨rfl, fld_lt _ _ _, rfl, b.isLt, rfl, by decide, rfl, a.isLt,
    rfl, d.isLt, rfl, fld_lt _ _ _, rfl⟩

theorem word_hc_ba {b : Reg} {a : CReg} (hc : c = fld c 0 13 + fld c 26 6 * 67108864) :
    c + b.val * 8192 + a.val * 262144 = w ↔ fld w 0 13 = fld c 0 13 ∧ reg w 13 = b ∧ creg w 18 = a ∧ fld w 22 4 = 0 ∧
      fld w 26 6 = fld c 26 6 ∧ w < 2 ^ 32 := by
  simp only [reg_iff, creg_iff]
  exact sum_eq_iff (N := 32) (l := [(0, 13, fld c 0 13), (13, 5, b.val), (18, 4, a.val), (22, 4, 0), (26, 6,
    fld c 26 6)]) (by (conv_lhs => rw [hc]); simp +arith [pack]) ⟨rfl, fld_lt _ _ _, rfl, b.isLt, rfl, a.isLt, rfl, by decide,
    rfl, fld_lt _ _ _, rfl⟩

theorem word_hc_bad {b : Reg} {a d : CReg} (hc : c = fld c 0 13 + fld c 26 6 * 67108864) :
    c + b.val * 8192 + a.val * 262144 + d.val * 4194304 = w ↔ fld w 0 13 = fld c 0 13 ∧ reg w 13 = b ∧ creg w 18 = a ∧
      creg w 22 = d ∧ fld w 26 6 = fld c 26 6 ∧ w < 2 ^ 32 := by
  simp only [reg_iff, creg_iff]
  exact sum_eq_iff (N := 32) (l := [(0, 13, fld c 0 13), (13, 5, b.val), (18, 4, a.val), (22, 4, d.val), (26, 6,
    fld c 26 6)]) (by (conv_lhs => rw [hc]); simp +arith [pack]) ⟨rfl, fld_lt _ _ _, rfl, b.isLt, rfl, a.isLt, rfl, d.isLt, rfl,
    fld_lt _ _ _, rfl⟩

theorem word_hc_b {b : Reg} (hc : c = fld c 0 13 + fld c 26 6 * 67108864) :
    c + b.val * 8192 = w ↔ fld w 0 13 = fld c 0 13 ∧ reg w 13 = b ∧ fld w 18 8 = 0 ∧ fld w 26 6 = fld c 26 6 ∧ w < 2 ^ 32 := by
  simp only [reg_iff]
  exact sum_eq_iff (N := 32) (l := [(0, 13, fld c 0 13), (13, 5, b.val), (18, 8, 0), (26, 6,
    fld c 26 6)]) (by (conv_lhs => rw [hc]); simp +arith [pack]) ⟨rfl, fld_lt _ _ _, rfl, b.isLt, rfl, by decide, rfl,
    fld_lt _ _ _, rfl⟩

/-! ### Format HS -/

theorem word_hs_sload {d : Reg} {a : CReg} {n : BitVec 6} (hc : c = fld c 8 8 * 256 + fld c 26 6 * 67108864) :
    c + d.val * 2097152 + a.val * 65536 + n.toNat = w ↔ imm6 w 0 = n ∧ fld w 6 2 = 0 ∧ fld w 8 8 = fld c 8 8 ∧ creg w 16 = a ∧
      fld w 20 1 = 0 ∧ reg w 21 = d ∧ fld w 26 6 = fld c 26 6 ∧ w < 2 ^ 32 := by
  simp only [imm6_iff, creg_iff, reg_iff]
  exact sum_eq_iff (N := 32) (l := [(0, 6, n.toNat), (6, 2, 0), (8, 8, fld c 8 8), (16, 4, a.val), (20, 1, 0), (21, 5, d.val),
    (26, 6, fld c 26 6)]) (by (conv_lhs => rw [hc]); simp +arith [pack]) ⟨rfl, n.isLt, rfl, by decide, rfl, fld_lt _ _ _, rfl,
    a.isLt, rfl, by decide, rfl, d.isLt, rfl, fld_lt _ _ _, rfl⟩

theorem word_hs_an6 {a : Reg} {n : BitVec 6} (hc : c = fld c 8 8 * 256 + fld c 26 6 * 67108864) :
    c + a.val * 65536 + n.toNat = w ↔ imm6 w 0 = n ∧ fld w 6 2 = 0 ∧ fld w 8 8 = fld c 8 8 ∧ reg w 16 = a ∧ fld w 21 5 = 0 ∧
      fld w 26 6 = fld c 26 6 ∧ w < 2 ^ 32 := by
  simp only [imm6_iff, reg_iff]
  exact sum_eq_iff (N := 32) (l := [(0, 6, n.toNat), (6, 2, 0), (8, 8, fld c 8 8), (16, 5, a.val), (21, 5, 0), (26, 6,
    fld c 26 6)]) (by (conv_lhs => rw [hc]); simp +arith [pack]) ⟨rfl, n.isLt, rfl, by decide, rfl, fld_lt _ _ _, rfl, a.isLt,
    rfl, by decide, rfl, fld_lt _ _ _, rfl⟩

theorem word_hs_dn6 {d : Reg} {n : BitVec 6} (hc : c = fld c 8 8 * 256 + fld c 26 6 * 67108864) :
    c + d.val * 2097152 + n.toNat = w ↔ imm6 w 0 = n ∧ fld w 6 2 = 0 ∧ fld w 8 8 = fld c 8 8 ∧ fld w 16 5 = 0 ∧ reg w 21 = d ∧
      fld w 26 6 = fld c 26 6 ∧ w < 2 ^ 32 := by
  simp only [imm6_iff, reg_iff]
  exact sum_eq_iff (N := 32) (l := [(0, 6, n.toNat), (6, 2, 0), (8, 8, fld c 8 8), (16, 5, 0), (21, 5, d.val), (26, 6,
    fld c 26 6)]) (by (conv_lhs => rw [hc]); simp +arith [pack]) ⟨rfl, n.isLt, rfl, by decide, rfl, fld_lt _ _ _, rfl, by decide,
    rfl, d.isLt, rfl, fld_lt _ _ _, rfl⟩

theorem word_hs_n6 {n : BitVec 6} (hc : c = fld c 8 8 * 256 + fld c 26 6 * 67108864) :
    c + n.toNat = w ↔ imm6 w 0 = n ∧ fld w 6 2 = 0 ∧ fld w 8 8 = fld c 8 8 ∧ fld w 16 10 = 0 ∧ fld w 26 6 = fld c 26 6 ∧
      w < 2 ^ 32 := by
  simp only [imm6_iff]
  exact sum_eq_iff (N := 32) (l := [(0, 6, n.toNat), (6, 2, 0), (8, 8, fld c 8 8), (16, 10, 0), (26, 6,
    fld c 26 6)]) (by (conv_lhs => rw [hc]); simp +arith [pack]) ⟨rfl, n.isLt, rfl, by decide, rfl, fld_lt _ _ _, rfl, by decide,
    rfl, fld_lt _ _ _, rfl⟩

theorem word_hs (hc : c = fld c 8 8 * 256 + fld c 26 6 * 67108864) :
    c = w ↔ fld w 0 8 = 0 ∧ fld w 8 8 = fld c 8 8 ∧ fld w 16 10 = 0 ∧ fld w 26 6 = fld c 26 6 ∧ w < 2 ^ 32 := by
  exact sum_eq_iff (N := 32) (l := [(0, 8, 0), (8, 8, fld c 8 8), (16, 10, 0), (26, 6,
    fld c 26 6)]) (by (conv_lhs => rw [hc]); simp +arith [pack]) ⟨rfl, by decide, rfl, fld_lt _ _ _, rfl, by decide, rfl,
    fld_lt _ _ _, rfl⟩

theorem word_hs_an8 {a : Reg} {n : BitVec 8} (hc : c = fld c 8 8 * 256 + fld c 26 6 * 67108864) :
    c + a.val * 65536 + n.toNat = w ↔ imm8 w = n ∧ fld w 8 8 = fld c 8 8 ∧ reg w 16 = a ∧ fld w 21 5 = 0 ∧
      fld w 26 6 = fld c 26 6 ∧ w < 2 ^ 32 := by
  simp only [imm8_iff, reg_iff]
  exact sum_eq_iff (N := 32) (l := [(0, 8, n.toNat), (8, 8, fld c 8 8), (16, 5, a.val), (21, 5, 0), (26, 6,
    fld c 26 6)]) (by (conv_lhs => rw [hc]); simp +arith [pack]) ⟨rfl, n.isLt, rfl, fld_lt _ _ _, rfl, a.isLt, rfl, by decide,
    rfl, fld_lt _ _ _, rfl⟩

theorem word_hs_dn8 {d : Reg} {n : BitVec 8} (hc : c = fld c 8 8 * 256 + fld c 26 6 * 67108864) :
    c + d.val * 2097152 + n.toNat = w ↔ imm8 w = n ∧ fld w 8 8 = fld c 8 8 ∧ fld w 16 5 = 0 ∧ reg w 21 = d ∧
      fld w 26 6 = fld c 26 6 ∧ w < 2 ^ 32 := by
  simp only [imm8_iff, reg_iff]
  exact sum_eq_iff (N := 32) (l := [(0, 8, n.toNat), (8, 8, fld c 8 8), (16, 5, 0), (21, 5, d.val), (26, 6,
    fld c 26 6)]) (by (conv_lhs => rw [hc]); simp +arith [pack]) ⟨rfl, n.isLt, rfl, fld_lt _ _ _, rfl, by decide, rfl, d.isLt,
    rfl, fld_lt _ _ _, rfl⟩

theorem word_hs_n8 {n : BitVec 8} (hc : c = fld c 8 8 * 256 + fld c 26 6 * 67108864) :
    c + n.toNat = w ↔ imm8 w = n ∧ fld w 8 8 = fld c 8 8 ∧ fld w 16 10 = 0 ∧ fld w 26 6 = fld c 26 6 ∧ w < 2 ^ 32 := by
  simp only [imm8_iff]
  exact sum_eq_iff (N := 32) (l := [(0, 8, n.toNat), (8, 8, fld c 8 8), (16, 10, 0), (26, 6,
    fld c 26 6)]) (by (conv_lhs => rw [hc]); simp +arith [pack]) ⟨rfl, n.isLt, rfl, fld_lt _ _ _, rfl, by decide, rfl,
    fld_lt _ _ _, rfl⟩

theorem word_hs_engine {d a : CReg} {n : Reg} (hc : c = fld c 8 8 * 256 + fld c 26 6 * 67108864) :
    c + d.val * 2097152 + a.val * 65536 + n.val = w ↔ reg w 0 = n ∧ fld w 5 3 = 0 ∧ fld w 8 8 = fld c 8 8 ∧ creg w 16 = a ∧
      fld w 20 1 = 0 ∧ creg w 21 = d ∧ fld w 25 1 = 0 ∧ fld w 26 6 = fld c 26 6 ∧ w < 2 ^ 32 := by
  simp only [reg_iff, creg_iff]
  exact sum_eq_iff (N := 32) (l := [(0, 5, n.val), (5, 3, 0), (8, 8, fld c 8 8), (16, 4, a.val), (20, 1, 0), (21, 4, d.val), (25,
    1, 0), (26, 6, fld c 26 6)]) (by (conv_lhs => rw [hc]); simp +arith [pack]) ⟨rfl, n.isLt, rfl, by decide, rfl, fld_lt _ _ _,
    rfl, a.isLt, rfl, by decide, rfl, d.isLt, rfl, by decide, rfl, fld_lt _ _ _, rfl⟩

theorem word_hs_binit {s : BarScope} {a : Reg} {n : BitVec 8} (hc : c = fld c 8 8 * 256 + fld c 26 6 * 67108864) :
    c + s.code * 2097152 + a.val * 65536 + n.toNat = w ↔ imm8 w = n ∧ fld w 8 8 = fld c 8 8 ∧ reg w 16 = a ∧ fld w 21 3 = s.code ∧
      fld w 24 2 = 0 ∧ fld w 26 6 = fld c 26 6 ∧ w < 2 ^ 32 := by
  simp only [imm8_iff, reg_iff]
  exact sum_eq_iff (N := 32) (l := [(0, 8, n.toNat), (8, 8, fld c 8 8), (16, 5, a.val), (21, 3, s.code), (24, 2, 0), (26, 6,
    fld c 26 6)]) (by (conv_lhs => rw [hc]); simp +arith [pack]) ⟨rfl, n.isLt, rfl, fld_lt _ _ _, rfl, a.isLt, rfl, s.code_lt,
    rfl, by decide, rfl, fld_lt _ _ _, rfl⟩

theorem word_hs_qpush {d : Reg} {a : CReg} {n : BitVec 8} (hc : c = fld c 8 8 * 256 + fld c 26 6 * 67108864) :
    c + d.val * 2097152 + a.val * 65536 + n.toNat = w ↔ imm8 w = n ∧ fld w 8 8 = fld c 8 8 ∧ creg w 16 = a ∧ fld w 20 1 = 0 ∧
      reg w 21 = d ∧ fld w 26 6 = fld c 26 6 ∧ w < 2 ^ 32 := by
  simp only [imm8_iff, creg_iff, reg_iff]
  exact sum_eq_iff (N := 32) (l := [(0, 8, n.toNat), (8, 8, fld c 8 8), (16, 4, a.val), (20, 1, 0), (21, 5, d.val), (26, 6,
    fld c 26 6)]) (by (conv_lhs => rw [hc]); simp +arith [pack]) ⟨rfl, n.isLt, rfl, fld_lt _ _ _, rfl, a.isLt, rfl, by decide,
    rfl, d.isLt, rfl, fld_lt _ _ _, rfl⟩

theorem word_hs_dan {d a n : Reg} (hc : c = fld c 8 8 * 256 + fld c 26 6 * 67108864) :
    c + d.val * 2097152 + a.val * 65536 + n.val = w ↔ reg w 0 = n ∧ fld w 5 3 = 0 ∧ fld w 8 8 = fld c 8 8 ∧ reg w 16 = a ∧
      reg w 21 = d ∧ fld w 26 6 = fld c 26 6 ∧ w < 2 ^ 32 := by
  simp only [reg_iff]
  exact sum_eq_iff (N := 32) (l := [(0, 5, n.val), (5, 3, 0), (8, 8, fld c 8 8), (16, 5, a.val), (21, 5, d.val), (26, 6,
    fld c 26 6)]) (by (conv_lhs => rw [hc]); simp +arith [pack]) ⟨rfl, n.isLt, rfl, by decide, rfl, fld_lt _ _ _, rfl, a.isLt,
    rfl, d.isLt, rfl, fld_lt _ _ _, rfl⟩

theorem word_hs_da {d a : Reg} (hc : c = fld c 8 8 * 256 + fld c 26 6 * 67108864) :
    c + d.val * 2097152 + a.val * 65536 = w ↔ fld w 0 8 = 0 ∧ fld w 8 8 = fld c 8 8 ∧ reg w 16 = a ∧ reg w 21 = d ∧
      fld w 26 6 = fld c 26 6 ∧ w < 2 ^ 32 := by
  simp only [reg_iff]
  exact sum_eq_iff (N := 32) (l := [(0, 8, 0), (8, 8, fld c 8 8), (16, 5, a.val), (21, 5, d.val), (26, 6,
    fld c 26 6)]) (by (conv_lhs => rw [hc]); simp +arith [pack]) ⟨rfl, by decide, rfl, fld_lt _ _ _, rfl, a.isLt, rfl, d.isLt,
    rfl, fld_lt _ _ _, rfl⟩

theorem word_hs_bcst {a : CReg} {n : Reg} (hc : c = fld c 8 8 * 256 + fld c 26 6 * 67108864) :
    c + a.val * 65536 + n.val = w ↔ reg w 0 = n ∧ fld w 5 3 = 0 ∧ fld w 8 8 = fld c 8 8 ∧ creg w 16 = a ∧ fld w 20 6 = 0 ∧
      fld w 26 6 = fld c 26 6 ∧ w < 2 ^ 32 := by
  simp only [reg_iff, creg_iff]
  exact sum_eq_iff (N := 32) (l := [(0, 5, n.val), (5, 3, 0), (8, 8, fld c 8 8), (16, 4, a.val), (20, 6, 0), (26, 6,
    fld c 26 6)]) (by (conv_lhs => rw [hc]); simp +arith [pack]) ⟨rfl, n.isLt, rfl, by decide, rfl, fld_lt _ _ _, rfl, a.isLt,
    rfl, by decide, rfl, fld_lt _ _ _, rfl⟩

theorem word_hs_d {d : Reg} (hc : c = fld c 8 8 * 256 + fld c 26 6 * 67108864) :
    c + d.val * 2097152 = w ↔ fld w 0 8 = 0 ∧ fld w 8 8 = fld c 8 8 ∧ fld w 16 5 = 0 ∧ reg w 21 = d ∧ fld w 26 6 = fld c 26 6 ∧
      w < 2 ^ 32 := by
  simp only [reg_iff]
  exact sum_eq_iff (N := 32) (l := [(0, 8, 0), (8, 8, fld c 8 8), (16, 5, 0), (21, 5, d.val), (26, 6,
    fld c 26 6)]) (by (conv_lhs => rw [hc]); simp +arith [pack]) ⟨rfl, by decide, rfl, fld_lt _ _ _, rfl, by decide, rfl, d.isLt,
    rfl, fld_lt _ _ _, rfl⟩

theorem word_hs_a {a : Reg} (hc : c = fld c 8 8 * 256 + fld c 26 6 * 67108864) :
    c + a.val * 65536 = w ↔ fld w 0 8 = 0 ∧ fld w 8 8 = fld c 8 8 ∧ reg w 16 = a ∧ fld w 21 5 = 0 ∧ fld w 26 6 = fld c 26 6 ∧
      w < 2 ^ 32 := by
  simp only [reg_iff]
  exact sum_eq_iff (N := 32) (l := [(0, 8, 0), (8, 8, fld c 8 8), (16, 5, a.val), (21, 5, 0), (26, 6,
    fld c 26 6)]) (by (conv_lhs => rw [hc]); simp +arith [pack]) ⟨rfl, by decide, rfl, fld_lt _ _ _, rfl, a.isLt, rfl, by decide,
    rfl, fld_lt _ _ _, rfl⟩

theorem word_hs_fence {s : Scope} (hc : c = fld c 8 8 * 256 + fld c 26 6 * 67108864) :
    c + s.code = w ↔ fld w 0 3 = s.code ∧ fld w 3 5 = 0 ∧ fld w 8 8 = fld c 8 8 ∧ fld w 16 10 = 0 ∧ fld w 26 6 = fld c 26 6 ∧
      w < 2 ^ 32 := by
  exact sum_eq_iff (N := 32) (l := [(0, 3, s.code), (3, 5, 0), (8, 8, fld c 8 8), (16, 10, 0), (26, 6,
    fld c 26 6)]) (by (conv_lhs => rw [hc]); simp +arith [pack]) ⟨rfl, s.code_lt, rfl, by decide, rfl, fld_lt _ _ _, rfl,
    by decide, rfl, fld_lt _ _ _, rfl⟩

theorem word_hs_tlbinv {a : Reg} (hc : c = fld c 0 1 + fld c 8 8 * 256 + fld c 26 6 * 67108864) :
    c + a.val * 65536 = w ↔ fld w 0 1 = fld c 0 1 ∧ fld w 1 7 = 0 ∧ fld w 8 8 = fld c 8 8 ∧ reg w 16 = a ∧ fld w 21 5 = 0 ∧
      fld w 26 6 = fld c 26 6 ∧ w < 2 ^ 32 := by
  simp only [reg_iff]
  exact sum_eq_iff (N := 32) (l := [(0, 1, fld c 0 1), (1, 7, 0), (8, 8, fld c 8 8), (16, 5, a.val), (21, 5, 0), (26, 6,
    fld c 26 6)]) (by (conv_lhs => rw [hc]); simp +arith [pack]) ⟨rfl, fld_lt _ _ _, rfl, by decide, rfl, fld_lt _ _ _, rfl,
    a.isLt, rfl, by decide, rfl, fld_lt _ _ _, rfl⟩

theorem word_hs_dk {d : Reg} {k : KReg} (hc : c = fld c 8 8 * 256 + fld c 26 6 * 67108864) :
    c + d.val * 2097152 + k.code = w ↔ fld w 0 8 = k.code ∧ fld w 8 8 = fld c 8 8 ∧ fld w 16 5 = 0 ∧ reg w 21 = d ∧
      fld w 26 6 = fld c 26 6 ∧ w < 2 ^ 32 := by
  simp only [reg_iff]
  exact sum_eq_iff (N := 32) (l := [(0, 8, k.code), (8, 8, fld c 8 8), (16, 5, 0), (21, 5, d.val), (26, 6,
    fld c 26 6)]) (by (conv_lhs => rw [hc]); simp +arith [pack]) ⟨rfl, k.code_lt, rfl, fld_lt _ _ _, rfl, by decide, rfl, d.isLt,
    rfl, fld_lt _ _ _, rfl⟩

theorem word_hs_ak {a : Reg} {k : KReg} (hc : c = fld c 8 8 * 256 + fld c 26 6 * 67108864) :
    c + a.val * 65536 + k.code = w ↔ fld w 0 8 = k.code ∧ fld w 8 8 = fld c 8 8 ∧ reg w 16 = a ∧ fld w 21 5 = 0 ∧
      fld w 26 6 = fld c 26 6 ∧ w < 2 ^ 32 := by
  simp only [reg_iff]
  exact sum_eq_iff (N := 32) (l := [(0, 8, k.code), (8, 8, fld c 8 8), (16, 5, a.val), (21, 5, 0), (26, 6,
    fld c 26 6)]) (by (conv_lhs => rw [hc]); simp +arith [pack]) ⟨rfl, k.code_lt, rfl, fld_lt _ _ _, rfl, a.isLt, rfl, by decide,
    rfl, fld_lt _ _ _, rfl⟩

theorem word_hs_ldisc {m : LdiscMode} {a : CReg} {n : Reg} (hc : c = fld c 8 8 * 256 + fld c 26 6 * 67108864) :
    c + m.code * 2097152 + a.val * 65536 + n.val = w ↔ reg w 0 = n ∧ fld w 5 3 = 0 ∧ fld w 8 8 = fld c 8 8 ∧ creg w 16 = a ∧
      fld w 20 1 = 0 ∧ fld w 21 1 = m.code ∧ fld w 22 4 = 0 ∧ fld w 26 6 = fld c 26 6 ∧ w < 2 ^ 32 := by
  simp only [reg_iff, creg_iff]
  exact sum_eq_iff (N := 32) (l := [(0, 5, n.val), (5, 3, 0), (8, 8, fld c 8 8), (16, 4, a.val), (20, 1, 0), (21, 1, m.code), (22,
    4, 0), (26, 6, fld c 26 6)]) (by (conv_lhs => rw [hc]); simp +arith [pack]) ⟨rfl, n.isLt, rfl, by decide, rfl, fld_lt _ _ _,
    rfl, a.isLt, rfl, by decide, rfl, m.code_lt, rfl, by decide, rfl, fld_lt _ _ _, rfl⟩

end

/-! The sums that several instructions share once more, as a rule that replaces the operands by the fields read. -/

section
variable {c w : Nat}

theorem ha_dab_elim {d a b : Reg} {P : Reg → Reg → Reg → Prop} (hc : c = fld c 0 11 + fld c 26 6 * 67108864)
    (h : c + d.val * 2097152 + a.val * 65536 + b.val * 2048 = w)
    (hP : fld w 0 11 = fld c 0 11 → fld w 26 6 = fld c 26 6 → P (reg w 21) (reg w 16) (reg w 11)) : P d a b := by
  obtain ⟨hf, rfl, rfl, rfl, hm, -⟩ := (word_ha_dab hc).1 h
  exact hP hf hm

theorem hi_dai_elim {d a : Reg} {i : BitVec 16} {P : Reg → Reg → BitVec 16 → Prop} (hc : c = fld c 26 6 * 67108864)
    (h : c + d.val * 2097152 + a.val * 65536 + i.toNat = w)
    (hP : fld w 26 6 = fld c 26 6 → P (reg w 21) (reg w 16) (imm16 w)) : P d a i := by
  obtain ⟨rfl, rfl, rfl, hm, -⟩ := (word_hi_dai hc).1 h
  exact hP hm

theorem hc_amo_elim {x : AmoWidth} {y : AmoScope} {d b : Reg} {a : CReg} {P : Reg → Reg → CReg → Prop}
    (hc : c = fld c 3 4 * 8 + fld c 26 6 * 67108864)
    (h : c + x.code * 128 + y.code + d.val * 256 + b.val * 8192 + a.val * 262144 = w)
    (hP : fld w 0 3 = y.code → fld w 3 4 = fld c 3 4 →
      fld w 7 1 = x.code → fld w 22 4 = 0 → fld w 26 6 = fld c 26 6 →
      P (reg w 8) (reg w 13) (creg w 18)) : P d b a := by
  obtain ⟨h0, hf, h7, rfl, rfl, rfl, h22, hm, -⟩ := (word_hc_amo hc).1 h
  exact hP h0 hf h7 h22 hm

theorem hc_dab_elim {d a : CReg} {b : Reg} {P : CReg → CReg → Reg → Prop} (hc : c = fld c 0 13 + fld c 26 6 * 67108864)
    (h : c + d.val * 4194304 + a.val * 262144 + b.val * 8192 = w)
    (hP : fld w 0 13 = fld c 0 13 → fld w 26 6 = fld c 26 6 → P (creg w 22) (creg w 18) (reg w 13)) : P d a b := by
  obtain ⟨hf, rfl, rfl, rfl, hm, -⟩ := (word_hc_dab hc).1 h
  exact hP hf hm

theorem hc_ba_elim {b : Reg} {a : CReg} {P : Reg → CReg → Prop} (hc : c = fld c 0 13 + fld c 26 6 * 67108864)
    (h : c + b.val * 8192 + a.val * 262144 = w)
    (hP : fld w 0 13 = fld c 0 13 → fld w 22 4 = 0 → fld w 26 6 = fld c 26 6 → P (reg w 13) (creg w 18)) : P b a := by
  obtain ⟨hf, rfl, rfl, h22, hm, -⟩ := (word_hc_ba hc).1 h
  exact hP hf h22 hm

theorem hs_da_elim {d a : Reg} {P : Reg → Reg → Prop} (hc : c = fld c 8 8 * 256 + fld c 26 6 * 67108864)
    (h : c + d.val * 2097152 + a.val * 65536 = w)
    (hP : fld w 0 8 = 0 → fld w 8 8 = fld c 8 8 → fld w 26 6 = fld c 26 6 → P (reg w 21) (reg w 16)) : P d a := by
  obtain ⟨h0, hf, rfl, rfl, hm, -⟩ := (word_hs_da hc).1 h
  exact hP h0 hf hm

end

/-! ## Encoding, then decoding (R43) -/

/-- The majors whose words a decoder of their own takes apart. -/
theorem decodeHelm_dispatch :
    (∀ w, fld w 26 6 = 0x01 → decodeHelm w = decodeAlu w) ∧
    (∀ w, fld w 26 6 = 0x02 → decodeHelm w = decodeBits w) ∧
    (∀ w, fld w 26 6 = 0x03 → decodeHelm w = decodeMul w) ∧
    (∀ w, fld w 26 6 = 0x18 → decodeHelm w = decodeJump w) ∧
    (∀ w, fld w 26 6 = 0x1D → decodeHelm w = decodeAmo w) ∧
    (∀ w, fld w 26 6 = 0x1E → decodeHelm w = decodeCap w) ∧
    (∀ w, fld w 26 6 = 0x21 → decodeHelm w = decodeStream w) ∧
    (∀ w, fld w 26 6 = 0x22 → decodeHelm w = decodeChan w) ∧
    (∀ w, fld w 26 6 = 0x23 → decodeHelm w = decodeEngine w) ∧
    (∀ w, fld w 26 6 = 0x24 → decodeHelm w = decodeBar w) ∧
    (∀ w, fld w 26 6 = 0x25 → decodeHelm w = decodeQueue w) ∧
    (∀ w, fld w 26 6 = 0x26 → decodeHelm w = decodeGroup w) ∧
    (∀ w, fld w 26 6 = 0x27 → decodeHelm w = decodeBeacon w) ∧
    (∀ w, fld w 26 6 = 0x28 → decodeHelm w = decodeSystem w) := by
  and_intros <;> intro w hm <;> rw [decodeHelm, hm] <;> rfl

/-- The checks of an atomic's width and scope (R40). -/
theorem amo_of_fields {w : Nat} {f : AmoWidth → AmoScope → Reg → Reg → CReg → Instr} {x : AmoWidth} {y : AmoScope}
    (h22 : fld w 22 4 = 0) (h7 : fld w 7 1 = x.code) (h0 : fld w 0 3 = y.code) :
    amo w f = .ok (f x y (reg w 8) (reg w 13) (creg w 18)) := by
  rw [amo, if_pos h22, h7, h0, x.ofCode_code, y.ofCode_code]

/-- i comes back from its word, if it has one and is well-formed. -/
def DecodesBack (i : Instr) : Option Nat → Prop
  | some s => ∀ w, s = w → i.wf = true → decodeHelm w = .ok i
  | none => True

/-- The fields of a word name its row of the decoder and its operands. -/
theorem encodeHelm_decodesBack (i : Instr) : DecodesBack i (encodeHelm i) := by
  obtain ⟨alu, bits, mul, jump, amo, cap, stream, chan, engine, bar, queue, group, beacon, system⟩ := decodeHelm_dispatch
  cases i
  case bfx d a p l | bfi d a p l =>
    rintro w h hi
    obtain ⟨hl, hp, h12, rfl, rfl, hm, -⟩ := (word_hi_dapl (by decide)).1 h
    have hfit : fld w 6 6 + fld w 0 6 + 1 ≤ 64 := by
      rw [imm6_iff.1 hl, imm6_iff.1 hp]
      exact of_decide_eq_true hi
    subst hl hp
    rw [decodeHelm, hm, h12]
    exact if_pos hfit
  case add d a b | sub d a b | and d a b | or d a b | xor d a b | andn d a b | sll d a b | srl d a b | sra d a b | min d a b
      | max d a b | minu d a b | maxu d a b =>
    rintro w h -
    apply ha_dab_elim (by decide) h
    intro hf hm
    rw [alu w hm, decodeAlu, hf]; rfl
  case clz d a | ctz d a | popc d a | bdlv d a =>
    rintro w h -
    obtain ⟨hf, h11, rfl, rfl, hm, -⟩ := (word_ha_da (by decide)).1 h
    rw [bits w hm, decodeBits, hf, h11]; rfl
  case bilv d a b | seq d a b | sne d a b | slt d a b | sltu d a b | sle d a b | sleu d a b | sel d a b =>
    rintro w h -
    apply ha_dab_elim (by decide) h
    intro hf hm
    rw [bits w hm, decodeBits, hf]; rfl
  case mul d a b | mulhi d a b | mulhiu d a b | div d a b | divu d a b | rem d a b | remu d a b =>
    rintro w h -
    apply ha_dab_elim (by decide) h
    intro hf hm
    rw [mul w hm, decodeMul, hf]; rfl
  case addi d a i | andi d a i | ori d a i | xori d a i | slti d a i | sltiu d a i | beq d a i | bne d a i | blt d a i
      | bge d a i | bltu d a i | bgeu d a i =>
    rintro w h -
    apply hi_dai_elim (by decide) h
    intro hm
    rw [decodeHelm, hm]; rfl
  case lui d i =>
    rintro w h -
    obtain ⟨rfl, h16, rfl, hm, -⟩ := (word_hi_di (by decide)).1 h
    rw [decodeHelm, hm, h16]; rfl
  case slli d a n | srli d a n | srai d a n =>
    rintro w h -
    obtain ⟨rfl, h6, rfl, rfl, hm, -⟩ := (word_hi_dan (by decide)).1 h
    rw [decodeHelm, hm, h6]; rfl
  case j o | jal o =>
    rintro w h -
    obtain ⟨rfl, hm, -⟩ := (word_hj (by decide)).1 h
    rw [decodeHelm, hm]; rfl
  case cjr a =>
    rintro w h -
    obtain ⟨hf, h13, rfl, h22, hm, -⟩ := (word_hc_a (by decide)).1 h
    rw [jump w hm, decodeJump, hf, h13, h22]; rfl
  case cjalr d a =>
    rintro w h -
    obtain ⟨hf, h13, rfl, rfl, hm, -⟩ := (word_hc_da (by decide)).1 h
    rw [jump w hm, decodeJump, hf, h13]; rfl
  case ccall a d =>
    rintro w h -
    obtain ⟨hf, h13, rfl, rfl, hm, -⟩ := (word_hc_da (by decide)).1 ((Nat.add_right_comm _ _ _).trans h)
    rw [jump w hm, decodeJump, hf, h13]; rfl
  case ldc t b a i =>
    rintro w h -
    obtain ⟨rfl, rfl, rfl, h22, hm, -⟩ := (word_hc_tbai (by decide)).1 h
    rw [decodeHelm, hm, h22, t.ofCode_code]; rfl
  case stc t b a i =>
    rintro w h -
    obtain ⟨rfl, rfl, rfl, h22, hm, -⟩ := (word_hc_ubai (by decide)).1 h
    rw [decodeHelm, hm, h22, t.ofCode_code]; rfl
  case ldcc d a i | stcc d a i | cincaddri d a i | csetboundsi d a i =>
    rintro w h -
    obtain ⟨rfl, h13, rfl, rfl, hm, -⟩ := (word_hc_dai (by decide)).1 h
    rw [decodeHelm, hm, h13]; rfl
  case amoswap x y d b a | amoadd x y d b a | amoand x y d b a | amoor x y d b a | amoxor x y d b a | amomin x y d b a
      | amomax x y d b a | amominu x y d b a | amomaxu x y d b a | amocas x y d b a =>
    rintro w h -
    apply hc_amo_elim (by decide) h
    intro h0 hf h7 h22 hm
    rw [amo w hm, decodeAmo, hf]
    exact amo_of_fields h22 h7 h0
  case csetbounds d a b | csetboundsx d a b | cincaddr d a b | csetaddr d a b | candperm d a b =>
    rintro w h -
    apply hc_dab_elim (by decide) h
    intro hf hm
    rw [cap w hm, decodeCap, hf]; rfl
  case cseal d a b | cunseal d a b =>
    rintro w h -
    obtain ⟨hf, rfl, h17, rfl, rfl, hm, -⟩ := (word_hc_dac (by decide)).1 h
    rw [cap w hm, decodeCap, hf, h17]; rfl
  case cmove d a | cclrtag d a =>
    rintro w h -
    obtain ⟨hf, h13, rfl, rfl, hm, -⟩ := (word_hc_da (by decide)).1 h
    rw [cap w hm, decodeCap, hf, h13]; rfl
  case cgetaddr b a | cgetbase b a | cgetlen b a | cgetperm b a | cgettag b a | cgetseal b a =>
    rintro w h -
    apply hc_ba_elim (by decide) h
    intro hf h22 hm
    rw [cap w hm, decodeCap, hf, h22]; rfl
  case ctestsub b a d =>
    rintro w h -
    obtain ⟨hf, rfl, rfl, rfl, hm, -⟩ := (word_hc_bad (by decide)).1 h
    rw [cap w hm, decodeCap, hf]; rfl
  case cfitlen b | cfitexp b =>
    rintro w h -
    obtain ⟨hf, rfl, h18, hm, -⟩ := (word_hc_b (by decide)).1 h
    rw [cap w hm, decodeCap, hf, h18]; rfl
  case sload d a n =>
    rintro w h -
    obtain ⟨rfl, h6, hf, rfl, h20, rfl, hm, -⟩ := (word_hs_sload (by decide)).1 h
    rw [stream w hm, decodeStream, hf, h6, h20]; rfl
  case sseed a n | ssend a n =>
    rintro w h -
    obtain ⟨rfl, h6, hf, rfl, h21, hm, -⟩ := (word_hs_an6 (by decide)).1 h
    rw [stream w hm, decodeStream, hf, h6, h21]; rfl
  case srecv d n =>
    rintro w h -
    obtain ⟨rfl, h6, hf, h16, rfl, hm, -⟩ := (word_hs_dn6 (by decide)).1 h
    rw [stream w hm, decodeStream, hf, h6, h16]; rfl
  case sdrain n =>
    rintro w h -
    obtain ⟨rfl, h6, hf, h16, hm, -⟩ := (word_hs_n6 (by decide)).1 h
    rw [stream w hm, decodeStream, hf, h6, h16]; rfl
  case sbar | bcfence | syield | tret | tlbsync =>
    rintro w rfl -
    decide
  case msend a n =>
    rintro w h -
    obtain ⟨rfl, hf, rfl, h21, hm, -⟩ := (word_hs_an8 (by decide)).1 h
    rw [chan w hm, decodeChan, hf, h21]; rfl
  case mrecv d n =>
    rintro w h -
    obtain ⟨rfl, hf, h16, rfl, hm, -⟩ := (word_hs_dn8 (by decide)).1 h
    rw [chan w hm, decodeChan, hf, h16]; rfl
  case ecopy d a n | egather d a n | ecoll d a n =>
    rintro w h -
    obtain ⟨rfl, h5, hf, rfl, h20, rfl, h25, hm, -⟩ := (word_hs_engine (by decide)).1 h
    rw [engine w hm, decodeEngine, hf, h5, h20, h25]; rfl
  case binit s a n =>
    rintro w h -
    obtain ⟨rfl, hf, rfl, h21, h24, hm, -⟩ := (word_hs_binit (by decide)).1 h
    rw [bar w hm, decodeBar, hf, h24, h21, s.ofCode_code]; rfl
  case barv n | bwait n | barvw n =>
    rintro w h -
    obtain ⟨rfl, hf, h16, hm, -⟩ := (word_hs_n8 (by decide)).1 h
    rw [bar w hm, decodeBar, hf, h16]; rfl
  case btest d n =>
    rintro w h -
    obtain ⟨rfl, hf, h16, rfl, hm, -⟩ := (word_hs_dn8 (by decide)).1 h
    rw [bar w hm, decodeBar, hf, h16]; rfl
  case qpush d a n =>
    rintro w h -
    obtain ⟨rfl, hf, rfl, h20, rfl, hm, -⟩ := (word_hs_qpush (by decide)).1 h
    rw [queue w hm, decodeQueue, hf, h20]; rfl
  case qstat d n =>
    rintro w h -
    obtain ⟨rfl, hf, h16, rfl, hm, -⟩ := (word_hs_dn8 (by decide)).1 h
    rw [queue w hm, decodeQueue, hf, h16]; rfl
  case gplace d a n | gmove d a n =>
    rintro w h -
    obtain ⟨rfl, h5, hf, rfl, rfl, hm, -⟩ := (word_hs_dan (by decide)).1 h
    rw [group w hm, decodeGroup, hf, h5]; rfl
  case gcut d a | gfreeze d a | gevict d a | gresume d a | gstat d a =>
    rintro w h -
    apply hs_da_elim (by decide) h
    intro h0 hf hm
    rw [group w hm, decodeGroup, hf, h0]; rfl
  case bcst a n =>
    rintro w h -
    obtain ⟨rfl, h5, hf, rfl, h20, hm, -⟩ := (word_hs_bcst (by decide)).1 h
    rw [beacon w hm, decodeBeacon, hf, h5, h20]; rfl
  case bslot d =>
    rintro w h -
    obtain ⟨h0, hf, h16, rfl, hm, -⟩ := (word_hs_d (by decide)).1 h
    rw [beacon w hm, decodeBeacon, hf, h0, h16]; rfl
  case fence s =>
    rintro w h -
    obtain ⟨h0, h3, hf, h16, hm, -⟩ := (word_hs_fence (by decide)).1 h
    rw [system w hm, decodeSystem, hf, h3, h16, h0, s.ofCode_code]; rfl
  case trap n =>
    rintro w h -
    obtain ⟨rfl, hf, h16, hm, -⟩ := (word_hs_n8 (by decide)).1 h
    rw [system w hm, decodeSystem, hf, h16]; rfl
  case sleep a =>
    rintro w h -
    obtain ⟨h0, hf, rfl, h21, hm, -⟩ := (word_hs_a (by decide)).1 h
    rw [system w hm, decodeSystem, hf, h0, h21]; rfl
  case tlbinvStage1 a | tlbinvStage2 a =>
    rintro w h -
    obtain ⟨h0, h1, hf, rfl, h21, hm, -⟩ := (word_hs_tlbinv (by decide)).1 h
    rw [system w hm, decodeSystem, hf, h1, h21, h0]; rfl
  case mfk d k =>
    rintro w h -
    obtain ⟨h0, hf, h16, rfl, hm, -⟩ := (word_hs_dk (by decide)).1 h
    rw [system w hm, decodeSystem, hf, h16, h0, k.ofCode_code]; rfl
  case mtk a k =>
    rintro w h -
    obtain ⟨h0, hf, rfl, h21, hm, -⟩ := (word_hs_ak (by decide)).1 h
    rw [system w hm, decodeSystem, hf, h21, h0, k.ofCode_code]; rfl
  case cxstat d a | cxquiesce d a | cxresume d a =>
    rintro w h -
    apply hs_da_elim (by decide) h
    intro h0 hf hm
    rw [system w hm, decodeSystem, hf, h0]; rfl
  case ldisc m a n =>
    rintro w h -
    obtain ⟨rfl, h5, hf, rfl, h20, h21, h22, hm, -⟩ := (word_hs_ldisc (by decide)).1 h
    rw [system w hm, decodeSystem, hf, h5, h20, h22, h21, m.ofCode_code]; rfl
  all_goals trivial

/-- Every well-formed helm instruction comes back from its word. -/
theorem decodeHelm_encodeHelm {i : Instr} {w : Nat} (hi : i.wf = true) (h : encodeHelm i = some w) : decodeHelm w = .ok i := by
  have hb := encodeHelm_decodesBack i
  rw [h] at hb
  exact hb w rfl hi

/-! ## Decoding, then encoding (R43)

The row of the decoder gives the codes and the zero fields of the word, and its operands are the fields that it read. -/

/-- i is well-formed and w is its word. -/
def Encodes (w : Nat) (i : Instr) : Prop := encodeHelm i = some w ∧ i.wf = true

namespace Encodes
variable {α : Type} {w x y z : Nat} {i j : Instr} {ok : Bool} {v : Option α} {f : α → Instr}

theorem of_ok (h : (.ok j : Except HelmReject Instr) = .ok i) (hj : Encodes w j) : Encodes w i := Except.ok.inj h ▸ hj

theorem of_error {e : HelmReject} (h : .error e = (.ok i : Except HelmReject Instr)) : Encodes w i := nomatch h

/-- Check 3 of R43 passed. -/
theorem of_zeros (h : zeros ok j = .ok i) (hj : ok = true → Encodes w j) : Encodes w i := by
  cases ok with
  | false => cases h
  | true => exact of_ok h (hj rfl)

theorem of_zero (h : zeros (x == 0) j = .ok i) (hj : x = 0 → Encodes w j) : Encodes w i :=
  of_zeros h fun hz => hj (beq_iff_eq.1 hz)

theorem of_two_zeros (h : zeros (x == 0 && y == 0) j = .ok i) (hj : x = 0 → y = 0 → Encodes w j) : Encodes w i :=
  of_zeros h fun hz => hj (beq_iff_eq.1 (Bool.and_elim_left hz)) (beq_iff_eq.1 (Bool.and_elim_right hz))

theorem of_three_zeros (h : zeros (x == 0 && y == 0 && z == 0) j = .ok i) (hj : x = 0 → y = 0 → z = 0 → Encodes w j) :
    Encodes w i := by
  refine of_zeros h fun hz => ?_
  simp only [Bool.and_eq_true, beq_iff_eq] at hz
  exact hj hz.1.1 hz.1.2 hz.2

/-- Checks 3 and 4 of R43 passed. -/
theorem of_coded (h : coded ok v f = .ok i) (hj : ok = true → ∀ x, v = some x → Encodes w (f x)) : Encodes w i := by
  cases ok with
  | false => cases h
  | true => cases v with
    | none => cases h
    | some x => exact of_ok h (hj rfl x rfl)

/-- The checks of an atomic's width and scope passed (R40). -/
theorem of_amo {f : AmoWidth → AmoScope → Reg → Reg → CReg → Instr} (h : amo w f = .ok i)
    (hf : fld w 22 4 = 0 → ∀ x y, fld w 7 1 = x.code → fld w 0 3 = y.code →
      Encodes w (f x y (reg w 8) (reg w 13) (creg w 18))) :
    Encodes w i := by
  unfold amo at h
  split at h
  case isFalse => cases h
  case isTrue h0 =>
    split at h
    case h_1 x y hx hy => exact of_ok h (hf h0 x y ((AmoWidth.named _).code_eq hx).symm ((AmoScope.named _).code_eq hy).symm)
    case h_2 => cases h

/-- The checks of BFX and BFI passed (R39). -/
theorem of_field {p : Prop} [Decidable p] 
    (h : (if x = 0 then if p then .ok j else .error .subField else .error .zeroField : Except HelmReject Instr) = .ok i)
    (hj : x = 0 → p → Encodes w j) : Encodes w i := by
  split_ifs at h with hx hp
  exact of_ok h (hj hx hp)

end Encodes

section
variable {w : Nat} {i : Instr} (hw : w < 2 ^ 32)
include hw

theorem encodes_of_decodeAlu (hm : fld w 26 6 = 0x01) (h : decodeAlu w = .ok i) : Encodes w i := by
  obtain ⟨n, hf⟩ : ∃ n, fld w 0 11 = n := ⟨_, rfl⟩
  rw [decodeAlu, hf] at h
  obtain hn | ⟨m, rfl⟩ := lt_or_exists_eq_add n 13
  · interval_cases n
    iterate 13 exact .of_ok h ⟨congrArg some ((word_ha_dab (by decide)).2 ⟨hf, rfl, rfl, rfl, hm, hw⟩), rfl⟩
  · exact .of_error h

theorem encodes_of_decodeBits (hm : fld w 26 6 = 0x02) (h : decodeBits w = .ok i) : Encodes w i := by
  obtain ⟨n, hf⟩ : ∃ n, fld w 0 11 = n := ⟨_, rfl⟩
  rw [decodeBits, hf] at h
  obtain hn | ⟨m, rfl⟩ := lt_or_exists_eq_add n 33
  · interval_cases n
    iterate 3 exact .of_zero h fun h11 => ⟨congrArg some ((word_ha_da (by decide)).2 ⟨hf, h11, rfl, rfl, hm, hw⟩), rfl⟩
    exact .of_ok h ⟨congrArg some ((word_ha_dab (by decide)).2 ⟨hf, rfl, rfl, rfl, hm, hw⟩), rfl⟩
    exact .of_zero h fun h11 => ⟨congrArg some ((word_ha_da (by decide)).2 ⟨hf, h11, rfl, rfl, hm, hw⟩), rfl⟩
    iterate 11 exact .of_error h
    iterate 6 exact .of_ok h ⟨congrArg some ((word_ha_dab (by decide)).2 ⟨hf, rfl, rfl, rfl, hm, hw⟩), rfl⟩
    iterate 10 exact .of_error h
    exact .of_ok h ⟨congrArg some ((word_ha_dab (by decide)).2 ⟨hf, rfl, rfl, rfl, hm, hw⟩), rfl⟩
  · exact .of_error h

theorem encodes_of_decodeMul (hm : fld w 26 6 = 0x03) (h : decodeMul w = .ok i) : Encodes w i := by
  obtain ⟨n, hf⟩ : ∃ n, fld w 0 11 = n := ⟨_, rfl⟩
  rw [decodeMul, hf] at h
  obtain hn | ⟨m, rfl⟩ := lt_or_exists_eq_add n 7
  · interval_cases n
    iterate 7 exact .of_ok h ⟨congrArg some ((word_ha_dab (by decide)).2 ⟨hf, rfl, rfl, rfl, hm, hw⟩), rfl⟩
  · exact .of_error h

theorem encodes_of_decodeJump (hm : fld w 26 6 = 0x18) (h : decodeJump w = .ok i) : Encodes w i := by
  obtain ⟨n, hf⟩ : ∃ n, fld w 0 13 = n := ⟨_, rfl⟩
  rw [decodeJump, hf] at h
  obtain hn | ⟨m, rfl⟩ := lt_or_exists_eq_add n 3
  · interval_cases n
    exact .of_two_zeros h fun h13 h22 => ⟨congrArg some ((word_hc_a (by decide)).2 ⟨hf, h13, rfl, h22, hm, hw⟩), rfl⟩
    exact .of_zero h fun h13 => ⟨congrArg some ((word_hc_da (by decide)).2 ⟨hf, h13, rfl, rfl, hm, hw⟩), rfl⟩
    exact .of_zero h fun h13 =>
      ⟨congrArg some ((Nat.add_right_comm _ _ _).trans ((word_hc_da (by decide)).2 ⟨hf, h13, rfl, rfl, hm, hw⟩)), rfl⟩
  · exact .of_error h

theorem encodes_of_decodeAmo (hm : fld w 26 6 = 0x1D) (h : decodeAmo w = .ok i) : Encodes w i := by
  obtain ⟨n, hf⟩ : ∃ n, fld w 3 4 = n := ⟨_, rfl⟩
  rw [decodeAmo, hf] at h
  obtain hn | ⟨m, rfl⟩ := lt_or_exists_eq_add n 10
  · interval_cases n
    iterate 10 exact .of_amo h fun h22 x y hx hy =>
      ⟨congrArg some ((word_hc_amo (by decide)).2 ⟨hy, hf, hx, rfl, rfl, rfl, h22, hm, hw⟩), rfl⟩
  · exact .of_error h

theorem encodes_of_decodeCap (hm : fld w 26 6 = 0x1E) (h : decodeCap w = .ok i) : Encodes w i := by
  obtain ⟨n, hf⟩ : ∃ n, fld w 0 13 = n := ⟨_, rfl⟩
  rw [decodeCap, hf] at h
  obtain hn | ⟨m, rfl⟩ := lt_or_exists_eq_add n 26
  · interval_cases n
    iterate 5 exact .of_ok h ⟨congrArg some ((word_hc_dab (by decide)).2 ⟨hf, rfl, rfl, rfl, hm, hw⟩), rfl⟩
    iterate 2 exact .of_zero h fun h17 =>
      ⟨congrArg some ((word_hc_dac (by decide)).2 ⟨hf, rfl, h17, rfl, rfl, hm, hw⟩), rfl⟩
    iterate 2 exact .of_zero h fun h13 => ⟨congrArg some ((word_hc_da (by decide)).2 ⟨hf, h13, rfl, rfl, hm, hw⟩), rfl⟩
    iterate 7 exact .of_error h
    iterate 6 exact .of_zero h fun h22 => ⟨congrArg some ((word_hc_ba (by decide)).2 ⟨hf, rfl, rfl, h22, hm, hw⟩), rfl⟩
    exact .of_ok h ⟨congrArg some ((word_hc_bad (by decide)).2 ⟨hf, rfl, rfl, rfl, hm, hw⟩), rfl⟩
    exact .of_error h
    iterate 2 exact .of_zero h fun h18 => ⟨congrArg some ((word_hc_b (by decide)).2 ⟨hf, rfl, h18, hm, hw⟩), rfl⟩
  · exact .of_error h

theorem encodes_of_decodeStream (hm : fld w 26 6 = 0x21) (h : decodeStream w = .ok i) : Encodes w i := by
  obtain ⟨n, hf⟩ : ∃ n, fld w 8 8 = n := ⟨_, rfl⟩
  rw [decodeStream, hf] at h
  obtain hn | ⟨m, rfl⟩ := lt_or_exists_eq_add n 7
  · interval_cases n
    exact .of_error h
    exact .of_two_zeros h fun h6 h20 =>
      ⟨congrArg some ((word_hs_sload (by decide)).2 ⟨rfl, h6, hf, rfl, h20, rfl, hm, hw⟩), rfl⟩
    iterate 2 exact .of_two_zeros h fun h6 h21 =>
      ⟨congrArg some ((word_hs_an6 (by decide)).2 ⟨rfl, h6, hf, rfl, h21, hm, hw⟩), rfl⟩
    exact .of_two_zeros h fun h6 h16 => ⟨congrArg some ((word_hs_dn6 (by decide)).2 ⟨rfl, h6, hf, h16, rfl, hm, hw⟩), rfl⟩
    exact .of_two_zeros h fun h6 h16 => ⟨congrArg some ((word_hs_n6 (by decide)).2 ⟨rfl, h6, hf, h16, hm, hw⟩), rfl⟩
    exact .of_two_zeros h fun h0 h16 => ⟨congrArg some ((word_hs (by decide)).2 ⟨h0, hf, h16, hm, hw⟩), rfl⟩
  · exact .of_error h

theorem encodes_of_decodeChan (hm : fld w 26 6 = 0x22) (h : decodeChan w = .ok i) : Encodes w i := by
  obtain ⟨n, hf⟩ : ∃ n, fld w 8 8 = n := ⟨_, rfl⟩
  rw [decodeChan, hf] at h
  obtain hn | ⟨m, rfl⟩ := lt_or_exists_eq_add n 3
  · interval_cases n
    exact .of_error h
    exact .of_zero h fun h21 => ⟨congrArg some ((word_hs_an8 (by decide)).2 ⟨rfl, hf, rfl, h21, hm, hw⟩), rfl⟩
    exact .of_zero h fun h16 => ⟨congrArg some ((word_hs_dn8 (by decide)).2 ⟨rfl, hf, h16, rfl, hm, hw⟩), rfl⟩
  · exact .of_error h

theorem encodes_of_decodeEngine (hm : fld w 26 6 = 0x23) (h : decodeEngine w = .ok i) : Encodes w i := by
  obtain ⟨n, hf⟩ : ∃ n, fld w 8 8 = n := ⟨_, rfl⟩
  rw [decodeEngine, hf] at h
  obtain hn | ⟨m, rfl⟩ := lt_or_exists_eq_add n 4
  · interval_cases n
    exact .of_error h
    iterate 3 exact .of_three_zeros h fun h5 h20 h25 =>
      ⟨congrArg some ((word_hs_engine (by decide)).2 ⟨rfl, h5, hf, rfl, h20, rfl, h25, hm, hw⟩), rfl⟩
  · exact .of_error h

theorem encodes_of_decodeBar (hm : fld w 26 6 = 0x24) (h : decodeBar w = .ok i) : Encodes w i := by
  obtain ⟨n, hf⟩ : ∃ n, fld w 8 8 = n := ⟨_, rfl⟩
  rw [decodeBar, hf] at h
  obtain hn | ⟨m, rfl⟩ := lt_or_exists_eq_add n 6
  · interval_cases n
    exact .of_error h
    exact .of_coded h fun hz s hs => ⟨congrArg some ((word_hs_binit (by decide)).2
      ⟨rfl, hf, rfl, ((BarScope.named _).code_eq hs).symm, beq_iff_eq.1 hz, hm, hw⟩), rfl⟩
    iterate 2 exact .of_zero h fun h16 => ⟨congrArg some ((word_hs_n8 (by decide)).2 ⟨rfl, hf, h16, hm, hw⟩), rfl⟩
    exact .of_zero h fun h16 => ⟨congrArg some ((word_hs_dn8 (by decide)).2 ⟨rfl, hf, h16, rfl, hm, hw⟩), rfl⟩
    exact .of_zero h fun h16 => ⟨congrArg some ((word_hs_n8 (by decide)).2 ⟨rfl, hf, h16, hm, hw⟩), rfl⟩
  · exact .of_error h

theorem encodes_of_decodeQueue (hm : fld w 26 6 = 0x25) (h : decodeQueue w = .ok i) : Encodes w i := by
  obtain ⟨n, hf⟩ : ∃ n, fld w 8 8 = n := ⟨_, rfl⟩
  rw [decodeQueue, hf] at h
  obtain hn | ⟨m, rfl⟩ := lt_or_exists_eq_add n 3
  · interval_cases n
    exact .of_error h
    exact .of_zero h fun h20 => ⟨congrArg some ((word_hs_qpush (by decide)).2 ⟨rfl, hf, rfl, h20, rfl, hm, hw⟩), rfl⟩
    exact .of_zero h fun h16 => ⟨congrArg some ((word_hs_dn8 (by decide)).2 ⟨rfl, hf, h16, rfl, hm, hw⟩), rfl⟩
  · exact .of_error h

theorem encodes_of_decodeGroup (hm : fld w 26 6 = 0x26) (h : decodeGroup w = .ok i) : Encodes w i := by
  obtain ⟨n, hf⟩ : ∃ n, fld w 8 8 = n := ⟨_, rfl⟩
  rw [decodeGroup, hf] at h
  obtain hn | ⟨m, rfl⟩ := lt_or_exists_eq_add n 8
  · interval_cases n
    exact .of_error h
    iterate 2 exact .of_zero h fun h5 => ⟨congrArg some ((word_hs_dan (by decide)).2 ⟨rfl, h5, hf, rfl, rfl, hm, hw⟩), rfl⟩
    iterate 5 exact .of_zero h fun h0 => ⟨congrArg some ((word_hs_da (by decide)).2 ⟨h0, hf, rfl, rfl, hm, hw⟩), rfl⟩
  · exact .of_error h

theorem encodes_of_decodeBeacon (hm : fld w 26 6 = 0x27) (h : decodeBeacon w = .ok i) : Encodes w i := by
  obtain ⟨n, hf⟩ : ∃ n, fld w 8 8 = n := ⟨_, rfl⟩
  rw [decodeBeacon, hf] at h
  obtain hn | ⟨m, rfl⟩ := lt_or_exists_eq_add n 4
  · interval_cases n
    exact .of_error h
    exact .of_two_zeros h fun h5 h20 => ⟨congrArg some ((word_hs_bcst (by decide)).2 ⟨rfl, h5, hf, rfl, h20, hm, hw⟩), rfl⟩
    exact .of_two_zeros h fun h0 h16 => ⟨congrArg some ((word_hs (by decide)).2 ⟨h0, hf, h16, hm, hw⟩), rfl⟩
    exact .of_two_zeros h fun h0 h16 => ⟨congrArg some ((word_hs_d (by decide)).2 ⟨h0, hf, h16, rfl, hm, hw⟩), rfl⟩
  · exact .of_error h

theorem encodes_of_decodeSystem (hm : fld w 26 6 = 0x28) (h : decodeSystem w = .ok i) : Encodes w i := by
  obtain ⟨n, hf⟩ : ∃ n, fld w 8 8 = n := ⟨_, rfl⟩
  rw [decodeSystem, hf] at h
  obtain hn | ⟨m, rfl⟩ := lt_or_exists_eq_add n 65
  · interval_cases n
    exact .of_error h
    exact .of_coded h fun hz s hs => ⟨congrArg some ((word_hs_fence (by decide)).2 ⟨((Scope.named _).code_eq hs).symm,
      beq_iff_eq.1 (Bool.and_elim_left hz), hf, beq_iff_eq.1 (Bool.and_elim_right hz), hm, hw⟩), rfl⟩
    exact .of_two_zeros h fun h0 h16 => ⟨congrArg some ((word_hs (by decide)).2 ⟨h0, hf, h16, hm, hw⟩), rfl⟩
    exact .of_zero h fun h16 => ⟨congrArg some ((word_hs_n8 (by decide)).2 ⟨rfl, hf, h16, hm, hw⟩), rfl⟩
    exact .of_two_zeros h fun h0 h16 => ⟨congrArg some ((word_hs (by decide)).2 ⟨h0, hf, h16, hm, hw⟩), rfl⟩
    exact .of_two_zeros h fun h0 h21 => ⟨congrArg some ((word_hs_a (by decide)).2 ⟨h0, hf, rfl, h21, hm, hw⟩), rfl⟩
    iterate 10 exact .of_error h
    exact .of_coded h fun hz k hk =>
      ⟨congrArg some ((word_hs_dk (by decide)).2 ⟨((KReg.named _).code_eq hk).symm, hf, beq_iff_eq.1 hz, rfl, hm, hw⟩), rfl⟩
    exact .of_coded h fun hz k hk =>
      ⟨congrArg some ((word_hs_ak (by decide)).2 ⟨((KReg.named _).code_eq hk).symm, hf, rfl, beq_iff_eq.1 hz, hm, hw⟩), rfl⟩
    iterate 14 exact .of_error h
    · refine .of_two_zeros h fun h1 h21 => ?_
      split
      case isTrue h0 => exact ⟨congrArg some ((word_hs_tlbinv (by decide)).2 ⟨h0, h1, hf, rfl, h21, hm, hw⟩), rfl⟩
      case isFalse h0 =>
        exact ⟨congrArg some ((word_hs_tlbinv (by decide)).2
          ⟨(Nat.mod_two_eq_zero_or_one _).resolve_left h0, h1, hf, rfl, h21, hm, hw⟩), rfl⟩
    exact .of_two_zeros h fun h0 h16 => ⟨congrArg some ((word_hs (by decide)).2 ⟨h0, hf, h16, hm, hw⟩), rfl⟩
    iterate 14 exact .of_error h
    iterate 3 exact .of_zero h fun h0 => ⟨congrArg some ((word_hs_da (by decide)).2 ⟨h0, hf, rfl, rfl, hm, hw⟩), rfl⟩
    iterate 13 exact .of_error h
    · refine .of_coded h fun hz m hm' => ?_
      simp only [Bool.and_eq_true, beq_iff_eq] at hz
      obtain ⟨⟨h5, h20⟩, h22⟩ := hz
      have h18 := ((LdiscMode.named _).code_eq hm').symm
      exact ⟨congrArg some ((word_hs_ldisc (by decide)).2 ⟨rfl, h5, hf, rfl, h20, h18, h22, hm, hw⟩), rfl⟩
  · exact .of_error h

/-- Every 32-bit word that decodes is the word of what it decodes to, which is well-formed. -/
theorem encodes_of_decodeHelm (h : decodeHelm w = .ok i) : Encodes w i := by
  obtain ⟨n, hm⟩ : ∃ n, fld w 26 6 = n := ⟨_, rfl⟩
  rw [decodeHelm, hm] at h
  obtain hn | ⟨m, rfl⟩ := lt_or_exists_eq_add n 41
  · interval_cases n
    exact .of_error h
    exact encodes_of_decodeAlu hw hm h
    exact encodes_of_decodeBits hw hm h
    exact encodes_of_decodeMul hw hm h
    iterate 6 exact .of_ok h ⟨congrArg some ((word_hi_dai (by decide)).2 ⟨rfl, rfl, rfl, hm, hw⟩), rfl⟩
    exact .of_zero h fun h16 => ⟨congrArg some ((word_hi_di (by decide)).2 ⟨rfl, h16, rfl, hm, hw⟩), rfl⟩
    iterate 3 exact .of_zero h fun h6 => ⟨congrArg some ((word_hi_dan (by decide)).2 ⟨rfl, h6, rfl, rfl, hm, hw⟩), rfl⟩
    iterate 2
      refine .of_field h fun h12 hfit =>
        ⟨congrArg some ((word_hi_dapl (by decide)).2 ⟨rfl, rfl, h12, rfl, rfl, hm, hw⟩), decide_eq_true ?_⟩
      rwa [← imm6_iff.1 rfl, ← imm6_iff.1 rfl]
    iterate 6 exact .of_ok h ⟨congrArg some ((word_hi_dai (by decide)).2 ⟨rfl, rfl, rfl, hm, hw⟩), rfl⟩
    iterate 2 exact .of_ok h ⟨congrArg some ((word_hj (by decide)).2 ⟨rfl, hm, hw⟩), rfl⟩
    exact encodes_of_decodeJump hw hm h
    · cases ht : LoadType.ofCode (fld w 22 4) with
      | none => rw [ht] at h; exact .of_error h
      | some t =>
        rw [ht] at h
        have h22 := ((LoadType.named _).code_eq ht).symm
        exact .of_ok h ⟨congrArg some ((word_hc_tbai (by decide)).2 ⟨rfl, rfl, rfl, h22, hm, hw⟩), rfl⟩
    · cases ht : StoreType.ofCode (fld w 22 4) with
      | none => rw [ht] at h; exact .of_error h
      | some t =>
        rw [ht] at h
        have h22 := ((StoreType.named _).code_eq ht).symm
        exact .of_ok h ⟨congrArg some ((word_hc_ubai (by decide)).2 ⟨rfl, rfl, rfl, h22, hm, hw⟩), rfl⟩
    iterate 2 exact .of_zero h fun h13 => ⟨congrArg some ((word_hc_dai (by decide)).2 ⟨rfl, h13, rfl, rfl, hm, hw⟩), rfl⟩
    exact encodes_of_decodeAmo hw hm h
    exact encodes_of_decodeCap hw hm h
    iterate 2 exact .of_zero h fun h13 => ⟨congrArg some ((word_hc_dai (by decide)).2 ⟨rfl, h13, rfl, rfl, hm, hw⟩), rfl⟩
    exact encodes_of_decodeStream hw hm h
    exact encodes_of_decodeChan hw hm h
    exact encodes_of_decodeEngine hw hm h
    exact encodes_of_decodeBar hw hm h
    exact encodes_of_decodeQueue hw hm h
    exact encodes_of_decodeGroup hw hm h
    exact encodes_of_decodeBeacon hw hm h
    exact encodes_of_decodeSystem hw hm h
  · exact .of_error h

end

/-! ## Element words and matrix control tokens (R46, R51, R59, R60) -/

theorem ofNat8_fld_iff {w lo : Nat} {v : Fin 8} : Fin.ofNat 8 (fld w lo 3) = v ↔ fld w lo 3 = v.val := by
  rw [Fin.ext_iff]
  exact Eq.congr_left (Nat.mod_eq_of_lt (fld_lt w lo 3))

theorem fld_beq_one_iff {w lo : Nat} {b : Bool} : (fld w lo 1 == 1) = b ↔ fld w lo 1 = b.toNat := by
  have h : fld w lo 1 < 2 := fld_lt w lo 1
  cases b
  · rw [beq_eq_false_iff_ne]
    exact ⟨fun hne => by rw [Bool.toNat_false]; omega, fun h0 => by rw [h0]; decide⟩
  · exact beq_iff_eq

/-- An element word by its opcode and its fields (R46). -/
theorem word_elem {op w : Nat} {a : ElemArgs} (hop : op < 2 ^ 8) :
    op * 16777216 + a.bits = w ↔ elemArgs w = a ∧ fld w 24 8 = op ∧ w < 2 ^ 32 := by
  obtain ⟨fsel, rep, cx, cy⟩ := a
  refine (sum_eq_iff (N := 32) (l := [(0, 9, cy.toNat), (9, 9, cx.toNat), (18, 3, rep.val), (21, 3, fsel.val), (24, 8, op)])
    (by simp +arith [pack, ElemArgs.bits]) ⟨rfl, cy.isLt, rfl, cx.isLt, rfl, rep.isLt, rfl, fsel.isLt, rfl, hop, rfl⟩).trans ?_
  simp only [Reads, elemArgs, ElemArgs.mk.injEq, ofNat8_fld_iff, ofNat_fld_iff]
  exact ⟨fun ⟨hcy, hcx, hrep, hfsel, h⟩ => ⟨⟨hfsel, hrep, hcx, hcy⟩, h⟩,
    fun ⟨⟨hfsel, hrep, hcx, hcy⟩, h⟩ => ⟨hcy, hcx, hrep, hfsel, h⟩⟩

/-- A control token by its OP and its fields (R59). -/
theorem word_mat {op w : Nat} {a : MatArgs} (hop : op < 2 ^ 8) :
    op + a.bits = w ↔ fld w 0 8 = op ∧ matArgs w = a ∧ fld w 40 24 = 0 ∧ w < 2 ^ 64 := by
  obtain ⟨m, n, k, buf, acc, chain, bt, dcvt⟩ := a
  refine (sum_eq_iff (N := 64) (l := [(0, 8, op), (8, 8, m.toNat), (16, 8, n.toNat), (24, 8, k.toNat), (32, 2, buf.toNat),
    (34, 1, acc.toNat), (35, 1, chain.toNat), (36, 1, bt.toNat), (37, 3, dcvt.toNat), (40, 24, 0)])
    (by simp +arith [pack, MatArgs.bits]) ⟨rfl, hop, rfl, m.isLt, rfl, n.isLt, rfl, k.isLt, rfl, buf.isLt, rfl, acc.toNat_lt, rfl,
      chain.toNat_lt, rfl, bt.toNat_lt, rfl, dcvt.isLt, rfl, by decide, rfl⟩).trans ?_
  simp only [Reads, matArgs, MatArgs.mk.injEq, ofNat_fld_iff, fld_beq_one_iff, and_assoc]

/-- An operation with a code is the one that the code names. -/
def Coded {α : Type} (op : Nat → α → Option Instr) (i : Instr) : Option (Nat × α) → Prop
  | some (c, a) => op c a = some i
  | none => True

theorem Coded.op_eq {α : Type} {op : Nat → α → Option Instr} {i : Instr} {v : Option (Nat × α)} {c : Nat} {a : α}
    (h : Coded op i v) (hv : v = some (c, a)) : op c a = some i := by
  rwa [hv] at h

theorem elemCode_coded (i : Instr) : Coded elemOp i (elemCode i) := by
  cases i <;> constructor

theorem matCode_coded (i : Instr) : Coded matOp i (matCode i) := by
  cases i <;> constructor

theorem elemOp_lt {op : Nat} {a : ElemArgs} {i : Instr} (h : elemOp op a = some i) : op < 208 := by
  obtain hop | ⟨m, rfl⟩ := lt_or_exists_eq_add op 208
  · exact hop
  · cases h

theorem matOp_lt {op : Nat} {a : MatArgs} {i : Instr} (h : matOp op a = some i) : op < 27 := by
  obtain hop | ⟨m, rfl⟩ := lt_or_exists_eq_add op 27
  · exact hop
  · cases h

/-- Sixteen opcodes at a time: an opcode names no operation, or one that has it. -/
theorem elemOp_rows {k : Nat} (hk : k < 13) (a : ElemArgs) :
    (List.range' (16 * k) 16).map (fun op => (elemOp op a).elim (some (op, a)) elemCode) =
      (List.range' (16 * k) 16).map fun op => some (op, a) := by
  interval_cases k <;> rfl

theorem elemCode_of_elemOp {op : Nat} {a : ElemArgs} {i : Instr} (h : elemOp op a = some i) : elemCode i = some (op, a) := by
  have hop := elemOp_lt h
  have hrow := List.map_inj_left.1 (elemOp_rows (k := op / 16) (by omega) a) op (List.mem_range'_1.2 (by omega))
  rwa [h] at hrow

theorem matOp_rows (a : MatArgs) :
    (List.range 27).map (fun op => (matOp op a).elim (some (op, a)) matCode) = (List.range 27).map fun op => some (op, a) := rfl

theorem matCode_of_matOp {op : Nat} {a : MatArgs} {i : Instr} (h : matOp op a = some i) : matCode i = some (op, a) := by
  have hrow := List.map_inj_left.1 (matOp_rows a) op (List.mem_range.2 (matOp_lt h))
  rwa [h] at hrow

theorem decodeElem_encodeElem {i : Instr} {w : Nat} (h : encodeElem i = some w) : decodeElem w = .ok i := by
  rw [encodeElem, Option.map_eq_some_iff] at h
  obtain ⟨⟨op, a⟩, hcode, hw⟩ := h
  have hi := (elemCode_coded i).op_eq hcode
  have hop := elemOp_lt hi
  obtain ⟨ha, hf, -⟩ := (word_elem (Nat.lt_trans hop (by decide))).1 hw
  have hnop : w ≠ 0xFF03FFFF := by
    rintro rfl
    exact absurd hf (Nat.ne_of_gt (Nat.lt_trans hop (by decide)))
  rw [decodeElem, if_neg hnop, hf, if_neg (Nat.ne_of_lt (Nat.lt_trans hop (by decide))), ha, hi]

theorem encodeElem_decodeElem {i : Instr} {w : Nat} (hw : w < 2 ^ 32) (h : decodeElem w = .ok i) : encodeElem i = some w := by
  rw [decodeElem] at h
  split_ifs at h
  cases hi : elemOp (fld w 24 8) (elemArgs w) with
  | none => simp [hi] at h
  | some j =>
    simp only [hi, Except.ok.injEq] at h
    rw [encodeElem, elemCode_of_elemOp (h ▸ hi), Option.map_some,
      (word_elem (fld_lt w 24 8)).2 ⟨rfl, rfl, hw⟩]

theorem decodeMatrix_encodeMatrix {i : Instr} {w : Nat} (h : encodeMatrix i = some w) : decodeMatrix w = .ok i := by
  rw [encodeMatrix, Option.map_eq_some_iff] at h
  obtain ⟨⟨op, a⟩, hcode, hw⟩ := h
  have hi := (matCode_coded i).op_eq hcode
  obtain ⟨hf, ha, hr, -⟩ := (word_mat (Nat.lt_trans (matOp_lt hi) (by decide))).1 hw
  rw [decodeMatrix, hr, if_neg (by decide), hf, ha, hi]

theorem encodeMatrix_decodeMatrix {i : Instr} {w : Nat} (hw : w < 2 ^ 64) (h : decodeMatrix w = .ok i) :
    encodeMatrix i = some w := by
  rw [decodeMatrix] at h
  split_ifs at h with h0
  cases hi : matOp (fld w 0 8) (matArgs w) with
  | none => simp [hi] at h
  | some j =>
    simp only [hi, Except.ok.injEq] at h
    rw [encodeMatrix, matCode_of_matOp (h ▸ hi), Option.map_some,
      (word_mat (fld_lt w 0 8)).2 ⟨rfl, rfl, not_not.1 h0, hw⟩]

end Sys2Proof

namespace Sys2Proof.Claims
open Sys2Proof
set_option Elab.async false

/-- Settles O58: a helm word by its format and its row, an element word and a matrix token by their opcode and fields. -/
theorem decodeEncode : Obligations.DecodeEncode :=
  ⟨fun _ _ => decodeHelm_encodeHelm, fun _ _ hw h => encodes_of_decodeHelm hw h, fun _ _ => decodeElem_encodeElem,
    fun _ _ => encodeElem_decodeElem, fun _ _ => decodeMatrix_encodeMatrix, fun _ _ => encodeMatrix_decodeMatrix⟩

/-- Settles O57, by running the decoders. -/
theorem decodingRight : Obligations.DecodingRight := by
  unfold Obligations.DecodingRight
  refine ⟨?_, ?_, ?_, ?_, ?_, ?_, ?_, ?_, ?_, ?_, rfl, rfl, ?_⟩ <;> decide

end Sys2Proof.Claims

/-! ## Instructions a control core does not run, and levels (R37, R43, R207) -/

namespace Sys2Proof.Claims
open Sys2Proof Sys2Proof.Machine
set_option Elab.async false

section
variable {s : State} {i : Instr} {w : Nat}

theorem illegal_of_encodeHelm (h : encodeHelm i = some w) : s.illegal i = s.trap 1 0 (BitVec.ofNat 64 w) := by
  rw [State.illegal, h]; rfl

theorem privilege_of_encodeHelm (h : encodeHelm i = some w) : s.privilege i = s.trap 2 0 (BitVec.ofNat 64 w) := by
  rw [State.privilege, h]; rfl

theorem low_of_priv_lt (h : s.th.priv.toNat < 1) : s.low = true := by
  rw [State.low, beq_iff_eq, ← BitVec.toNat_inj]; exact Nat.lt_one_iff.1 h

theorem belowH_of_priv_lt (h : s.th.priv.toNat < 2) : s.belowH = true := by
  simp [State.belowH, h]

theorem kLevels_eq (k : KReg) : kLevels k = (State.readLevel k, State.writeLevel k) := by
  cases k <;> rfl

theorem levelOf_mfk (d : Reg) (k : KReg) : levelOf (.mfk d k) = State.readLevel k := congrArg Prod.fst (kLevels_eq k)

theorem levelOf_mtk (a : Reg) (k : KReg) : levelOf (.mtk a k) = State.writeLevel k := congrArg Prod.snd (kLevels_eq k)

/-- Each meaning asks first whether it is on a control core (R43). -/
theorem exec_of_tileOnly (hcore : s.onCore = true) (hi : tileOnlyInstr i) : exec i s = .next (s.illegal i) := by
  cases i
  case sload | sseed | ssend | srecv | sdrain | sbar | egather | ecoll | binit | barv | bwait | btest | barvw | bcst | bcfence =>
    exact congrArg _ (if_pos hcore)
  all_goals exact False.elim hi

/-- Each meaning asks first for its level: the group commands and those at G whether the thread is at U, those at H whether it is
below H, MFK and MTK by the register (R207, R209). -/
theorem exec_of_priv_lt_levelOf (h : s.th.priv.toNat < levelOf i) : exec i s = .next (s.privilege i) := by
  cases i
  case gplace | gmove | gcut | gfreeze | gevict | gresume | tret | tlbinvStage1 | tlbsync =>
    exact congrArg _ (if_pos (low_of_priv_lt h))
  case tlbinvStage2 | cxstat | cxquiesce | cxresume => exact congrArg _ (if_pos (belowH_of_priv_lt h))
  case mfk d k => exact congrArg _ (if_pos (h.trans_eq (levelOf_mfk d k)))
  case mtk a k => exact congrArg _ (if_pos (h.trans_eq (levelOf_mtk a k)))
  all_goals exact absurd h (Nat.not_lt_zero _)

end

/-- Settles O25: the meanings ask for the place and the level before anything else, and the trap's value is the word. -/
theorem illegalAndPrivileged : Obligations.IllegalAndPrivileged := by
  unfold Obligations.IllegalAndPrivileged
  refine fun s i w hw => ⟨fun hcore hi => ?_, fun h => ?_⟩
  · rw [exec_of_tileOnly hcore hi, illegal_of_encodeHelm hw]
  · rw [exec_of_priv_lt_levelOf h, privilege_of_encodeHelm hw]

end Sys2Proof.Claims

/-! # O42: the matrix control tokens and the buffer operations -/

namespace Sys2Proof.Claims
open Sys2Proof Sys2Proof.Machine

-- Proofs elaborated side by side, each in a thread of its own, would need more memory than the check leaves.
set_option Elab.async false

/-! ## What a step leaves alone: turns posted, counters of the acting group (R102, R201)

`Posts`: only turns were added to the agenda. `Quiet`: no tile differs, and of the rest only what `nothingElse` names. -/

/-- t is s with turns added to the agenda. -/
def Posts (s t : State) : Prop := ∃ l, t = { s with agenda := s.agenda ++ l }

namespace Posts

theorem refl (s : State) : Posts s s := ⟨[], by simp⟩

theorem trans {s t u : State} (h : Posts s t) (k : Posts t u) : Posts s u := by
  obtain ⟨l, rfl⟩ := h
  obtain ⟨l', rfl⟩ := k
  exact ⟨l ++ l', by simp⟩

theorem foldl {α : Type} {f : State → α → State} (hf : ∀ s a, Posts s (f s a)) (l : List α) (s : State) :
    Posts s (l.foldl f s) := by
  induction l generalizing s with
  | nil => exact refl s
  | cons a l ih => exact (hf s a).trans (ih _)

theorem post (s : State) (i : Instr) : Posts s (s.post i) := ⟨[.event i], rfl⟩

theorem postOnce (s : State) (i : Instr) : Posts s (s.postOnce i) := by
  unfold State.postOnce
  split
  · exact refl s
  · exact post s i

theorem wakeRegion (s : State) (g r : Nat) : Posts s (s.wakeRegion g r) := by
  unfold State.wakeRegion
  split
  · exact postOnce ..
  · exact refl s

theorem wake (s : State) (p n : Nat) : Posts s (s.wake p n) := by
  unfold State.wake
  dsimp only
  split_ifs
  · exact refl s
  · exact refl s
  · exact ⟨_, rfl⟩
  · exact wakeRegion ..

theorem nudge (s : State) (h : Nat) : Posts s (s.nudge h) := by
  refine foldl (fun s t => foldl (fun s c => ?_) _ s) _ s
  refine Posts.trans ?_ (wake ..)
  refine Posts.trans ?_ (foldl (fun s o => ?_) _ _)
  · split <;> split
    · exact refl s
    · exact postOnce ..
    · exact postOnce ..
    · exact (postOnce ..).trans (postOnce ..)
  · split
    · exact postOnce ..
    · exact refl s

theorem freeRoom (s : State) (l : List Arrived) : Posts s (s.freeRoom l) := by
  unfold State.freeRoom
  split
  · exact nudge ..
  · exact refl s

end Posts

theorem groupsKept_refl (s : State) : groupsKept s s := fun _ => ⟨_, _, _, _, rfl, fun _ => rfl⟩

theorem groupsKept_of_groups {s t : State} (h : t.groups = s.groups) : groupsKept s t := by
  intro g
  have hg : t.group g = s.group g := by rw [State.group, h]; rfl
  exact ⟨_, _, _, _, hg, fun _ => hg⟩

theorem groupsKept_trans {s t u : State} (hh : t.handleOf t.curTile = s.handleOf s.curTile) (h : groupsKept s t)
    (k : groupsKept t u) : groupsKept s u := by
  intro g
  obtain ⟨e, r, l, a, ht, hs⟩ := h g
  obtain ⟨e', r', l', a', hu, ht'⟩ := k g
  refine ⟨e', r', l', a', by rw [hu, ht], fun hg => ?_⟩
  rw [ht' (by rwa [hh]), hs hg]

/-- The group of the acting tile set, its counters alone differing. -/
theorem groupsKept_setGroup (s : State) {x : Group} {e r l a}
    (hx : x = { s.group (s.handleOf s.curTile) with gerr := e, errRaised := r, lastMove := l, actors := a }) :
    groupsKept s (s.setGroup (s.handleOf s.curTile) x) := by
  intro g
  by_cases hg : g = s.handleOf s.curTile
  · subst hg
    exact ⟨e, r, l, a, by rw [State.group, State.setGroup, look_put_same, hx], fun h => absurd rfl h⟩
  · have : (s.setGroup (s.handleOf s.curTile) x).group g = s.group g := look_put_other _ _ _ hg
    exact ⟨_, _, _, _, this, fun _ => this⟩

theorem nothingElse_refl (s : State) : nothingElse s s :=
  ⟨groupsKept_refl s, List.prefix_rfl, List.prefix_rfl, rfl⟩

theorem curTile_of_nothingElse {s t : State} (h : nothingElse s t) : t.curTile = s.curTile := by
  obtain ⟨-, -, -, h⟩ := h
  have := congrArg State.curTile h
  exact this

theorem nothingElse_trans {s t u : State} (hh : t.handleOf t.curTile = s.handleOf s.curTile) (h : nothingElse s t)
    (k : nothingElse t u) : nothingElse s u := by
  obtain ⟨hg, ha, hr, he⟩ := h
  obtain ⟨kg, ka, kr, ke⟩ := k
  refine ⟨groupsKept_trans hh hg kg, ha.trans ka, hr.trans kr, ?_⟩
  calc { u with tiles := s.tiles, groups := s.groups, agenda := s.agenda, raised := s.raised, ids := s.ids }
      = { { u with tiles := t.tiles, groups := t.groups, agenda := t.agenda, raised := t.raised, ids := t.ids } with
          tiles := s.tiles, groups := s.groups, agenda := s.agenda, raised := s.raised, ids := s.ids } := rfl
    _ = s := by rw [ke, he]

/-- No tile differs, and of the rest only what `nothingElse` names. -/
def Quiet (s t : State) : Prop := t.tiles = s.tiles ∧ nothingElse s t

namespace Quiet

theorem tile {s t : State} (h : Quiet s t) (p : Nat) : t.tile p = s.tile p := by rw [State.tile, h.1]; rfl

theorem curTile {s t : State} (h : Quiet s t) : t.curTile = s.curTile := curTile_of_nothingElse h.2

theorem handleOf {s t : State} (h : Quiet s t) (p : Nat) : t.handleOf p = s.handleOf p := by
  rw [State.handleOf, h.tile]; rfl

theorem refl (s : State) : Quiet s s := ⟨rfl, nothingElse_refl s⟩

theorem trans {s t u : State} (h : Quiet s t) (k : Quiet t u) : Quiet s u :=
  ⟨k.1.trans h.1, nothingElse_trans (by rw [h.curTile, h.handleOf]) h.2 k.2⟩

theorem of_posts {s t : State} (h : Posts s t) : Quiet s t := by
  obtain ⟨l, rfl⟩ := h
  exact ⟨rfl, groupsKept_of_groups rfl, List.prefix_append .., List.prefix_rfl, rfl⟩

theorem setGroup (s : State) {x : Group} {e r l a}
    (hx : x = { s.group (s.handleOf s.curTile) with gerr := e, errRaised := r, lastMove := l, actors := a }) :
    Quiet s (s.setGroup (s.handleOf s.curTile) x) :=
  ⟨rfl, groupsKept_setGroup s hx, List.prefix_rfl, List.prefix_rfl, rfl⟩

theorem raise (s : State) (r : Record) : Quiet s (s.raise r) :=
  ⟨rfl, groupsKept_of_groups rfl, List.prefix_append .., List.prefix_append .., rfl⟩

theorem moved (s : State) : Quiet s (s.moved s.curTile) := by
  unfold State.moved
  dsimp only
  split
  · exact refl s
  · exact setGroup s rfl

theorem countTaken (s : State) (r q : Nat) : Quiet s (s.countTaken (s.handleOf s.curTile) r q) := by
  unfold State.countTaken
  dsimp only
  split
  · exact refl s
  · exact (setGroup s rfl).trans (of_posts (.wakeRegion ..))

theorem countError (s : State) : Quiet s (s.countError (s.handleOf s.curTile)) := by
  unfold State.countError
  dsimp only
  split
  · exact refl s
  · split
    · exact setGroup s rfl
    · exact (setGroup s rfl).trans (raise ..)

/-- The beats that an operand stream or a token gives count as taken (R102). -/
theorem foldl_countTaken (s : State) (q h : Nat) (hh : s.handleOf s.curTile = h) (l : List Arrived) :
    Quiet s (l.foldl (fun a b => a.countTaken h b.region q) s) := by
  induction l generalizing s with
  | nil => exact refl s
  | cons b l ih =>
    have hq : Quiet s (s.countTaken h b.region q) := hh ▸ countTaken s b.region q
    exact hq.trans (ih _ (by rw [hq.curTile, hq.handleOf, hh]))

end Quiet

/-! ## The matrix node's own moves (R61, R73, R102, R195, R201)

`NodeGoes s t x m`: of tiles and slots only the matrix node of the acting tile differs, and it stands as x and m. -/

/-- From s to t only the node moves, to slot x and state m. -/
def NodeGoes (s t : State) (x : Slot) (m : Matrix) : Prop := onlyNode s t ∧ t.xs = x ∧ t.mat = m

theorem tile_setTile (s : State) (p : Nat) (y : Tile) (q : Nat) : (s.setTile p y).tile q = if q = p then y else s.tile q := by
  unfold State.tile State.setTile
  split
  · next h => rw [h, look_put_same]
  · next h => exact look_put_other _ _ _ h

theorem tile_setTile_same (s : State) (p : Nat) (y : Tile) : (s.setTile p y).tile p = y := look_put_same ..

theorem nothingElse_setTile (s : State) (p : Nat) (y : Tile) : nothingElse s (s.setTile p y) :=
  ⟨groupsKept_of_groups rfl, List.prefix_rfl, List.prefix_rfl, rfl⟩

theorem handleOf_of_onlyNode {s t : State} (h : onlyNode s t) : t.handleOf t.curTile = s.handleOf s.curTile := by
  obtain ⟨-, he, ht, -⟩ := h
  rw [curTile_of_nothingElse he]
  have := congrArg (fun y : Tile => y.group.getD 0) (ht s.curTile)
  exact this

theorem onlyNode_refl (s : State) : onlyNode s s :=
  ⟨fun _ _ _ => rfl, nothingElse_refl s, fun _ => rfl, fun _ _ => rfl⟩

theorem onlyNode_trans {s t u : State} (h : onlyNode s t) (k : onlyNode t u) : onlyNode s u := by
  have hh := handleOf_of_onlyNode h
  obtain ⟨hs, he, ht, hm⟩ := h
  obtain ⟨ks, ke, kt, km⟩ := k
  have hc := curTile_of_nothingElse he
  rw [hc] at ks km
  exact ⟨fun p n hp => (ks p n hp).trans (hs p n hp), nothingElse_trans hh he ke, fun p => (kt p).trans (ht p),
    fun p hp => (km p hp).trans (hm p hp)⟩

theorem onlyNode_of_quiet {s t : State} (h : Quiet s t) : onlyNode s t :=
  ⟨fun p n _ => by rw [State.slot, h.tile]; rfl, h.2, fun p => by rw [h.tile], fun p _ => by rw [h.tile]⟩

namespace NodeGoes

variable {s t u : State} {x y : Slot} {m k : Matrix}

theorem refl (s : State) : NodeGoes s s s.xs s.mat := ⟨onlyNode_refl s, rfl, rfl⟩

theorem trans (h : NodeGoes s t x m) (k' : NodeGoes t u y k) : NodeGoes s u y k := ⟨onlyNode_trans h.1 k'.1, k'.2⟩

theorem only (h : NodeGoes s t x m) : onlyNode s t := h.1

theorem slot_eq (h : NodeGoes s t x m) : t.xs = x := h.2.1

theorem mat_eq (h : NodeGoes s t x m) : t.mat = m := h.2.2

theorem curTile (h : NodeGoes s t x m) : t.curTile = s.curTile := by
  obtain ⟨⟨-, he, -⟩, -⟩ := h
  exact curTile_of_nothingElse he

theorem handleOf (h : NodeGoes s t x m) : t.handleOf s.curTile = s.handleOf s.curTile := by
  rw [← handleOf_of_onlyNode h.only, h.curTile]

theorem of_quiet (h : Quiet s t) : NodeGoes s t s.xs s.mat :=
  ⟨onlyNode_of_quiet h, by rw [State.xs, State.slot, h.curTile, h.tile]; rfl, by rw [State.mat, h.curTile, h.tile]; rfl⟩

theorem quiet (h : NodeGoes s t x m) (q : Quiet t u) : NodeGoes s u x m := by
  obtain ⟨-, rfl, rfl⟩ := id h
  exact h.trans (of_quiet q)

theorem setSlot (s : State) (x : Slot) : NodeGoes s (s.setSlot s.curTile 56 x) x s.mat := by
  refine ⟨⟨fun p n hp => ?_, nothingElse_setTile .., fun p => ?_, fun p hp => ?_⟩, ?_, ?_⟩
  · rw [State.setSlot, State.slot, tile_setTile]
    split
    · next h => exact h ▸ look_put_other _ _ _ (hp.resolve_left (absurd h))
    · rfl
  · rw [State.setSlot, tile_setTile]
    split
    · next h => rw [h]
    · rfl
  · rw [State.setSlot, tile_setTile, if_neg hp]
  · rw [State.xs, State.setSlot_curTile, State.slot, State.setSlot, tile_setTile_same, look_put_same]
  · rw [State.mat, State.setSlot_curTile, State.setSlot, tile_setTile_same]; rfl

theorem setMat (s : State) (m : Matrix) : NodeGoes s (s.setMat m) s.xs m := by
  refine ⟨⟨fun p n hp => ?_, nothingElse_setTile .., fun p => ?_, fun p hp => ?_⟩, ?_, ?_⟩
  · rw [State.setMat, State.slot, tile_setTile]
    split
    · next h => rw [h]; rfl
    · rfl
  · rw [State.setMat, tile_setTile]
    split
    · next h => rw [h]
    · rfl
  · rw [State.setMat, tile_setTile, if_neg hp]
  · rw [State.xs, State.setMat, State.setTile_curTile, State.slot, tile_setTile_same]; rfl
  · rw [State.mat, State.setMat, State.setTile_curTile, tile_setTile_same]

theorem ite {c : Prop} [Decidable c] (h : NodeGoes s t x m) (h' : NodeGoes s u x m) : NodeGoes s (if c then t else u) x m := by
  split
  · exact h
  · exact h'

theorem moved (h : NodeGoes s t x m) : NodeGoes s (t.moved s.curTile) x m := h.curTile ▸ h.quiet (Quiet.moved t)

theorem then_setMat (h : NodeGoes s t x m) : NodeGoes s (t.setMat k) x k := by
  obtain ⟨-, rfl, rfl⟩ := id h
  exact h.trans (setMat t k)

/-- Beats of a port taken: k from its head. -/
theorem takeFrom (s : State) (o k : Nat) (hk : k ≠ 0) :
    NodeGoes s (s.takeFrom s.curTile 56 o k) (s.xs.setPort o ((s.xs.port o).drop k)) s.mat := by
  have h1 := setSlot s (s.xs.setPort o ((s.xs.port o).drop k))
  have h2 := h1.quiet (Quiet.foldl_countTaken _ s.xs.region _ h1.handleOf ((s.xs.port o).take k))
  rw [State.takeFrom, if_neg hk]
  dsimp only
  refine moved ?_
  have h3 := (h2.quiet (.of_posts (.nudge _ (s.handleOf s.curTile)))).ite (c := portRoom ≤ (s.xs.port o).length) h2
  split
  · exact (h3.quiet (.of_posts (.postOnce ..))).ite h3
  · exact h3

/-- The head token leaves P (R61). -/
theorem popToken (s : State) : NodeGoes s s.popToken { s.xs with portP := s.xs.portP.drop 1 }
    { s.mat with accepted := false, opened := false, left := none } := by
  have h := setMat s { s.mat with accepted := false, opened := false, left := none }
  have k := takeFrom (s.setMat { s.mat with accepted := false, opened := false, left := none }) 3 1 one_ne_zero
  obtain ⟨-, hx, hm⟩ := id h
  rw [hx, hm] at k
  exact h.trans k

theorem emitNow (h : NodeGoes s t x m) (d : BitVec 9) (b : Beat) :
    NodeGoes s (t.emitNow s.curTile 56 d b) { x with out := x.out ++ sent d [b] } m := by
  obtain ⟨-, rfl, rfl⟩ := id h
  have hn : d = noConsumer ↔ d = 0x1FF := Iff.rfl
  unfold State.emitNow sent
  split
  · next hd =>
    rw [if_pos (hn.1 hd), List.append_nil]
    exact h
  · next hd =>
    rw [if_neg (mt hn.2 hd)]
    rw [← h.curTile]
    exact h.trans ((setSlot t _).quiet (.of_posts (.postOnce ..))).moved

end NodeGoes

theorem sent_nil (d : BitVec 9) : sent d [] = [] := ite_self _

theorem sent_append (d : BitVec 9) (bs cs : List Beat) : sent d (bs ++ cs) = sent d bs ++ sent d cs := by
  unfold sent
  split
  · rfl
  · exact List.map_append

namespace NodeGoes

variable {s t u : State} {x y : Slot} {m k : Matrix}

/-- Beats sent on CX stand in the result queue (R47). -/
theorem emitAll (h : NodeGoes s t x m) (d : BitVec 9) (bs : List Beat) :
    NodeGoes s (t.emitAll s.curTile 56 d bs) { x with out := x.out ++ sent d bs } m := by
  induction bs generalizing t x with
  | nil =>
    rw [sent_nil, List.append_nil]
    exact h
  | cons b bs ih =>
    have := ih (h.emitNow d b)
    rw [List.append_assoc, ← sent_append] at this
    exact this

theorem xOut (h : NodeGoes s t x m) (bs : List Beat) :
    NodeGoes s (t.xOut bs) { x with out := x.out ++ sent x.cx bs } m := by
  obtain ⟨-, rfl, rfl⟩ := id h
  have := h.emitAll t.xs.cx bs
  rwa [← h.curTile] at this

end NodeGoes

/-- The node's state with one error more (R201). -/
def errsUp (m : Matrix) : Matrix := { m with errs := if m.errs = 0xFFFFFFFF then m.errs else m.errs + 1 }

namespace NodeGoes

variable {s t u : State} {x y : Slot} {m k : Matrix}

theorem xErrors (h : NodeGoes s t x m) : NodeGoes s (t.xErrors 1) x (errsUp m) := by
  obtain ⟨-, rfl, rfl⟩ := id h
  have k : NodeGoes t (t.setMat (errsUp t.mat)) _ _ := setMat ..
  refine h.trans (k.quiet ?_)
  have := Quiet.countError (t.setMat (errsUp t.mat))
  rwa [State.setMat, State.setTile_curTile, ← State.setMat, k.handleOf] at this

/-- A rejected token leaves P, a poisoned SOLO goes out, and an error is counted unless the token was poisoned (R61). -/
theorem rejectToken (s : State) (poi : Bool) : NodeGoes s (s.rejectToken poi)
    { s.xs with portP := s.xs.portP.drop 1, out := s.xs.out ++ sent s.xs.cx [badSolo] }
    { s.mat with accepted := false, opened := false, left := none,
                 errs := if poi = true ∨ s.mat.errs = 0xFFFFFFFF then s.mat.errs else s.mat.errs + 1 } := by
  have h := (popToken s).xOut [poisonSolo]
  unfold State.rejectToken
  cases poi with
  | true =>
    rw [if_pos (Or.inl rfl)]
    exact h
  | false =>
    simp only [Bool.false_eq_true, false_or, if_false]
    exact h.xErrors

end NodeGoes

/-- A move in which the head token leaves P and the buffers stand. -/
theorem tokenDone_of_goes {s t : State} {x : Slot} {m : Matrix} (h : NodeGoes s t x m) (hp : x.portP = s.xs.portP.drop 1)
    (hx : { x with portA := s.xs.portA, portB := s.xs.portB, portC := s.xs.portC, portP := s.xs.portP, out := s.xs.out,
                   gens := s.xs.gens } = s.xs)
    (hm : { m with store := s.mat.store, errs := s.mat.errs, committed := s.mat.committed, work := s.mat.work, left := s.mat.left } =
      { s.mat with accepted := false, opened := false }) : tokenDone s t := by
  obtain ⟨ho, rfl, rfl⟩ := h
  have ha := congrArg Matrix.accepted hm
  have hb := congrArg Matrix.opened hm
  have h0 := congrArg Matrix.buf0 hm
  have h1 := congrArg Matrix.buf1 hm
  have m0 := congrArg Matrix.marks0 hm
  have m1 := congrArg Matrix.marks1 hm
  exact ⟨ho, hp, hb, ha, hx, h0, h1, m0, m1⟩

theorem setPort_port (x : Slot) (o : Nat) : x.setPort o (x.port o) = x := by
  match o with
  | 0 | 1 | 2 | _ + 3 => rfl

namespace NodeGoes

variable {s t u : State} {x y : Slot} {m k : Matrix}

/-- A port that nothing stands in front of opens as it is (R190). -/
theorem openPort (h : NodeGoes s t x m) (o : Nat) (hb : State.beforeSlabs (t.feeders o) (t.xs.port o) = []) :
    NodeGoes s (t.openPort o) x m := by
  obtain ⟨-, rfl, rfl⟩ := id h
  have k := setSlot t t.xs
  unfold State.openPort
  simp only [hb]
  rw [List.length_nil, List.drop_zero, setPort_port]
  exact h.trans k

theorem openPorts (s : State) (l : State.Need3) (hl : ∀ q ∈ l, State.beforeSlabs (s.feeders q.1) (s.xs.port q.1) = []) :
    NodeGoes s (s.openPorts l) s.xs { s.mat with opened := true } := by
  have all : ∀ t, NodeGoes s t s.xs s.mat → NodeGoes s (l.foldl (fun a q => a.openPort q.1) t) s.xs s.mat := by
    induction l with
    | nil => exact fun t h => h
    | cons q l ih =>
      intro t h
      refine ih (fun r hr => hl r (.tail _ hr)) _ (h.openPort q.1 ?_)
      have := hl q (.head _)
      obtain ⟨-, hx, -⟩ := h
      unfold State.feeders at this ⊢
      rwa [hx]
  unfold State.openPorts
  split
  · next ho =>
    rw [← ho]
    exact refl s
  · have k := all s (refl s)
    obtain ⟨-, -, hm⟩ := id k
    dsimp only
    rw [hm]
    exact k.then_setMat

/-- An operand stream without malformed slabs taken (R102, R201). -/
theorem takeIntake (h : NodeGoes s t x m) (o : Nat) (i : Intake) (hi : i.bad = 0) :
    NodeGoes s (t.takeIntake o i) (x.setPort o i.rest) m := by
  obtain ⟨-, rfl, rfl⟩ := id h
  have k := setSlot t (t.xs.setPort o i.rest)
  unfold State.takeIntake
  simp only [hi]
  exact h.trans (((k.quiet (Quiet.foldl_countTaken _ _ _ k.handleOf _)).moved).quiet (.of_posts (.freeRoom ..)))

theorem setXGen (h : NodeGoes s t x m) (g : BitVec 32) : ∃ gs, NodeGoes s (t.setXGen g) { x with gens := gs } m := by
  obtain ⟨-, rfl, rfl⟩ := id h
  unfold State.setXGen
  split
  · exact ⟨_, h.trans (setSlot t _)⟩
  · exact ⟨_, h⟩

/-- An operation ends in a working copy (R195). -/
theorem putWork (h : NodeGoes s t x m) (w : MatWork) : NodeGoes s (t.putWork w) { x with portP := x.portP.drop 1 }
    { m with accepted := false, opened := false, left := none, work := some w } := by
  obtain ⟨-, rfl, rfl⟩ := id h
  have k := popToken t
  obtain ⟨-, -, hm⟩ := id k
  unfold State.putWork
  refine h.trans (NodeGoes.quiet ?_ (.of_posts (.post ..)))
  rw [hm]
  exact k.then_setMat

/-- An operation that writes no buffer ends (R195). -/
theorem doneOp (h : NodeGoes s t x m) : NodeGoes s t.doneOp { x with portP := x.portP.drop 1 }
    { m with accepted := false, opened := false, left := none, committed := m.committed + 1 } := by
  obtain ⟨-, rfl, rfl⟩ := id h
  have k := popToken t
  obtain ⟨-, -, hm⟩ := id k
  unfold State.doneOp
  dsimp only
  rw [hm]
  exact h.trans k.then_setMat

end NodeGoes

/-! ## Control tokens (R61, R188, R201) -/

theorem headBeat_of_headed {x : Slot} {o : Nat} {b : Beat} (h : headed x o b) : headBeat (x.port o) = some b := by
  obtain ⟨c, l, hl, rfl, hc, hk⟩ := h
  have keep : ∃ l', avail (c :: l) = c :: l' := by
    unfold avail
    match l, hk with
    | [], hk =>
      rw [List.getLast?_singleton]
      dsimp only
      rw [if_neg]
      · exact ⟨_, rfl⟩
      · rw [Bool.and_eq_true, decide_eq_true_eq]
        exact fun h => hk h.1 rfl
    | d :: l, _ =>
      split
      · split
        · exact ⟨_, rfl⟩
        · exact ⟨_, rfl⟩
      · exact ⟨_, rfl⟩
  obtain ⟨l', hl'⟩ := keep
  rw [hl, headBeat, hl']
  dsimp only
  rw [if_neg (by rw [hc]; exact Bool.false_ne_true)]

theorem bearing_eq {s : State} {op : Nat} {a : ElemArgs} (hc : s.curSlot = 56)
    (hw : s.el.word = BitVec.ofNat 32 (op * 2 ^ 24 + a.bits)) : s.bearing op a = s.setSlot s.curTile 56 s.xs := by
  unfold State.bearing
  unfold State.el at hw
  dsimp only
  rw [← hw, hc]
  rfl

/-- The token at the head of P names no operation that the node accepts (R61). -/
def noToken (b : Beat) : Bool := b.poi || b.kind ≠ .data || (decodeMatrix b.data.toNat).toOption.isNone

/-- The turn of a token accepted (R188). -/
def accepting (s : State) : State :=
  let s2 := s.setMat { s.mat with accepted := true }
  if s2.agenda.contains (.matrix s2.curTile) then s2 else { s2 with agenda := s2.agenda ++ [.matrix s2.curTile] }

/-- A node that may act takes the token at the head of P: it rejects it, or accepts it and has the turn come (R61, R188). -/
theorem nodeTurn_eq {s t : State} {op : Nat} {a : ElemArgs} {b : Beat} (hs : s.bearing op a = t) (he : s.el.st ≠ .empty)
    (hl : t.xs.live = true) (hg : (t.group (t.handleOf t.curTile)).st ≠ .cutting) (hb : t.headToken = some b)
    (hf : State.freeOut t.xs = true) (hm : t.mat.work = none) :
    s.nodeTurn op a = if noToken b then (t.rejectToken b.poi).wake t.curTile 56 else accepting t := by
  unfold State.nodeTurn
  rw [if_neg he, hs]
  dsimp only
  rw [if_neg (by rw [hl, decide_eq_false hg]; exact Bool.false_ne_true), hb]
  dsimp only
  have hr : (State.freeOut t.xs && t.mat.work.isNone) = true := by rw [hf, hm]; rfl
  rw [if_pos hr]
  rfl

theorem accepting_goes (s : State) :
    NodeGoes s (accepting s) s.xs { s.mat with accepted := true } ∧ .matrix s.curTile ∈ (accepting s).agenda := by
  have h := NodeGoes.setMat s { s.mat with accepted := true }
  unfold accepting
  dsimp only
  split
  · next hc => exact ⟨h, List.contains_iff_mem.1 hc⟩
  · exact ⟨h.quiet (.of_posts ⟨_, rfl⟩), List.mem_append_right _ (.head _)⟩

/-- A matrix node that may act, as the turn of its element finds it (R188). -/
theorem node_turns {s : State} {op : Nat} {a : ElemArgs} {b : Beat} (hc : s.curSlot = 56) (ht : canTurn s op a)
    (hm : s.mat.work = none) (hg : (s.group (s.handleOf s.curTile)).st ≠ .cutting) (hb : headed s.el 3 b) :
    ∃ t, NodeGoes s t s.xs s.mat ∧
      s.nodeTurn op a = if noToken b then (t.rejectToken b.poi).wake t.curTile 56 else accepting t := by
  obtain ⟨hst, hh, hw, hf⟩ := ht
  have hel : s.el = s.xs := by rw [State.el, hc]; rfl
  have hgo := NodeGoes.setSlot s s.xs
  obtain ⟨-, hx, hm1⟩ := id hgo
  refine ⟨_, hgo, nodeTurn_eq (bearing_eq hc hw) ?_ ?_ ?_ ?_ ?_ ?_⟩
  · rcases hst with h | h <;> rw [h] <;> decide
  · rw [hx, ← hel, Slot.live, hh]
    rcases hst with h | h <;> rw [h] <;> rfl
  · rw [handleOf_of_onlyNode hgo.only]
    exact hg
  · rw [State.headToken, hx, ← hel]
    exact headBeat_of_headed hb
  · rw [hx, ← hel]
    exact hf
  · rw [hm1, hm]

/-- What a rejected token leaves (R61). -/
theorem rejected {s t u : State} {poi : Bool} (h : NodeGoes s t s.xs s.mat) (q : Posts (t.rejectToken poi) u) :
    tokenDone s u ∧ u.mat.work = s.mat.work ∧ u.xs.out = s.xs.out ++ sent s.xs.cx [badSolo] ∧
    u.mat.committed = s.mat.committed ∧
    u.mat.errs = if poi = true ∨ s.mat.errs = 0xFFFFFFFF then s.mat.errs else s.mat.errs + 1 := by
  have k := NodeGoes.rejectToken t poi
  obtain ⟨-, hx, hm⟩ := id h
  rw [hx, hm] at k
  have hu := (h.trans k).quiet (.of_posts q)
  have hd := tokenDone_of_goes hu rfl rfl rfl
  obtain ⟨-, hx, hm⟩ := hu
  rw [hx, hm]
  exact ⟨hd, rfl, rfl, rfl, rfl⟩

theorem exec_node {s : State} {i : Instr} {op : Nat} {a : ElemArgs}
    (hi : i = .elXnode a ∧ op = 0xB0 ∨ i = .elXnodeb a ∧ op = 0xB1 ∨ i = .elXnodes a ∧ op = 0xB2) :
    exec i s = .next (s.nodeTurn op a) := by
  rcases hi with ⟨rfl, rfl⟩ | ⟨rfl, rfl⟩ | ⟨rfl, rfl⟩
  · rfl
  · rfl
  · rfl

theorem noToken_iff {b : Beat} :
    noToken b = true ↔ b.poi = true ∨ b.kind ≠ .data ∨ ∃ e, decodeMatrix b.data.toNat = .error e := by
  unfold noToken
  rw [Bool.or_eq_true, Bool.or_eq_true, decide_eq_true_eq, or_assoc]
  cases decodeMatrix b.data.toNat with
  | ok j => exact or_congr_right (or_congr_right ⟨nofun, nofun⟩)
  | error e => exact or_congr_right (or_congr_right ⟨fun _ => ⟨e, rfl⟩, fun _ => rfl⟩)

/-- A matrix instruction runs as an operation at the head of P, with the fields it uses (R60, R188). -/
def RunsAsOperation (i : Instr) : Option (MatUse × MatArgs) → Prop
  | some (u, a) => ∃ need valid f, ∀ s, exec i s = .next (s.matrixOp u a need valid f)
  | none => True

theorem runsAsOperation (i : Instr) : RunsAsOperation i (matrixUse i) := by
  cases i
  case mxMma a => exact ⟨_, _, _, fun _ => rfl⟩
  case mxMmas a => exact ⟨_, _, _, fun _ => rfl⟩
  case mxMmab a => exact ⟨_, _, _, fun _ => rfl⟩
  case mxBload a => exact ⟨_, _, _, fun _ => rfl⟩
  case mxBdrop a => exact ⟨_, _, _, fun _ => rfl⟩
  case mxAzero a => exact ⟨_, _, _, fun _ => rfl⟩
  case mxAload a => exact ⟨_, _, _, fun _ => rfl⟩
  case mxAstore a => exact ⟨_, _, _, fun _ => rfl⟩
  case mxAstorez a => exact ⟨_, _, _, fun _ => rfl⟩
  case mxAadd a => exact ⟨_, _, _, fun _ => rfl⟩
  case mxAscale a => exact ⟨_, _, _, fun _ => rfl⟩
  case mxAbias a => exact ⟨_, _, _, fun _ => rfl⟩
  case mxTrn a => exact ⟨_, _, _, fun _ => rfl⟩
  case mxRmax a => exact ⟨_, _, _, fun _ => rfl⟩
  case mxRsum a => exact ⟨_, _, _, fun _ => rfl⟩
  case mxMark a => exact ⟨_, _, _, fun _ => rfl⟩
  case mxXfence a => exact ⟨_, _, _, fun _ => rfl⟩
  case mxCntrd a => exact ⟨_, _, _, fun _ => rfl⟩
  all_goals exact trivial

theorem not_idle {s : State} (hs : nodeFree s) :
    ¬(s.xs.st = .empty || !s.xs.live || !State.freeOut s.xs || s.mat.work.isSome) = true := by
  obtain ⟨hst, hh, hf, hw⟩ := hs
  rw [hf, hw, Slot.live, hh]
  rcases hst with h | h <;> rw [h] <;> decide

/-- A free node rejects a token whose fields are not those of its use (R60, R61). -/
theorem matrixOp_of_invalid {s : State} (hs : nodeFree s) {u : MatUse} {a : MatArgs} (hv : a.valid u = false)
    (need : Tile → Slot → State.Need3) (valid : Tile → Slot → Bool) (f : State → State) :
    s.matrixOp u a need valid f = s.rejectToken false := by
  unfold State.matrixOp
  rw [if_neg (not_idle hs), if_pos (by rw [hv]; rfl)]

/-- A free node runs an operation whose fields are those of its use and that its configuration allows (R188). -/
theorem matrixOp_of_valid {s t : State} (hs : nodeFree s) {u : MatUse} {a : MatArgs} (hv : a.valid u = true)
    {need : Tile → Slot → State.Need3} {valid : Tile → Slot → Bool} (f : State → State)
    (ht : s.openPorts (need (s.tile s.curTile) s.xs) = t) (hval : valid (t.tile s.curTile) t.xs = true) :
    s.matrixOp u a need valid f = f t := by
  unfold State.matrixOp
  rw [if_neg (not_idle hs), if_neg (by rw [hv]; exact Bool.false_ne_true), ht]
  dsimp only
  rw [if_pos hval]

theorem controlTokens : ControlTokens := by
  refine ⟨fun s i op a b hi hc ht hm hg hb => ?_, fun s i u a hu hs hv => ?_⟩
  · obtain ⟨t, h, hn⟩ := node_turns hc ht hm hg hb
    rw [exec_node hi, hn]
    refine ⟨fun hp hk hd => ?_, fun hr => ?_⟩
    · obtain ⟨j, hj⟩ := hd
      rw [if_neg]
      · obtain ⟨k, ha⟩ := accepting_goes t
        rw [h.curTile] at ha
        obtain ⟨-, hx, hm⟩ := id h
        obtain ⟨ho, hx', hm'⟩ := h.trans k
        exact ⟨_, rfl, ho, hx'.trans hx, by rw [hm', hm], ha⟩
      · rw [noToken_iff, hp, hk, hj]
        simp
    · rw [if_pos (noToken_iff.2 hr)]
      obtain ⟨hd, -, ho, hcm, he⟩ := rejected h (.wake ..)
      exact ⟨_, rfl, hd, ho, hcm, he⟩
  · have hr := runsAsOperation i
    rw [hu] at hr
    obtain ⟨need, valid, f, hx⟩ := hr
    rw [hx, matrixOp_of_invalid hs hv]
    obtain ⟨hd, hw, ho, hcm, he⟩ := rejected (poi := false) (.refl s) (.refl _)
    obtain ⟨-, -, -, hn⟩ := hs
    exact ⟨_, rfl, hd, hw.trans hn, ho, hcm, by simpa using he⟩

/-! ## Operand streams of whole slabs (R94, R190, R191, R194) -/

/-- A whole unpoisoned slab of n beats, n being at least 2 (R93). -/
def wholeSlab (n : Nat) (d : List Beat) : Prop :=
  d.length = n ∧ ∀ j < n, (d.getD j {}).cfg = false ∧ (d.getD j {}).poi = false ∧
    (d.getD j {}).kind = if n = 1 then .solo else if j = 0 then .head else if j + 1 = n then .tail else .data

theorem mem_getD {α : Type} {l : List α} {b : α} (d : α) (hb : b ∈ l) : ∃ j < l.length, l.getD j d = b := by
  obtain ⟨j, hj, rfl⟩ := List.mem_iff_getElem.1 hb
  exact ⟨j, hj, List.getD_eq_getElem _ _ hj⟩

/-- The beats behind a HEAD, to the TAIL, complete the slab. -/
theorem nextSlab_body {n : Nat} (l r cur : List Beat) (k bad : Nat) (hc : cur ≠ []) (hl : l ≠ []) (hn : cur.length + l.length = n)
    (h : ∀ j < l.length, (l.getD j {}).kind = if j + 1 = l.length then .tail else .data) :
    nextSlab n (l ++ r) cur k bad = some ⟨some (cur ++ l), k + l.length, bad⟩ := by
  induction l generalizing cur k with
  | nil => exact absurd rfl hl
  | cons b l ih =>
    have hb : b.kind = if 0 + 1 = (b :: l).length then .tail else .data := h 0 (Nat.succ_pos _)
    have he : cur.isEmpty = false := by cases cur with
      | nil => exact absurd rfl hc
      | cons => rfl
    rw [List.cons_append, nextSlab, if_neg (by rw [he]; exact Bool.false_ne_true), hb]
    cases l with
    | nil =>
      rw [if_pos (show 0 + 1 = [b].length from rfl)]
      exact if_pos hn
    | cons c l =>
      rw [if_neg (by simp)]
      dsimp only
      rw [ih (cur ++ [b]) (k + 1) (by simp) (by simp) (by rw [← hn]; simp +arith) (fun j hj => ?_)]
      · simp +arith
      · have := h (j + 1) (Nat.succ_lt_succ hj)
        simpa using this

/-- A whole slab opens with a HEAD, and its TAIL is the last of the others (R93). -/
theorem head_of_whole {n : Nat} (hn : 2 ≤ n) {d : List Beat} (hd : wholeSlab n d) :
    ∃ b l, d = b :: l ∧ b.cfg = false ∧ b.kind = .head ∧ l.length + 1 = n ∧
      ∀ j < l.length, (l.getD j {}).kind = if j + 1 = l.length then .tail else .data := by
  obtain ⟨rfl, hb⟩ := hd
  obtain ⟨b, l, rfl⟩ := List.exists_cons_of_length_pos (Nat.zero_lt_of_lt hn)
  obtain ⟨hc, -, hk⟩ := hb 0 (Nat.zero_lt_of_lt hn)
  rw [if_neg (Nat.ne_of_gt hn), if_pos rfl] at hk
  refine ⟨b, l, rfl, hc, hk, rfl, fun j hj => ?_⟩
  obtain ⟨-, -, hk⟩ := hb (j + 1) (Nat.succ_lt_succ hj)
  rw [if_neg (Nat.ne_of_gt hn), if_neg (Nat.succ_ne_zero j)] at hk
  simpa using hk

/-- A whole slab at the head of a stream is the next one (R94). -/
theorem nextSlab_whole {n : Nat} (hn : 2 ≤ n) {d : List Beat} (hd : wholeSlab n d) (r : List Beat) :
    nextSlab n (d ++ r) [] 0 0 = some ⟨some d, n, 0⟩ := by
  obtain ⟨b, l, rfl, -, hk, rfl, hl⟩ := head_of_whole hn hd
  have hne : l ≠ [] := by
    rintro rfl
    exact absurd hn (by decide)
  have hbody := nextSlab_body (n := l.length + 1) l r [b] 1 0 nofun hne (Nat.add_comm ..) hl
  rw [Nat.add_comm 1] at hbody
  rw [List.cons_append, nextSlab, hk]
  exact hbody

theorem dropBeats_none (as r : List Arrived) (h : ∀ a ∈ as, a.beat.cfg = false) : dropBeats none as.length (as ++ r) = r := by
  induction as with
  | nil => rw [List.length_nil, List.nil_append, dropBeats]
  | cons a as ih =>
    rw [List.length_cons, List.cons_append, dropBeats, if_pos (by rw [h a (.head _)]; rfl)]
    exact ih fun b hb => h b (.tail _ hb)

theorem cfg_of_whole {n : Nat} {d : List Beat} (hd : wholeSlab n d) {b : Beat} (hb : b ∈ d) : b.cfg = false ∧ b.poi = false := by
  obtain ⟨hl, h⟩ := hd
  obtain ⟨j, hj, rfl⟩ := mem_getD {} hb
  obtain ⟨hc, hp, -⟩ := h j (hl ▸ hj)
  exact ⟨hc, hp⟩

theorem takeSlabs_succ {n k i : Nat} {l : List Arrived} {t : Taken} {r : Intake}
    (ht : nextSlab n ((l.filter fun a => !a.beat.cfg).map (·.beat)) [] 0 0 = some t)
    (hr : takeSlabs [] n k (i + 1) (dropBeats none t.used l) = some r) :
    takeSlabs [] n (k + 1) i l = some { slabs := t.slab :: r.slabs, rest := r.rest, bad := t.bad + r.bad } := by
  rw [takeSlabs]
  simp only [List.getElem?_nil, Option.isNone_none, Bool.true_or, Bool.and_true, ht, hr]

/-- Whole slabs at the head of a port with no feeder entries are taken as they stand (R191, R194). -/
theorem takeSlabs_whole {n : Nat} (hn : 2 ≤ n) (l : List (List Beat)) (as r : List Arrived) (i : Nat)
    (ha : as.map (·.beat) = l.flatten) (hl : ∀ d ∈ l, wholeSlab n d) :
    takeSlabs [] n l.length i (as ++ r) = some { slabs := l.map some, rest := r } := by
  induction l generalizing as i with
  | nil =>
    obtain rfl := List.map_eq_nil_iff.1 ha
    rfl
  | cons d l ih =>
    obtain ⟨as1, as2, rfl, h1, h2⟩ := List.map_eq_append_iff.1 ha
    have hd := hl d (.head _)
    have hc : ∀ a ∈ as1, a.beat.cfg = false := fun a h => (cfg_of_whole hd (h1 ▸ List.mem_map_of_mem h)).1
    have hlen : n = as1.length := by rw [← hd.1, ← h1, List.length_map]
    have hf : as1.filter (fun a => !a.beat.cfg) = as1 := List.filter_eq_self.2 fun a h => by rw [hc a h]; rfl
    have hnext : nextSlab n (((as1 ++ as2 ++ r).filter fun a => !a.beat.cfg).map (·.beat)) [] 0 0 = some ⟨some d, n, 0⟩ := by
      rw [List.append_assoc, List.filter_append, hf, List.map_append, h1]
      exact nextSlab_whole hn hd _
    have hdrop : dropBeats none n (as1 ++ as2 ++ r) = as2 ++ r := by
      rw [hlen, List.append_assoc]
      exact dropBeats_none _ _ hc
    exact takeSlabs_succ hnext ((congrArg _ hdrop).trans (ih as2 (i + 1) h2 fun d hd => hl d (.tail _ hd)))

/-- Nothing stands before the slabs of a port that opens with a HEAD (R190). -/
theorem beforeSlabs_of_head {a : Arrived} {l : List Arrived} (hc : a.beat.cfg = false) (hk : a.beat.kind = .head) :
    State.beforeSlabs [] (a :: l) = [] := by
  unfold State.beforeSlabs
  rw [List.takeWhile_cons_of_neg (by rw [hc, hk]; exact Bool.false_ne_true)]
  rfl

theorem wholeSlabs_of_slabsStand {s : State} {o count n : Nat} {l : List (List Beat)} (h : slabsStand s o count n l) :
    l.length = count ∧ ∀ d ∈ l, wholeSlab n d := by
  obtain ⟨hc, -, -, -, hl⟩ := h
  exact ⟨hc, hl⟩

theorem feeders_of_slabsStand {s : State} {o count n : Nat} {l : List (List Beat)} (h : slabsStand s o count n l) :
    s.feeders o = [] := by
  obtain ⟨-, h0, h1, -⟩ := h
  unfold State.feeders
  split
  · next ho => rw [h0 ho]; rfl
  · split
    · next ho => rw [h1 ho]; rfl
    · rfl

/-- Operand slabs that stand whole at a port: nothing is before them, and they are taken in order (R190, R194). -/
theorem takes_of_slabsStand {s : State} {o count n : Nat} {l : List (List Beat)} (h : slabsStand s o count n l) (hn : 2 ≤ n)
    (hcount : 0 < count) : State.beforeSlabs (s.feeders o) (s.xs.port o) = [] ∧
      ∃ r, takeSlabs (s.feeders o) n count 0 (s.xs.port o) = some { slabs := l.map some, rest := r } := by
  rw [feeders_of_slabsStand h]
  obtain ⟨rfl, -, -, ⟨as, r, hp, ha, -⟩, hl⟩ := h
  rw [hp]
  refine ⟨?_, r, takeSlabs_whole hn l as r 0 ha hl⟩
  obtain ⟨d, l, rfl⟩ := List.exists_cons_of_length_pos hcount
  obtain ⟨b, d, rfl, hc, hk, -, -⟩ := head_of_whole hn (hl d (.head _))
  obtain ⟨a, as, rfl, rfl, -⟩ := List.map_eq_cons_iff.1 ha
  exact beforeSlabs_of_head hc hk

/-- The node with its slabs there goes on with them (R194). -/
theorem withSlabs_eq {t : State} {o count n : Nat} {i : Intake} (hf : t.feeders o = []) (hi : t.slabsAt o count n = some i)
    (f : State → List Intake → State) : t.withSlabs [(o, count, n)] f = f t [i] := by
  have hj : t.judgePort o = t := by
    unfold State.judgePort
    dsimp only
    rw [hf]
    rfl
  unfold State.withSlabs
  simp [hj, hi]

/-! ## Values and codes of the cells (R74, R77, R87, R89, R115, R194) -/

theorem width_accFmt (s : State) : (accFmt s.wide).width = cellWidth s := by
  unfold cellWidth
  cases s.wide with
  | true => rfl
  | false => rfl

theorem accBits_eq (s : State) : accBits (s.tile s.curTile) s.xs = cellFlags s := by
  unfold accBits cellFlags
  simp only [Bool.or_eq_true, decide_eq_true_eq]

theorem decode_accFmt_zero (w b : Bool) : (accFmt w).decode b 0 = .zero false := by
  cases w with
  | true => rfl
  | false => rfl

theorem two_zpow_of_le {k j : Int} (h : k ≤ j) : (2 : ℚ) ^ j = 2 ^ (j - k).toNat * 2 ^ k := by
  rw [← zpow_natCast, Int.toNat_of_nonneg (Int.sub_nonneg_of_le h), ← zpow_add₀ two_ne_zero, sub_add_cancel]

/-- Two scaled integers added at the lower exponent. -/
theorem addDyadic_eq (z k y j : Int) :
    ((addDyadic z k y j).1 : ℚ) * 2 ^ (addDyadic z k y j).2 = z * 2 ^ k + y * 2 ^ j := by
  unfold addDyadic
  split
  · next h =>
    rw [two_zpow_of_le h]
    push_cast
    rw [add_mul, mul_assoc]
  · next h =>
    rw [two_zpow_of_le (le_of_not_ge h)]
    push_cast
    rw [add_mul, mul_assoc]

theorem ofExact_add (mode : RMode) (a b : FVal) :
    Val.ofExact (Exact.add mode a.exact b.exact) = Val.add mode (Val.of a) (Val.of b) := by
  match a, b with
  | .nan _, _ | .inf _, .nan _ | .zero _, .nan _ | .fin _ _, .nan _ => rfl
  | .inf _, .zero _ | .inf _, .fin _ _ | .zero _, .inf _ | .fin _ _, .inf _ | .zero _, .fin _ _ | .fin _ _, .zero _ => rfl
  | .inf x, .inf y => exact apply_ite Val.ofExact (x = y) _ _
  | .zero x, .zero y => exact apply_ite Val.ofExact (x = y) _ _
  | .fin z k, .fin y j =>
    refine (apply_ite Val.ofExact ((addDyadic z k y j).1 = 0) _ _).trans ?_
    unfold Val.of Val.add Val.realOr
    dsimp only
    rw [← addDyadic_eq]
    by_cases h : (addDyadic z k y j).1 = 0
    · rw [if_pos h, if_pos (by rw [h, Int.cast_zero, zero_mul])]
      rfl
    · rw [if_neg h, if_neg (mul_ne_zero (Int.cast_ne_zero.2 h) (zpow_ne_zero _ two_ne_zero))]
      rfl

theorem neg_of (a : FVal) : (Val.of a).neg = a.neg := by
  match a with
  | .nan _ | .inf _ | .zero _ => rfl
  | .fin z k =>
    have h : (z : ℚ) * 2 ^ k < 0 ↔ z < 0 := by
      rw [← not_le, mul_nonneg_iff_of_pos_right (zpow_pos two_pos k), not_le, Int.cast_lt_zero]
    exact decide_eq_decide.2 h

theorem ofExact_mul (a b : FVal) : Val.ofExact (FVal.mul a b) = Val.mul (Val.of a) (Val.of b) := by
  match a, b with
  | .nan _, _ | .inf _, .nan _ | .zero _, .nan _ | .fin _ _, .nan _ => rfl
  | .inf _, .inf _ | .inf _, .zero _ | .zero _, .inf _ | .zero _, .zero _ => rfl
  | .inf x, .fin y j => exact congrArg (fun n => Val.inf (x != n)) (neg_of (.fin y j)).symm
  | .fin z k, .inf y => exact congrArg (fun n => Val.inf (n != y)) (neg_of (.fin z k)).symm
  | .zero x, .fin y j => exact congrArg (fun n => Val.zero (x != n)) (neg_of (.fin y j)).symm
  | .fin z k, .zero y => exact congrArg (fun n => Val.zero (n != y)) (neg_of (.fin z k)).symm
  | .fin z k, .fin y j =>
    have : ((z * y : Int) : ℚ) * 2 ^ (k + j) = z * 2 ^ k * (y * 2 ^ j) := by
      rw [Int.cast_mul, zpow_add₀ two_ne_zero, mul_mul_mul_comm]
    exact congrArg Val.real this

theorem getD_map_range {α : Type} (f : Nat → α) (d : α) {n q : Nat} (hq : q < n) : ((List.range n).map f).getD q d = f q := by
  rw [List.getD_eq_getElem _ _ (by simpa using hq), List.getElem_map, List.getElem_range]

/-- An entry of lists of one length laid one behind another. -/
theorem getD_flatMap {α β : Type} {f : α → List β} {n : Nat} (hn : 0 < n) (hf : ∀ x, (f x).length = n) (x0 : α) (d : β)
    (l : List α) (k : Nat) (hk : k / n < l.length ∨ ∀ j, (f x0).getD j d = d) :
    (l.flatMap f).getD k d = (f (l.getD (k / n) x0)).getD (k % n) d := by
  induction l generalizing k with
  | nil => exact (hk.resolve_left (Nat.not_lt_zero _) _).symm
  | cons x l ih =>
    rw [List.flatMap_cons]
    by_cases hc : k < n
    · rw [List.getD_append _ _ _ _ (hc.trans_eq (hf x).symm), Nat.div_eq_of_lt hc, Nat.mod_eq_of_lt hc]
      rfl
    · have hge := Nat.le_of_not_lt hc
      rw [Nat.div_eq_sub_div hn hge] at hk ⊢
      rw [List.getD_append_right _ _ _ _ ((hf x).trans_le hge), hf, ih _ (hk.imp_left Nat.lt_of_succ_lt_succ),
        Nat.mod_eq_sub_mod hge]
      rfl

/-- The lanes of a slab's beats, in order, are its codes (R74, R194). -/
theorem getD_lanes {w : Nat} (hw : 0 < 64 / w) (d : List Beat) (c : Nat) :
    ((d.map fun b => b.data.toNat).flatMap (lanesOf w)).getD c 0 = codeIn w d c := by
  have hlen : ∀ v, (lanesOf w v).length = 64 / w := fun v => (List.length_map ..).trans (List.length_range ..)
  have hzero : lanesOf w 0 = List.replicate (64 / w) 0 := by simp [List.eq_replicate_iff, lanesOf, laneOf]
  rw [getD_flatMap hw hlen 0 0 _ _ (.inr fun j => hzero ▸ List.getElem?_getD_replicate_default_eq ..)]
  exact (getD_map_range _ _ (Nat.mod_lt _ hw)).trans
    (congrArg (lane w · (c % (64 / w))) (List.getD_map d {} fun b : Beat => b.data.toNat))

theorem length_streamCells (m n w : Nat) (l : List (Option (List Beat))) :
    (State.streamCells m n w l).1.length = 16 * m * (16 * n) := (List.length_map ..).trans (List.length_range ..)

/-- The stream of whole slabs gives the region's cells, row by row (R194). -/
theorem getD_streamCells {m n w : Nat} (hw : 0 < 64 / w) (l : List (List Beat)) {q : Nat} (hq : q < 16 * m * (16 * n)) :
    (State.streamCells m n w (l.map some)).1.getD q 0 = streamedCell w n l q := by
  unfold State.streamCells streamedCell
  rw [getD_map_range _ _ hq, List.map_map, ← getD_lanes hw]
  exact congrArg (List.getD · _ 0) (List.getD_map l [] ((fun d => (slabData d).flatMap (lanesOf w)) ∘ some))

/-- Numbers rounded one after another: the q-th is drawn with the generator stepped once more than q times (R89). -/
theorem getD_roundAll (x : Slot) (f : FloatFmt) (b : FBits) (g : Nat → Nat → Exact) (l : List (Nat × Nat)) (gen : BitVec 32)
    {q : Nat} (hq : q < l.length) : (roundAll f b x.round g l gen).1.getD q 0 =
      f.roundExact b x.round (drawn x gen q) (g (l.getD q (0, 0)).1 (l.getD q (0, 0)).2) := by
  induction l generalizing gen q with
  | nil => exact absurd hq (Nat.not_lt_zero _)
  | cons p l ih =>
    cases q with
    | zero => rfl
    | succ q =>
      refine (ih _ (Nat.lt_of_succ_lt_succ hq)).trans ?_
      have : drawn x (if x.round = .sr then stepGen gen else gen) q = drawn x gen (q + 1) := by
        unfold drawn stepped
        split
        · rfl
        · rfl
      rw [this]
      rfl

theorem length_roundAll (f : FloatFmt) (b : FBits) (mode : RMode) (g : Nat → Nat → Exact) (l : List (Nat × Nat))
    (gen : BitVec 32) : (roundAll f b mode g l gen).1.length = l.length := by
  induction l generalizing gen with
  | nil => rfl
  | cons p l ih => exact congrArg (· + 1) (ih _)

/-! ## Buffer operations (R194, R195, R199) -/

/-- Two slots that differ in their operand ports alone. -/
def sameButOperands (x y : Slot) : Prop := { y with portA := x.portA, portB := x.portB, portC := x.portC } = x

/-- The node's state once the operand ports of its operation are open. -/
def openedMat (s : State) : Matrix := { s.mat with opened := true }

theorem wide_of_goes {s t : State} {x : Slot} {m : Matrix} (h : NodeGoes s t x m) (hx : sameButOperands s.xs x) :
    (t.tile s.curTile).fmt t.xs.fsel = (s.tile s.curTile).fmt s.xs.fsel ∧ t.wide = s.wide := by
  have hc := h.curTile
  obtain ⟨⟨-, -, ht, -⟩, rfl, -⟩ := h
  have hp := congrArg Tile.profile (ht s.curTile)
  have hw := congrArg Slot.word hx
  have hf : (t.tile s.curTile).fmt t.xs.fsel = (s.tile s.curTile).fmt s.xs.fsel := by
    unfold Tile.fmt Slot.fsel
    exact congrArg₂ (fun (l : List Nat) (w : Word32) => fmtOf (l.getD (w.toNat / 2 ^ 21 % 8) 0)) hp hw
  refine ⟨hf, ?_⟩
  unfold State.wide
  rw [hc, hf]

/-- An operation that ends by filling the working copy (R195). -/
theorem copies_of_putWork {i : Instr} {s u : State} {a : MatArgs} {w : MatWork} {x : Slot} {gs : Table (BitVec 32)}
    {P : List Nat → List Bool → Prop} (he : exec i s = .next (u.putWork w))
    (hu : NodeGoes s u { x with gens := gs } (openedMat s)) (hx : sameButOperands s.xs x)
    (hb : w.buf = a.buf.toNat) (hw : w.wide = s.wide) (hm : w.m = a.m.toNat) (hn : w.n = a.n.toNat)
    (hc : w.cells.length = 16 * a.m.toNat * (16 * a.n.toNat)) (hk : w.marks.length = a.m.toNat * a.n.toNat)
    (hP : P w.cells w.marks) : copies i s a P := by
  have k := hu.putWork w
  have hp := congrArg Slot.portP hx
  have ho := congrArg Slot.out hx
  have hd := tokenDone_of_goes k (congrArg (List.drop 1) hp)
    (congrArg (fun y : Slot => { y with portP := s.xs.portP, out := s.xs.out, gens := s.xs.gens }) hx) rfl
  obtain ⟨-, hx', hm'⟩ := k
  have hcm := congrArg Matrix.committed hm'
  have hst := congrArg Matrix.store hm'
  refine ⟨_, w, he, hd, congrArg Matrix.work hm', hb, hw, hm, hn, ?_, hk, hcm,
    (congrArg Slot.out hx').trans ho, hst, hP⟩
  rw [hc]
  ring

/-- The state after a region's cells were rounded one after another into the working copy (R199). -/
def rounding (t u : State) (a : MatArgs) (g : Nat → Nat → Exact) (bad : Nat → Bool) : State :=
  let r := roundAll (accFmt t.wide) (accBits (t.tile t.curTile) t.xs) t.xs.round g
    (u.oldCells a.buf.toNat a.m.toNat a.n.toNat true) (u.xs.gen 0)
  let marks := (List.range (a.m.toNat * a.n.toNat)).map fun q =>
    (u.oldMarks a.buf.toNat a.m.toNat a.n.toNat).getD q false || bad q
  (u.setXGen r.2).putWork { buf := a.buf.toNat, wide := t.wide, m := a.m.toNat, n := a.n.toNat, cells := r.1, marks }

theorem copies_of_rounding {i : Instr} {s t u : State} {a : MatArgs} {y : Slot} {g : Nat → Nat → Exact} {bad : Nat → Bool}
    {v : Nat → Val} (he : exec i s = .next (rounding t u a g bad)) (ht : NodeGoes s t s.xs (openedMat s))
    (hu : NodeGoes s u y (openedMat s)) (hy : sameButOperands s.xs y)
    (hbad : ∀ q, bad q = false) (hg : ∀ q < 16 * a.m.toNat * (16 * a.n.toNat), Val.ofExact (g q (oldCell s a q)) = v q) :
    copies i s a (fun cs ms => (∀ q < cs.length, roundsTo s (cs.getD q 0) q (v q)) ∧
      ∀ q < ms.length, ms.getD q false = oldMark s a q) := by
  obtain ⟨gs, hs⟩ := hu.setXGen (roundAll (accFmt t.wide) (accBits (t.tile t.curTile) t.xs) t.xs.round g
    (u.oldCells a.buf.toNat a.m.toNat a.n.toNat true) (u.xs.gen 0)).2
  have htw := (wide_of_goes ht rfl).2
  have huw := (wide_of_goes hu hy).2
  have hold : (u.oldCells a.buf.toNat a.m.toNat a.n.toNat true).length = 16 * a.m.toNat * (16 * a.n.toNat) := by
    rw [State.oldCells, List.length_map, List.length_range]
  have hacc : accBits (t.tile t.curTile) t.xs = cellFlags s := by
    rw [accBits_eq]
    unfold cellFlags
    rw [ht.curTile, (wide_of_goes ht rfl).1]
  refine copies_of_putWork he hs hy rfl htw rfl rfl ((length_roundAll ..).trans hold) ?_ ⟨fun q hq => ?_, fun q hq => ?_⟩
  · exact List.length_map .. |>.trans (List.length_range ..)
  · rw [length_roundAll, hold] at hq
    obtain ⟨-, htx, htm⟩ := ht
    obtain ⟨-, hux, hum⟩ := hu
    refine ⟨g q (oldCell s a q), hg q hq, ?_⟩
    have hcell : (u.oldCells a.buf.toNat a.m.toNat a.n.toNat true).getD q (0, 0) = (q, oldCell s a q) := by
      rw [State.oldCells, getD_map_range _ _ hq, huw, hum]
      rfl
    have hgen : u.xs.gen 0 = s.xs.gen 0 := by
      have := congrArg (fun z : Slot => z.gen 0) hy
      rw [hux]
      exact this
    rw [getD_roundAll _ _ _ _ _ _ (hold ▸ hq), hcell, htw, hacc, htx, hgen]
  · replace hq : q < a.m.toNat * a.n.toNat := by simpa using hq
    rw [getD_map_range _ _ hq, hbad, Bool.or_false]
    unfold State.oldMarks
    rw [getD_map_range _ _ hq, huw, hu.mat_eq]
    rfl

/-- A region whose fields R60 allows is not empty. -/
theorem region_pos {a : MatArgs} {u : MatUse} (hu : u.mn = true) (hv : a.valid u = true) : 0 < a.m.toNat ∧ 0 < a.n.toNat := by
  unfold MatArgs.valid at hv
  rw [hu] at hv
  simp only [if_true, Bool.and_eq_true, bne_iff_ne, and_assoc] at hv
  obtain ⟨hm, hn, -⟩ := hv
  exact ⟨Nat.pos_of_ne_zero fun h => hm (BitVec.eq_of_toNat_eq h), Nat.pos_of_ne_zero fun h => hn (BitVec.eq_of_toNat_eq h)⟩

theorem regionValid_of_inGrid {s t : State} {a : MatArgs} {x : Slot} {m : Matrix} (h : NodeGoes s t x m)
    (hx : sameButOperands s.xs x) (hg : inGrid s a) : regionValid (t.tile s.curTile) t.xs a = true := by
  obtain ⟨hm, hn⟩ := hg
  unfold State.wide at hn
  unfold regionValid
  rw [(wide_of_goes h hx).1, decide_eq_true hm, Bool.true_and]
  simpa using hn

theorem azero_copies {s : State} {a : MatArgs} (hs : nodeFree s) (hg : inGrid s a) (hv : a.valid .region = true) :
    copies (.mxAzero a) s a (fun cs ms => (∀ c ∈ cs, c = 0) ∧ ∀ m ∈ ms, m = false) := by
  have h := NodeGoes.openPorts s [] nofun
  have hw := (wide_of_goes h rfl).2
  have hrun := matrixOp_of_valid hs hv (need := fun _ _ => []) (valid := fun t x => regionValid t x a) (fun t => t.zeroOp a) rfl
    (regionValid_of_inGrid h rfl hg)
  exact copies_of_putWork (gs := s.xs.gens) (congrArg _ hrun) h rfl rfl hw rfl rfl (List.length_replicate ..)
    (List.length_replicate ..) ⟨fun c hc => List.eq_of_mem_replicate hc, fun m hm => List.eq_of_mem_replicate hm⟩

theorem sameButOperands_setPort (x : Slot) {o : Nat} (ho : o < 3) (l : List Arrived) : sameButOperands x (x.setPort o l) := by
  match o, ho with
  | 0, _ | 1, _ | 2, _ => rfl

/-- An operation runs over its operand slabs (R190, R194): in t its port is open, in u its slabs i are taken. -/
structure RunsOver (s : State) (o count n : Nat) (l : List (List Beat)) (t : State) (i : Intake) (y : Slot) : Prop where
  opened : NodeGoes s t s.xs (openedMat s)
  taken : NodeGoes s (t.takeIntake o i) y (openedMat s)
  same : sameButOperands s.xs y
  slabs : i.slabs = l.map some
  noFeeders : t.feeders o = []
  stands : t.slabsAt o count n = some i

theorem runs_over {s : State} {a : MatArgs} {o count n : Nat} {l : List (List Beat)} (hs : nodeFree s) (hg : inGrid s a)
    (hv : a.valid .region = true) (hl : slabsStand s o count n l) (ho : o < 3) (hn : 2 ≤ n) (hcount : 0 < count)
    {need : Tile → Slot → State.Need3} (hneed : need (s.tile s.curTile) s.xs = [(o, count, n)]) (f : State → State) :
    ∃ t i y, s.matrixOp .region a need (fun t x => regionValid t x a) f = f t ∧ RunsOver s o count n l t i y := by
  obtain ⟨hb, r, hr⟩ := takes_of_slabsStand hl hn hcount
  have ht := NodeGoes.openPorts s [(o, count, n)] (fun q hq => by rw [List.mem_singleton.1 hq]; exact hb)
  have hfe : (s.openPorts [(o, count, n)]).feeders o = s.feeders o := by
    unfold State.feeders
    rw [ht.slot_eq]
  refine ⟨_, _, _, matrixOp_of_valid hs hv f (congrArg s.openPorts hneed) (regionValid_of_inGrid ht rfl hg), ht,
    ht.takeIntake o { slabs := l.map some, rest := r } rfl, sameButOperands_setPort s.xs ho r, rfl,
    hfe.trans (feeders_of_slabsStand hl), ?_⟩
  unfold State.slabsAt
  rw [hfe, ht.slot_eq]
  exact hr

/-- Whole unpoisoned slabs mark no block. -/
theorem slabPoi_of_whole {n : Nat} {l : List (List Beat)} (hl : ∀ d ∈ l, wholeSlab n d) :
    (l.map some).map slabPoi = List.replicate l.length false := by
  rw [List.eq_replicate_iff]
  refine ⟨by rw [List.length_map, List.length_map], fun b hb => ?_⟩
  rw [List.map_map, List.mem_map] at hb
  obtain ⟨d, hd, rfl⟩ := hb
  exact List.any_eq_false.2 fun b hb => by rw [(cfg_of_whole (hl d hd) hb).2]; exact Bool.false_ne_true

theorem loadOp_load {t : State} {a : MatArgs} {i : Intake} (hf : t.feeders 0 = [])
    (hi : t.slabsAt 0 (a.m.toNat * a.n.toNat) (4 * (accFmt t.wide).width) = some i) :
    t.loadOp a false = (t.takeIntake 0 i).putWork
      { buf := a.buf.toNat, wide := t.wide, m := a.m.toNat, n := a.n.toNat, marks := i.slabs.map slabPoi
        cells := (State.streamCells a.m.toNat a.n.toNat (accFmt t.wide).width i.slabs).1 } := by
  unfold State.loadOp
  have hn : loadNeed a (t.tile t.curTile) t.xs = [(0, a.m.toNat * a.n.toNat, 4 * (accFmt t.wide).width)] := rfl
  dsimp only
  rw [hn, withSlabs_eq hf hi, if_neg Bool.false_ne_true]
  rfl

theorem loadOp_add {t : State} {a : MatArgs} {i : Intake} (hf : t.feeders 0 = [])
    (hi : t.slabsAt 0 (a.m.toNat * a.n.toNat) (4 * (accFmt t.wide).width) = some i) :
    t.loadOp a true = rounding t (t.takeIntake 0 i) a (fun q o => Exact.add t.xs.round
      ((accFmt t.wide).decode (accBits (t.tile t.curTile) t.xs).daz o).exact
      ((accFmt t.wide).decode (accBits (t.tile t.curTile) t.xs).daz
        ((State.streamCells a.m.toNat a.n.toNat (accFmt t.wide).width i.slabs).1.getD q 0)).exact)
      (fun q => (i.slabs.map slabPoi).getD q false) := by
  unfold State.loadOp
  have hn : loadNeed a (t.tile t.curTile) t.xs = [(0, a.m.toNat * a.n.toNat, 4 * (accFmt t.wide).width)] := rfl
  dsimp only
  rw [hn, withSlabs_eq hf hi, if_pos rfl]
  rfl

theorem vectorOp_eq {t : State} {a : MatArgs} {i : Intake} (bias : Bool) (hf : t.feeders 1 = [])
    (hi : t.slabsAt 1 1 (16 * a.n.toNat * (accFmt t.wide).width / 64) = some i) :
    t.vectorOp a bias = rounding t (t.takeIntake 1 i) a (fun q o =>
      let c := (accFmt t.wide).decode (accBits (t.tile t.curTile) t.xs).daz o
      let v := (((slabData (i.slabs.headD none)).flatMap (lanesOf (accFmt t.wide).width)).map
        ((accFmt t.wide).decode (accBits (t.tile t.curTile) t.xs).daz)).getD (q % (16 * a.n.toNat)) (.zero false)
      if bias then Exact.add t.xs.round c.exact v.exact else c.mul v)
      (fun _ => slabPoi (i.slabs.headD none)) := by
  unfold State.vectorOp
  have hn : vectorNeed a (t.tile t.curTile) t.xs = [(1, 1, 16 * a.n.toNat * (accFmt t.wide).width / 64)] := rfl
  dsimp only
  rw [hn, withSlabs_eq hf hi]
  rfl

theorem cellWidth_eq (s : State) : cellWidth s = 64 ∨ cellWidth s = 32 := by
  unfold cellWidth
  split
  · exact .inl rfl
  · exact .inr rfl

theorem cellWidth_lanes (s : State) : 0 < 64 / cellWidth s ∧ 2 ≤ 4 * cellWidth s ∧ 32 ≤ cellWidth s := by
  rcases cellWidth_eq s with h | h
  · rw [h]; decide
  · rw [h]; decide

/-- The facts of a run that the values depend on are the state's own. -/
theorem RunsOver.facts {s t : State} {o count n : Nat} {l : List (List Beat)} {i : Intake} {y : Slot}
    (h : RunsOver s o count n l t i y) : t.wide = s.wide ∧ accBits (t.tile t.curTile) t.xs = cellFlags s ∧ t.xs = s.xs := by
  have hw := wide_of_goes h.opened rfl
  refine ⟨hw.2, ?_, h.opened.slot_eq⟩
  rw [accBits_eq]
  unfold cellFlags
  rw [h.opened.curTile, hw.1]

/-- ALOAD and AADD run over the slabs of the region's blocks (R194, R199). -/
theorem load_runs {s : State} {a : MatArgs} {l : List (List Beat)} (hs : nodeFree s) (hg : inGrid s a)
    (hv : a.valid .region = true) (hl : slabsStand s 0 (a.m.toNat * a.n.toNat) (4 * cellWidth s) l) (add : Bool) :
    ∃ t i y, s.matrixOp .region a (loadNeed a) (fun t x => regionValid t x a) (fun t => t.loadOp a add) = t.loadOp a add ∧
      RunsOver s 0 (a.m.toNat * a.n.toNat) (4 * cellWidth s) l t i y ∧
      t.slabsAt 0 (a.m.toNat * a.n.toNat) (4 * (accFmt t.wide).width) = some i := by
  obtain ⟨hm, hn⟩ := region_pos rfl hv
  obtain ⟨-, hlen, -⟩ := cellWidth_lanes s
  have hneed : loadNeed a (s.tile s.curTile) s.xs = [(0, a.m.toNat * a.n.toNat, 4 * cellWidth s)] :=
    congrArg (fun w => [(0, a.m.toNat * a.n.toNat, 4 * w)]) (width_accFmt s)
  obtain ⟨t, i, y, hrun, h⟩ := runs_over hs hg hv hl (by decide) hlen (Nat.mul_pos hm hn) hneed fun t => t.loadOp a add
  refine ⟨t, i, y, hrun, h, ?_⟩
  rw [h.facts.1, width_accFmt]
  exact h.stands

theorem aload_copies {s : State} {a : MatArgs} {l : List (List Beat)} (hs : nodeFree s) (hg : inGrid s a)
    (hv : a.valid .region = true) (hl : slabsStand s 0 (a.m.toNat * a.n.toNat) (4 * cellWidth s) l) :
    copies (.mxAload a) s a (fun cs ms => (∀ q < cs.length, cs.getD q 0 = streamedCell (cellWidth s) a.n.toNat l q) ∧
      ∀ m ∈ ms, m = false) := by
  obtain ⟨t, i, y, hrun, h, hi⟩ := load_runs hs hg hv hl false
  obtain ⟨hw, -, -⟩ := h.facts
  obtain ⟨hcount, hwhole⟩ := wholeSlabs_of_slabsStand hl
  rw [loadOp_load h.noFeeders hi, h.slabs, slabPoi_of_whole hwhole, hcount] at hrun
  refine copies_of_putWork (gs := y.gens) (congrArg _ hrun) h.taken h.same rfl hw rfl rfl (length_streamCells ..)
    (List.length_replicate ..) ⟨fun q hq => ?_, fun m hm => List.eq_of_mem_replicate hm⟩
  rw [hw, width_accFmt] at hq ⊢
  exact getD_streamCells (cellWidth_lanes s).1 l (hq.trans_eq (length_streamCells ..))

theorem aadd_copies {s : State} {a : MatArgs} {l : List (List Beat)} (hs : nodeFree s) (hg : inGrid s a)
    (hv : a.valid .region = true) (hl : slabsStand s 0 (a.m.toNat * a.n.toNat) (4 * cellWidth s) l) :
    copies (.mxAadd a) s a (fun cs ms => (∀ q < cs.length, roundsTo s (cs.getD q 0) q
        (Val.add s.xs.round (cellValue s (oldCell s a q)) (cellValue s (streamedCell (cellWidth s) a.n.toNat l q)))) ∧
      ∀ q < ms.length, ms.getD q false = oldMark s a q) := by
  obtain ⟨t, i, y, hrun, h, hi⟩ := load_runs hs hg hv hl true
  obtain ⟨hw, hb, hx⟩ := h.facts
  have hmarks := slabPoi_of_whole (wholeSlabs_of_slabsStand hl).2
  rw [loadOp_add h.noFeeders hi, h.slabs, hmarks] at hrun
  refine copies_of_rounding (congrArg _ hrun) h.opened h.taken h.same
    (fun q => List.getElem?_getD_replicate_default_eq ..) fun q hq => ?_
  rw [hw, hb, hx, width_accFmt, getD_streamCells (cellWidth_lanes s).1 l hq]
  exact ofExact_add ..

/-- What ASCALE and ABIAS make of a column's cell and the vector's value for it (R199). -/
def scaled (bias : Bool) (mode : RMode) (c v : Val) : Val := bif bias then Val.add mode c v else Val.mul c v

/-- ASCALE and ABIAS round each cell's product or sum with its column's value (R199). -/
theorem vector_copies {s : State} {a : MatArgs} {d : List Beat} (hs : nodeFree s) (hg : inGrid s a)
    (hv : a.valid .region = true) (hl : slabsStand s 1 1 (16 * a.n.toNat * cellWidth s / 64) [d]) {i : Instr} (bias : Bool)
    (hi : exec i s = .next (s.matrixOp .region a (vectorNeed a) (fun t x => regionValid t x a) fun t => t.vectorOp a bias)) :
    copies i s a (fun cs ms => (∀ q < cs.length, roundsTo s (cs.getD q 0) q
        (scaled bias s.xs.round (cellValue s (oldCell s a q)) (cellValue s (codeIn (cellWidth s) d (q % (16 * a.n.toNat)))))) ∧
      ∀ q < ms.length, ms.getD q false = oldMark s a q) := by
  obtain ⟨hm, hn⟩ := region_pos rfl hv
  obtain ⟨hlane, -, hwidth⟩ := cellWidth_lanes s
  have hneed : vectorNeed a (s.tile s.curTile) s.xs = [(1, 1, 16 * a.n.toNat * cellWidth s / 64)] :=
    congrArg (fun w => [(1, 1, 16 * a.n.toNat * w / 64)]) (width_accFmt s)
  have hlen : 2 ≤ 16 * a.n.toNat * cellWidth s / 64 := by
    rw [Nat.le_div_iff_mul_le (by decide)]
    exact le_trans (by decide) (Nat.mul_le_mul (Nat.mul_le_mul_left 16 hn) hwidth)
  obtain ⟨t, i, y, hrun, h⟩ := runs_over hs hg hv hl (by decide) hlen one_pos hneed fun t => t.vectorOp a bias
  obtain ⟨hw, hb, hx⟩ := h.facts
  have hst := h.stands
  rw [← width_accFmt, ← hw] at hst
  have hpoi := slabPoi_of_whole (wholeSlabs_of_slabsStand hl).2
  rw [vectorOp_eq bias h.noFeeders hst, h.slabs] at hrun
  refine copies_of_rounding (hi.trans (congrArg _ hrun)) h.opened h.taken h.same (fun q => (List.cons.inj hpoi).1) fun q hq => ?_
  have hcode : (((slabData (([d].map some).headD none)).flatMap (lanesOf (cellWidth s))).map
      ((accFmt s.wide).decode (cellFlags s).daz)).getD (q % (16 * a.n.toNat)) (.zero false) =
      (accFmt s.wide).decode (cellFlags s).daz (codeIn (cellWidth s) d (q % (16 * a.n.toNat))) := by
    rw [← decode_accFmt_zero s.wide (cellFlags s).daz, List.getD_map, ← getD_lanes hlane]
    rfl
  rw [hw, hb, hx, width_accFmt]
  dsimp only
  rw [hcode]
  cases bias with
  | true => exact ofExact_add ..
  | false => exact ofExact_mul ..

/-! ## ASTORE and ASTOREZ (R93, R199) -/

/-- A code that Round gives fits the accumulator's width (R87, R88). -/
theorem roundExact_lt (w : Bool) (b : FBits) (mode : RMode) (rnd : Nat) (x : Exact) :
    (accFmt w).roundExact b mode rnd x < 2 ^ (accFmt w).width := by
  have hnan : (accFmt w).nan = .ieee := by cases w <;> rfl
  have hcode : (accFmt w).nanCode < 2 ^ (accFmt w).width ∧ (accFmt w).infCode < 2 ^ ((accFmt w).e + (accFmt w).f) ∧
      (accFmt w).largestCode < 2 ^ ((accFmt w).e + (accFmt w).f) ∧ 2 ^ (accFmt w).f < 2 ^ ((accFmt w).e + (accFmt w).f) := by
    cases w with
    | true => decide
    | false => decide
  obtain ⟨h0, hi, hl, hf⟩ := hcode
  generalize accFmt w = m at *
  have hsign : ∀ neg c, c < 2 ^ (m.e + m.f) → m.signBit neg + c < 2 ^ m.width := by
    intro neg c hc
    have h2 : 2 ^ m.width = 2 ^ (m.e + m.f) + 2 ^ (m.e + m.f) := by
      rw [FloatFmt.width, Nat.add_assoc, Nat.pow_add, pow_one, Nat.two_mul]
    rw [h2]
    unfold FloatFmt.signBit
    split
    · exact Nat.add_lt_add_left hc _
    · exact Nat.add_lt_add_of_le_of_lt (Nat.zero_le _) hc
  have hquot : ∀ neg n d, m.roundQuot b mode rnd neg n d < 2 ^ m.width := by
    intro neg n d
    unfold FloatFmt.roundQuot FloatFmt.overflow
    rw [hnan]
    dsimp only
    have hneg := hsign neg 0 (Nat.two_pow_pos _)
    split_ifs with hc
    · exact hneg
    · exact hsign neg _ (hc.trans hf)
    · exact hsign neg _ hl
    · exact hsign neg _ hi
    · exact hsign neg _ hl
    · exact hsign neg _ (Nat.lt_of_le_of_lt (Nat.le_of_not_lt ‹_›) hl)
  unfold FloatFmt.roundExact
  match x with
  | .nan => exact h0
  | .inf n =>
    rw [hnan]
    exact hsign n _ hi
  | .zero n => exact hsign n 0 (Nat.two_pow_pos _)
  | .dyadic z k =>
    dsimp only
    unfold FloatFmt.round
    split
    · exact Nat.two_pow_pos _
    · exact hquot ..
  | .quot neg n d =>
    dsimp only
    split
    · exact hsign neg 0 (Nat.two_pow_pos _)
    · exact hquot ..

theorem packLanes_lt (w : Nat) (p : List Nat) : packLanes w p < 2 ^ (w * p.length) := by
  induction p with
  | nil => exact Nat.two_pow_pos _
  | cons v p ih =>
    rw [packLanes, List.length_cons, Nat.mul_succ, Nat.add_comm (w * _), Nat.pow_add]
    calc v % 2 ^ w + 2 ^ w * packLanes w p < 2 ^ w * 1 + 2 ^ w * packLanes w p := by
          rw [Nat.mul_one]
          exact Nat.add_lt_add_right (Nat.mod_lt _ (Nat.two_pow_pos w)) _
      _ ≤ 2 ^ w * 2 ^ (w * p.length) := by
          rw [← Nat.mul_add, Nat.add_comm]
          exact Nat.mul_le_mul_left _ ih

/-- Each lane of a packed beat is the code packed there (R112). -/
theorem lane_packLanes (w : Nat) (p : List Nat) (j : Nat) : lane w (packLanes w p) j = p.getD j 0 % 2 ^ w := by
  unfold lane
  induction p generalizing j with
  | nil => simp [packLanes]
  | cons v p ih =>
    rw [packLanes]
    cases j with
    | zero => simp
    | succ j =>
      rw [Nat.mul_succ, Nat.add_comm (w * j), Nat.pow_add, ← Nat.div_div_eq_div_mul, Nat.add_mul_div_left _ _ (Nat.two_pow_pos w),
        Nat.mod_div_self, Nat.zero_add]
      exact ih j

theorem lane_wd_packLanes {w : Nat} {p : List Nat} (hp : w * p.length ≤ 64) (j : Nat) :
    lane w (wd (packLanes w p)).toNat j = p.getD j 0 % 2 ^ w := by
  have hlt := (packLanes_lt w p).trans_le (Nat.pow_le_pow_right two_pos hp)
  rw [show (wd (packLanes w p)).toNat = packLanes w p % 2 ^ 64 from BitVec.toNat_ofNat .., Nat.mod_eq_of_lt hlt, lane_packLanes]

theorem getD_pieces {α : Type} (n k : Nat) (l : List α) {j : Nat} (hj : j < k) :
    (pieces n k l).getD j [] = (l.drop (n * j)).take n := by
  induction k generalizing l j with
  | zero => exact absurd hj (Nat.not_lt_zero j)
  | succ k ih =>
    cases j with
    | zero => rfl
    | succ j =>
      refine (ih (l.drop n) (Nat.lt_of_succ_lt_succ hj)).trans ?_
      rw [List.drop_drop, Nat.mul_succ, Nat.add_comm]

theorem length_pieces {α : Type} (n k : Nat) (l : List α) : (pieces n k l).length = k := by
  induction k generalizing l with
  | zero => rfl
  | succ k ih => exact congrArg (· + 1) (ih _)

/-- A beat of a slab of more than one (R93). -/
theorem getD_slabOf (poi : Bool) {ds : List Nat} {j : Nat} (hj : j < ds.length) (hd : ds.length ≠ 1) :
    (slabOf poi ds).getD j {} =
      let kind : Kind := if j = 0 then .head else if j + 1 = ds.length then .tail else .data
      if poi then framedPoison kind else { data := wd (ds.getD j 0), kind } := by
  unfold slabOf
  rw [List.getD_eq_getElem _ _ (by simpa using hj), List.getElem_map, List.getElem_zip, List.getElem_range,
    List.getD_eq_getElem _ _ hj]
  simp only [if_neg hd]

/-- The codes that a block of the region is sent as: exact values need no rounding (R90, R199). -/
def storedCode (s : State) (a : MatArgs) (q c : Nat) : Nat :=
  (accFmt s.wide).roundExact {} .ne 0 ((accFmt s.wide).decode false
    (s.mat.cell a.buf.toNat s.wide (16 * (q / a.n.toNat) + c / 16) (16 * (q % a.n.toNat) + c % 16))).exact

/-- The beats of block q of a region (R199). -/
def storedBlock (s : State) (a : MatArgs) (q : Nat) : List Beat :=
  slabOf (oldMark s a q) ((pieces (64 / cellWidth s) (4 * cellWidth s) ((List.range 256).map (storedCode s a q))).map
    (packLanes (cellWidth s)))

theorem lanes_times (s : State) : 64 / cellWidth s * cellWidth s = 64 ∧ 256 / (64 / cellWidth s) = 4 * cellWidth s ∧
    64 / cellWidth s * (4 * cellWidth s) = 256 ∧ 4 * cellWidth s ≠ 1 := by
  rcases cellWidth_eq s with h | h
  · rw [h]; decide
  · rw [h]; decide

theorem length_storedBlock (s : State) (a : MatArgs) (q : Nat) : (storedBlock s a q).length = 4 * cellWidth s := by
  simp [storedBlock, slabOf, length_pieces]

theorem storedCode_lt (s : State) (a : MatArgs) (q c : Nat) : storedCode s a q c < 2 ^ cellWidth s := by
  rw [← width_accFmt]
  exact roundExact_lt ..

/-- The codes of a beat of a block. -/
theorem lane_storedCode (s : State) (a : MatArgs) (q : Nat) {r j : Nat} (hr : r < 4 * cellWidth s) (hj : j < 64 / cellWidth s) :
    lane (cellWidth s) (wd ((((pieces (64 / cellWidth s) (4 * cellWidth s) ((List.range 256).map (storedCode s a q))).map
      (packLanes (cellWidth s)))).getD r 0)).toNat j = storedCode s a q (r * (64 / cellWidth s) + j) := by
  obtain ⟨h64, -, h256, -⟩ := lanes_times s
  have hc : 64 / cellWidth s * r + j < 256 := calc
    64 / cellWidth s * r + j < 64 / cellWidth s * (r + 1) := Nat.add_lt_add_left hj _
    _ ≤ 64 / cellWidth s * (4 * cellWidth s) := Nat.mul_le_mul_left _ hr
    _ = 256 := h256
  rw [show (0 : Nat) = packLanes (cellWidth s) [] from rfl, List.getD_map, getD_pieces _ _ _ hr, lane_wd_packLanes]
  · rw [List.getD_eq_getElem?_getD, List.getElem?_take_of_lt hj, List.getElem?_drop, ← List.getD_eq_getElem?_getD,
      getD_map_range _ _ hc, Nat.mod_eq_of_lt (storedCode_lt ..), Nat.mul_comm]
  · rw [Nat.mul_comm]
    exact (Nat.mul_le_mul_right _ (List.length_take_le ..)).trans_eq h64

theorem storedBlock_beat (s : State) (a : MatArgs) (q : Nat) {r : Nat} (hr : r < 4 * cellWidth s) :
    ((storedBlock s a q).getD r {}).poi = oldMark s a q ∧
    ((storedBlock s a q).getD r {}).kind = (if r = 0 then .head else if r + 1 = 4 * cellWidth s then .tail else .data) ∧
    (oldMark s a q = false → ∀ j < 64 / cellWidth s,
      lane (cellWidth s) ((storedBlock s a q).getD r {}).data.toNat j = storedCode s a q (r * (64 / cellWidth s) + j)) := by
  obtain ⟨-, -, -, h1⟩ := lanes_times s
  have hlane := fun j => lane_storedCode s a q (j := j) hr
  have hlen : ((pieces (64 / cellWidth s) (4 * cellWidth s) ((List.range 256).map (storedCode s a q))).map
      (packLanes (cellWidth s))).length = 4 * cellWidth s := (List.length_map ..).trans (length_pieces ..)
  unfold storedBlock
  generalize (pieces (64 / cellWidth s) (4 * cellWidth s) ((List.range 256).map (storedCode s a q))).map
      (packLanes (cellWidth s)) = ds at *
  rw [getD_slabOf _ (hr.trans_eq hlen.symm) (by rw [hlen]; exact h1), hlen]
  cases oldMark s a q with
  | true => exact ⟨rfl, rfl, nofun⟩
  | false => exact ⟨rfl, rfl, fun _ => hlane⟩

/-! ## The region sent (R199), and the obligation -/

/-- The beats of the region, block by block. -/
def storedBeats (s : State) (a : MatArgs) : List Beat := (List.range (a.m.toNat * a.n.toNat)).flatMap (storedBlock s a)

/-- Steps that each send the beats of their index on CX, whatever the state, send them one after another. -/
theorem NodeGoes.foldl_sends {s : State} {m : Matrix} {d : BitVec 9} {f : State → Nat → State} {β : Nat → List Beat}
    (hf : ∀ t x q, x.cx = d → NodeGoes s t x m →
      ∃ gs, NodeGoes s (f t q) { x with out := x.out ++ sent d (β q), gens := gs } m)
    (l : List Nat) {t : State} {x : Slot} (h : NodeGoes s t x m) (hx : x.cx = d) :
    ∃ gs, NodeGoes s (l.foldl f t) { x with out := x.out ++ sent d (l.flatMap β), gens := gs } m := by
  induction l generalizing t x with
  | nil =>
    refine ⟨x.gens, ?_⟩
    rw [List.flatMap_nil, sent_nil, List.append_nil]
    exact h
  | cons q l ih =>
    obtain ⟨gs, h1⟩ := hf t x q hx h
    obtain ⟨gs', h2⟩ := ih h1 hx
    refine ⟨gs', ?_⟩
    rw [List.flatMap_cons, sent_append, ← List.append_assoc]
    exact h2

/-- A block in an ordinary format, its values exact there, is sent as one slab of codes (R90, R199). -/
theorem NodeGoes.emitBlock {s t : State} {x : Slot} {m : Matrix} (h : NodeGoes s t x m) {tgt : Fmt} (hk : tgt.kind ≠ .mx)
    (mode : RMode) (poi : Bool) (vs : List FVal) :
    ∃ gs, NodeGoes s (t.emitBlock tgt mode true poi vs) { x with
      out := x.out ++ sent x.cx (slabOf poi ((pieces (64 / tgt.w) (vs.length / (64 / tgt.w))
        (vs.map fun v => tgt.fl.roundExact tgt.b .ne 0 v.exact)).map (packLanes tgt.w)))
      gens := gs } m := by
  unfold State.emitBlock
  rw [if_neg hk]
  exact (h.xOut _).setXGen _

theorem dcvtFmt_zero (w : Bool) :
    (dcvtFmt w 0).kind ≠ .mx ∧ (dcvtFmt w 0).w = (accFmt w).width ∧ (dcvtFmt w 0).fl = accFmt w ∧ (dcvtFmt w 0).b = {} := by
  cases w with
  | true => exact ⟨nofun, rfl, rfl, rfl⟩
  | false => exact ⟨nofun, rfl, rfl, rfl⟩

/-- The values of block q of the region. -/
def blockCells (t : State) (a : MatArgs) (q : Nat) : List FVal := (List.range 256).map fun c =>
  (accFmt t.wide).decode false
    (t.mat.cell a.buf.toNat t.wide (16 * (q / a.n.toNat) + c / 16) (16 * (q % a.n.toNat) + c % 16))

/-- The working copy that clears a region (R199). -/
def clearedWork (w : Bool) (a : MatArgs) : MatWork where
  buf := a.buf.toNat
  wide := w
  m := a.m.toNat
  n := a.n.toNat
  cells := List.replicate (16 * a.m.toNat * (16 * a.n.toNat)) 0
  marks := List.replicate (a.m.toNat * a.n.toNat) false

/-- ASTORE and ASTOREZ with DCVT 0 send the region's blocks, then end (R199). -/
theorem storeOp_eq (t : State) {a : MatArgs} (zero : Bool) (hd : a.dcvt = 0) :
    t.storeOp a zero =
      let u := (List.range (a.m.toNat * a.n.toNat)).foldl (fun v q =>
        v.emitBlock (dcvtFmt t.wide 0) t.xs.round true (oldMark t a q) (blockCells t a q)) t
      if zero then u.putWork (clearedWork t.wide a) else u.doneOp := by
  unfold State.storeOp
  rw [hd]
  rfl

theorem slabOf_blockCells {s t : State} (a : MatArgs) (q : Nat) (hw : t.wide = s.wide) (hm : t.mat = openedMat s) :
    slabOf (oldMark t a q) ((pieces (64 / (dcvtFmt t.wide 0).w) ((blockCells t a q).length / (64 / (dcvtFmt t.wide 0).w))
      ((blockCells t a q).map fun v => (dcvtFmt t.wide 0).fl.roundExact (dcvtFmt t.wide 0).b .ne 0 v.exact)).map
        (packLanes (dcvtFmt t.wide 0).w)) = storedBlock s a q := by
  obtain ⟨-, h256, -, -⟩ := lanes_times s
  obtain ⟨-, hwidth, hfl, hb⟩ := dcvtFmt_zero t.wide
  have hlen : (blockCells t a q).length = 256 := (List.length_map ..).trans (List.length_range ..)
  rw [hlen, hwidth, hfl, hb, hw, width_accFmt, h256, blockCells, List.map_map, hw, hm]
  unfold oldMark
  rw [hw, hm]
  rfl

/-- A free node that may store sends the region and ends (R195, R199). -/
theorem store_sends {s : State} {a : MatArgs} (hs : nodeFree s) (hg : inGrid s a) (hv : a.valid .store = true) (hd : a.dcvt = 0)
    (zero : Bool) : ∃ u gs,
      s.matrixOp .store a (fun _ _ => []) (fun t x => storeValid t x a true) (fun t => t.storeOp a zero) =
        (if zero then u.putWork (clearedWork s.wide a) else u.doneOp) ∧
      NodeGoes s u { s.xs with out := s.xs.out ++ sent s.xs.cx (storedBeats s a), gens := gs } (openedMat s) := by
  have h := NodeGoes.openPorts s [] nofun
  have hw := (wide_of_goes h rfl).2
  have hvalid : storeValid ((s.openPorts []).tile s.curTile) (s.openPorts []).xs a true = true := by
    unfold storeValid
    rw [regionValid_of_inGrid h rfl hg, hd]
    rfl
  obtain ⟨gs, hu⟩ := NodeGoes.foldl_sends (β := storedBlock s a) (fun v x q hx hv => by
    have := hv.emitBlock (dcvtFmt_zero (s.openPorts []).wide).1 (s.openPorts []).xs.round (oldMark (s.openPorts []) a q)
      (blockCells (s.openPorts []) a q)
    rwa [slabOf_blockCells a q hw h.mat_eq, hx] at this) (List.range (a.m.toNat * a.n.toNat)) h rfl
  refine ⟨_, gs, (matrixOp_of_valid hs hv (fun t => t.storeOp a zero) rfl hvalid).trans ((storeOp_eq _ zero hd).trans ?_), hu⟩
  rw [hw]

theorem succ_mod_eq_zero {n : Nat} (hn : 0 < n) (k : Nat) : (k + 1) % n = 0 ↔ k % n + 1 = n := by
  obtain ⟨n, rfl⟩ := Nat.exists_eq_succ_of_ne_zero hn.ne'
  rw [Nat.succ_mod_succ_eq_zero_iff, Nat.succ_inj]

/-- What ASTORE and ASTOREZ send. -/
theorem storedBeats_spec (s : State) (a : MatArgs) :
    (storedBeats s a).length = a.m.toNat * a.n.toNat * (4 * cellWidth s) ∧
    ∀ k < (storedBeats s a).length, ((storedBeats s a).getD k {}).poi = oldMark s a (k / (4 * cellWidth s)) ∧
      ((storedBeats s a).getD k {}).kind =
        (if k % (4 * cellWidth s) = 0 then .head else if (k + 1) % (4 * cellWidth s) = 0 then .tail else .data) ∧
      (oldMark s a (k / (4 * cellWidth s)) = false → ∀ j < 64 / cellWidth s,
        lane (cellWidth s) ((storedBeats s a).getD k {}).data.toNat j =
          storedCode s a (k / (4 * cellWidth s)) (k % (4 * cellWidth s) * (64 / cellWidth s) + j)) := by
  have hlen : (storedBeats s a).length = a.m.toNat * a.n.toNat * (4 * cellWidth s) := by
    simp [storedBeats, List.length_flatMap, length_storedBlock]
  have hpos : 0 < 4 * cellWidth s := by
    obtain ⟨-, hlen, -⟩ := cellWidth_lanes s
    exact lt_of_lt_of_le two_pos hlen
  refine ⟨hlen, fun k hk => ?_⟩
  have hq : k / (4 * cellWidth s) < a.m.toNat * a.n.toNat := by
    rw [Nat.div_lt_iff_lt_mul hpos, ← hlen]
    exact hk
  have hrange : (List.range (a.m.toNat * a.n.toNat)).getD (k / (4 * cellWidth s)) 0 = k / (4 * cellWidth s) :=
    (List.getD_eq_getElem _ _ (by rwa [List.length_range])).trans (List.getElem_range _)
  have hb : (storedBeats s a).getD k {} = (storedBlock s a (k / (4 * cellWidth s))).getD (k % (4 * cellWidth s)) {} := by
    rw [storedBeats, getD_flatMap hpos (length_storedBlock s a) 0 _ _ _ (.inl (by rwa [List.length_range])), hrange]
  obtain ⟨hp, hk, hl⟩ := storedBlock_beat s a (k / (4 * cellWidth s)) (Nat.mod_lt k hpos)
  rw [hb]
  simp only [succ_mod_eq_zero hpos]
  exact ⟨hp, hk, hl⟩

theorem astore_ends {s : State} {a : MatArgs} (hs : nodeFree s) (hg : inGrid s a) (hv : a.valid .store = true) (hd : a.dcvt = 0) :
    ends (.mxAstore a) s (fun bs t => bs = storedBeats s a ∧ t.mat.store = s.mat.store) := by
  obtain ⟨u, gs, hrun, hu⟩ := store_sends hs hg hv hd false
  have he : exec (.mxAstore a) s = .next u.doneOp := congrArg Host.Outcome.next (hrun.trans (if_neg Bool.false_ne_true))
  have k := hu.doneOp
  have hdone := tokenDone_of_goes k rfl rfl rfl
  obtain ⟨-, hx, hm⟩ := k
  obtain ⟨-, -, -, hwork⟩ := hs
  have hcm := congrArg Matrix.committed hm
  have hst := congrArg Matrix.store hm
  exact ⟨_, _, he, hdone, (congrArg Matrix.work hm).trans hwork, hcm, congrArg Slot.out hx, rfl, hst⟩

theorem astorez_clears {s : State} {a : MatArgs} (hs : nodeFree s) (hg : inGrid s a) (hv : a.valid .store = true)
    (hd : a.dcvt = 0) : ∃ t w, exec (.mxAstorez a) s = .next t ∧ tokenDone s t ∧ t.mat.work = some w ∧ w.buf = a.buf.toNat ∧
      w.m = a.m.toNat ∧ w.n = a.n.toNat ∧ (∀ c ∈ w.cells, c = 0) ∧ (∀ m ∈ w.marks, m = false) ∧
      t.xs.out = s.xs.out ++ sent s.xs.cx (storedBeats s a) := by
  obtain ⟨u, gs, hrun, hu⟩ := store_sends hs hg hv hd true
  have he : exec (.mxAstorez a) s = .next (u.putWork (clearedWork s.wide a)) :=
    congrArg Host.Outcome.next (hrun.trans (if_pos rfl))
  have k := hu.putWork (clearedWork s.wide a)
  have hdone := tokenDone_of_goes k rfl rfl rfl
  obtain ⟨-, hx, hm⟩ := k
  exact ⟨_, _, he, hdone, congrArg Matrix.work hm, rfl, rfl, rfl, fun c hc => List.eq_of_mem_replicate hc,
    fun c hc => List.eq_of_mem_replicate hc, congrArg Slot.out hx⟩

theorem bufferOperations : BufferOperations := by
  refine fun s a hs hg => ⟨fun hv => ⟨azero_copies hs hg hv, fun l hl => ⟨aload_copies hs hg hv hl, aadd_copies hs hg hv hl⟩,
    fun d hl => ⟨vector_copies hs hg hv hl false rfl, vector_copies hs hg hv hl true rfl⟩⟩, fun hv hd P hP => ?_⟩
  have hbeats : P (storedBeats s a) := hP ▸ storedBeats_spec s a
  obtain ⟨t, bs, he, ht, hw, hc, ho, rfl, hst⟩ := astore_ends hs hg hv hd
  obtain ⟨t', w, he', ht', hw', hb, hm, hn, hcells, hmarks, ho'⟩ := astorez_clears hs hg hv hd
  exact ⟨⟨t, _, he, ht, hw, hc, ho, hbeats, hst⟩, t', w, _, he', ht', hw', hb, hm, hn, hcells, hmarks, ho', hbeats⟩

/-- Settles O42: every turn of the matrix node is a chain of moves of the node alone, whose slot and state are carried along. -/
theorem matrixControl : Obligations.MatrixControl := by
  unfold Obligations.MatrixControl
  exact ⟨controlTokens, bufferOperations⟩

end Sys2Proof.Claims

/-! # Proofs of the token family: floating arithmetic (O28), conversions (O31), blocks and slabs (O36) -/

namespace Sys2Proof.Claims
open Sys2Proof Sys2Proof.Machine

-- Proofs elaborated side by side, each in a thread of its own, would need more memory than the check leaves.
set_option Elab.async false

/-! ## The acting slot's own moves (R73, R100, R102)

`SlotGoes s t x`: of tiles and slots only the acting slot differs, and it stands as x. -/

theorem now_of_nothingElse {s t : State} (h : nothingElse s t) : t.curSlot = s.curSlot ∧ t.fc = s.fc := by
  have := congrArg (fun u : State => (u.curSlot, u.fc)) h.2.2.2
  exact Prod.mk.inj this

theorem onlyHere_of_quiet {s t : State} (h : Quiet s t) : onlyHere s t :=
  ⟨fun p n _ => by rw [State.slot, h.tile]; rfl, fun p => by rw [h.tile], h.2⟩

theorem handleOf_of_onlyHere {s t : State} (h : onlyHere s t) (p : Nat) : t.handleOf p = s.handleOf p := by
  obtain ⟨-, ht, -⟩ := h
  have := congrArg (fun y : Tile => y.group.getD 0) (ht p)
  exact this

theorem onlyHere_trans {s t u : State} (h : onlyHere s t) (k : onlyHere t u) : onlyHere s u := by
  have hh := handleOf_of_onlyHere h s.curTile
  obtain ⟨hs, ht, he⟩ := h
  obtain ⟨ks, kt, ke⟩ := k
  rw [curTile_of_nothingElse he, (now_of_nothingElse he).1] at ks
  exact ⟨fun p n hp => (ks p n hp).trans (hs p n hp), fun p => (kt p).trans (ht p),
    nothingElse_trans (by rw [curTile_of_nothingElse he, hh]) he ke⟩

/-- A port is one of the four. -/
theorem forall_port {P : Nat → Prop} (h0 : P 0) (h1 : P 1) (h2 : P 2) (h3 : P 3) : ∀ q < 4, P q :=
  Nat.forall_lt_succ_right.2 ⟨Nat.forall_lt_succ_right.2 ⟨Nat.forall_lt_succ_right.2 ⟨Nat.forall_lt_succ_right.2
    ⟨fun _ h => absurd h (Nat.not_lt_zero _), h0⟩, h1⟩, h2⟩, h3⟩

/-- The slot with a port set reads it back, and every other port as before. -/
theorem port_setPort (x : Slot) (l : List Arrived) : ∀ o < 4, ∀ q < 4, (x.setPort o l).port q = if q = o then l else x.port q :=
  forall_port (forall_port rfl rfl rfl rfl) (forall_port rfl rfl rfl rfl) (forall_port rfl rfl rfl rfl) (forall_port rfl rfl rfl rfl)

/-- The slot with results issued into its pipeline. -/
noncomputable def piped (x : Slot) (l : List Issued) : Slot := { x with pipe := x.pipe ++ l }

/-- The slot with beats in its result queue. -/
noncomputable def queued (x : Slot) (l : List (BitVec 9 × Beat)) : Slot := { x with out := x.out ++ l }

theorem piped_nil (x : Slot) : piped x [] = x := congrArg (fun l => { x with pipe := l }) (List.append_nil x.pipe)

theorem queued_nil (x : Slot) : queued x [] = x := congrArg (fun l => { x with out := l }) (List.append_nil x.out)

theorem piped_piped (x : Slot) (l m : List Issued) : piped (piped x l) m = piped x (l ++ m) :=
  congrArg (fun l => { x with pipe := l }) (List.append_assoc x.pipe l m)

theorem queued_queued (x : Slot) (l m : List (BitVec 9 × Beat)) : queued (queued x l) m = queued x (l ++ m) :=
  congrArg (fun l => { x with out := l }) (List.append_assoc x.out l m)

theorem slots_setSlot (s : State) (p n : Nat) (x : Slot) (q : Nat) :
    ((s.setSlot p n x).tile q).slots = if q = p then put (s.tile p).slots n x else (s.tile q).slots :=
  (congrArg Tile.slots (tile_setTile ..)).trans (apply_ite Tile.slots ..)

/-- From s to t only the acting slot moves, to x. -/
def SlotGoes (s t : State) (x : Slot) : Prop := onlyHere s t ∧ t.el = x

namespace SlotGoes

variable {s t u : State} {x y : Slot}

theorem only (h : SlotGoes s t x) : onlyHere s t := h.1

theorem el_eq (h : SlotGoes s t x) : t.el = x := h.2

theorem else_ (h : SlotGoes s t x) : nothingElse s t := by
  obtain ⟨⟨-, -, he⟩, -⟩ := h
  exact he

theorem curTile (h : SlotGoes s t x) : t.curTile = s.curTile := curTile_of_nothingElse h.else_

theorem curSlot (h : SlotGoes s t x) : t.curSlot = s.curSlot := (now_of_nothingElse h.else_).1

theorem fc (h : SlotGoes s t x) : t.fc = s.fc := (now_of_nothingElse h.else_).2

theorem handleOf (h : SlotGoes s t x) : t.handleOf s.curTile = s.handleOf s.curTile := handleOf_of_onlyHere h.1 s.curTile

/-- The formats of a tile stand (R83). -/
theorem env (h : SlotGoes s t x) (y : Slot) : (t.tile t.curTile).env y = (s.tile s.curTile).env y := by
  have := congrArg (Tile.env · y) (h.only.2.1 s.curTile)
  rw [h.curTile]
  exact this

theorem of_quiet (h : Quiet s t) : SlotGoes s t s.el :=
  ⟨onlyHere_of_quiet h, by
    rw [State.el, State.slot, h.curTile, (now_of_nothingElse h.2).1, h.tile]
    rfl⟩

theorem refl (s : State) : SlotGoes s s s.el := of_quiet (.refl s)

theorem trans (h : SlotGoes s t x) (k : SlotGoes t u y) : SlotGoes s u y := ⟨onlyHere_trans h.1 k.1, k.2⟩

theorem quiet (h : SlotGoes s t x) (q : Quiet t u) : SlotGoes s u x := by
  obtain ⟨-, rfl⟩ := id h
  exact h.trans (of_quiet q)

theorem posts (h : SlotGoes s t x) (q : Posts t u) : SlotGoes s u x := h.quiet (.of_posts q)

theorem setSlot (s : State) (x : Slot) : SlotGoes s (s.setSlot s.curTile s.curSlot x) x := by
  refine ⟨⟨fun p n hp => ?_, fun p => ?_, nothingElse_setTile ..⟩, ?_⟩
  · unfold State.slot
    rw [slots_setSlot]
    split
    · next h => exact h ▸ look_put_other _ _ _ (hp.resolve_left (absurd h))
    · rfl
  · by_cases h : p = s.curTile
    · subst h
      rw [State.setSlot, tile_setTile_same]
    · rw [State.setSlot, tile_setTile, if_neg h]
  · rw [State.el, State.slot, State.setSlot_curTile, State.setSlot_curSlot, slots_setSlot, if_pos rfl]
    exact look_put_same ..

theorem ite {c : Prop} [Decidable c] (h : c → SlotGoes s t x) (h' : ¬c → SlotGoes s u x) :
    SlotGoes s (if c then t else u) x := by
  split
  · next hc => exact h hc
  · next hc => exact h' hc

theorem moved (h : SlotGoes s t x) : SlotGoes s (t.moved s.curTile) x := h.curTile ▸ h.quiet (Quiet.moved t)

/-- A step of the acting slot, from where another has left it. -/
theorem step {f : State → Nat → Nat → State} {y : Slot → Slot} (hf : ∀ t : State, SlotGoes t (f t t.curTile t.curSlot) (y t.el))
    (h : SlotGoes s t x) : SlotGoes s (f t s.curTile s.curSlot) (y x) := by
  have := h.trans (hf t)
  rwa [h.curTile, h.curSlot, h.el_eq] at this

/-- Beats of a port taken: k from its head (R102). -/
theorem takeFrom (h : SlotGoes s t x) (o k : Nat) :
    SlotGoes s (t.takeFrom s.curTile s.curSlot o k) (x.setPort o ((x.port o).drop k)) := by
  refine h.step (f := fun a p n => a.takeFrom p n o k) (y := fun x => x.setPort o ((x.port o).drop k)) fun t => ite (fun hk => ?_)
    fun _ => moved ?_
  · subst hk
    exact (setPort_port t.el o).symm ▸ refl t
  · have h1 := setSlot t (t.el.setPort o ((t.el.port o).drop k))
    have h2 := h1.quiet (Quiet.foldl_countTaken _ t.el.region _ h1.handleOf ((t.el.port o).take k))
    have h3 := ite (c := portRoom ≤ (t.el.port o).length) (fun _ => h2.posts (.nudge _ (t.handleOf t.curTile))) fun _ => h2
    split
    · exact ite (fun _ => h3.posts (.postOnce ..)) fun _ => h3
    · exact h3

/-- A result issued, to emerge in fc `due` (R100). -/
theorem emitAt (h : SlotGoes s t x) (due : Nat) (d : BitVec 9) (b : Beat) :
    SlotGoes s (t.emitAt s.curTile s.curSlot due d b) (piped x (issued d due b)) := by
  refine h.step (f := fun a p n => a.emitAt p n due d b) (y := fun x => piped x (issued d due b)) fun t => ite (fun hd => ?_)
    fun hd => ?_
  · have hi : issued d due b = [] := if_pos hd
    exact hi.symm ▸ (piped_nil t.el).symm ▸ refl t
  · have hi : issued d due b = [⟨due, d, b⟩] := if_neg hd
    exact hi.symm ▸ (setSlot t _).posts (.postOnce ..)

/-- A result sent at once (R105). -/
theorem emitNow (h : SlotGoes s t x) (d : BitVec 9) (b : Beat) :
    SlotGoes s (t.emitNow s.curTile s.curSlot d b) (queued x (sent d [b])) := by
  refine h.step (f := fun a p n => a.emitNow p n d b) (y := fun x => queued x (sent d [b])) fun t => ite (fun hd => ?_)
    fun hd => ?_
  · have hs : sent d [b] = [] := if_pos hd
    exact hs.symm ▸ (queued_nil t.el).symm ▸ refl t
  · have hs : sent d [b] = [(d, b)] := if_neg hd
    exact hs.symm ▸ ((setSlot t _).posts (.postOnce ..)).moved

theorem emitAll (h : SlotGoes s t x) (d : BitVec 9) (bs : List Beat) :
    SlotGoes s (t.emitAll s.curTile s.curSlot d bs) (queued x (sent d bs)) := by
  induction bs generalizing t x with
  | nil =>
    rw [sent_nil, queued_nil]
    exact h
  | cons b bs ih =>
    have := ih (h.emitNow d b)
    rwa [queued_queued, ← sent_append] at this

/-- Results of one list issued to both consumers, in its order (R100, R124). -/
theorem emitPairs {α : Type} (due : α → Nat) (bx cy : α → Beat) (dx dy : BitVec 9) (l : List α) (h : SlotGoes s t x) :
    SlotGoes s (l.foldl (fun a r => (a.emitAt s.curTile s.curSlot (due r) dx (bx r)).emitAt s.curTile s.curSlot (due r) dy (cy r)) t)
      (piped x (l.flatMap fun r => issued dx (due r) (bx r) ++ issued dy (due r) (cy r))) := by
  induction l generalizing t x with
  | nil => exact (piped_nil x).symm ▸ h
  | cons r l ih =>
    have := ih ((h.emitAt (due r) dx (bx r)).emitAt (due r) dy (cy r))
    rwa [piped_piped, piped_piped, ← List.append_assoc] at this

end SlotGoes

/-- The slot with k beats taken from each of some ports. -/
noncomputable def dropAll (k : Nat) (l : List Nat) (x : Slot) : Slot := l.foldl (fun y o => y.setPort o ((y.port o).drop k)) x

theorem SlotGoes.takeAll {s t : State} {x : Slot} (h : SlotGoes s t x) (k : Nat) (l : List Nat) :
    SlotGoes s (l.foldl (fun a o => a.takeFrom s.curTile s.curSlot o k) t) (dropAll k l x) := by
  induction l generalizing t x with
  | nil => exact h
  | cons o l ih => exact ih (h.takeFrom o k)

theorem port_dropAll (k : Nat) {l : List Nat} (hl : l.Nodup) (h4 : ∀ o ∈ l, o < 4) (x : Slot) {q : Nat} (hq : q < 4) :
    (dropAll k l x).port q = if q ∈ l then (x.port q).drop k else x.port q := by
  induction l generalizing x with
  | nil => rfl
  | cons o l ih =>
    obtain ⟨hno, hl⟩ := List.nodup_cons.1 hl
    have ho := h4 o (.head _)
    refine (ih hl (fun q hq => h4 q (.tail _ hq)) (x.setPort o ((x.port o).drop k))).trans ?_
    have hp := port_setPort x ((x.port o).drop k) o ho q hq
    by_cases hqo : q = o
    · exact (if_neg (mt (hqo ▸ ·) hno)).trans ((hp.trans (if_pos hqo)).trans ((congrArg (fun p => (x.port p).drop k) hqo.symm).trans
        (if_pos (List.mem_cons.2 (.inl hqo))).symm))
    · exact (congrArg (fun y => if q ∈ l then y.drop k else y) (hp.trans (if_neg hqo))).trans
        (if_congr (List.mem_cons.trans (or_iff_right hqo)).symm rfl rfl)

/-- Two slots that differ in their ports alone. -/
def sameButPorts (x y : Slot) : Prop := { y with portA := x.portA, portB := x.portB, portC := x.portC, portP := x.portP } = x

theorem sameButPorts_dropAll (k : Nat) (l : List Nat) (x : Slot) : sameButPorts x (dropAll k l x) := by
  have step : ∀ (y : Slot) o m, sameButPorts x y → sameButPorts x (y.setPort o m) := by
    intro y o m h
    match o with
    | 0 | 1 | 2 | _ + 3 => exact h
  have all : ∀ y, sameButPorts x y → sameButPorts x (dropAll k l y) := by
    induction l with
    | nil => exact fun y h => h
    | cons o l ih => exact fun y h => ih _ (step y o _ h)
  exact all x rfl

/-- The slot of an element that stands is the slot it bears (R46). -/
theorem SlotGoes.bearing {s : State} {op : Nat} {a : ElemArgs} (hw : s.el.word = BitVec.ofNat 32 (op * 2 ^ 24 + a.bits)) :
    SlotGoes s (s.bearing op a) s.el := by
  have h := SlotGoes.setSlot s { s.el with word := BitVec.ofNat 32 (op * 2 ^ 24 + a.bits) }
  rw [← hw] at h
  unfold State.bearing
  rw [← hw]
  exact h

/-! ## Firing (R100, R101, R107-R109, R111) -/

/-- What copy k of a firing sends that takes beats of ports r and has operands w (R100). -/
noncomputable def copyOf (s : State) (c : Compute) (ports : List Nat) (r : List Nat) (w : Nat → Nat → Beat) (k : Nat) : Sent :=
  fireCopy ((s.tile s.curTile).env s.el) c (s.el.gen k) (LoopEnds.of ((List.range s.el.copies).flatMap fun k => r.map fun o => w o k))
    (r.map fun o => w o k) (ports.map fun o => w o k)

/-- What copy k of a firing sends, and its generator. -/
noncomputable def copySent (s : State) (c : Compute) (ports : List Nat) : Nat → Sent :=
  copyOf s c ports s.el.reads (operandBeat s.el)

theorem copySent_of_goes {s t : State} (h : SlotGoes s t s.el) (c : Compute) (ports : List Nat) :
    copySent t c ports = copySent s c ports := by
  funext k
  unfold copySent copyOf
  rw [h.el_eq, h.env]

/-- The slot with other generators. -/
noncomputable def withGens (x : Slot) (t : Table (BitVec 32)) : Slot := { x with gens := t }

/-- The generators of a slot's copies once copy k has sent b k (R89). -/
noncomputable def gensAfter (x : Slot) (b : Nat → Sent) : Table (BitVec 32) :=
  (List.range x.copies).foldl (fun t k => if x.round = .sr then put t k (b k).gen else t) x.gens

theorem find_foldl_put {α : Type} (g : Nat → α) (n : Nat) (t : Table α) (k : Nat) :
    find ((List.range n).foldl (fun t j => put t j (g j)) t) k = if k < n then some (g k) else find t k := by
  induction n with
  | zero => rfl
  | succ n ih =>
    rw [List.range_succ, List.foldl_append, List.foldl_cons, List.foldl_nil]
    by_cases hk : k = n
    · rw [hk, find_put_same, if_pos (Nat.lt_succ_self n)]
    · rw [find_put_other _ _ hk, ih]
      exact if_congr (Nat.lt_succ_iff_lt_or_eq.trans (or_iff_left hk)).symm rfl rfl

theorem gen_gensAfter (x : Slot) (b : Nat → Sent) {k : Nat} (hk : k < x.copies) :
    (withGens x (gensAfter x b)).gen k = if x.round = .sr then (b k).gen else x.gen k := by
  unfold gensAfter
  split
  · exact congrArg (Option.getD · _) ((find_foldl_put (fun k => (b k).gen) x.copies x.gens k).trans (if_pos hk))
  · exact congrArg (fun t => (withGens x t).gen k) (List.foldl_fixed ..)

theorem gensAfter_congr {x : Slot} {b c : Nat → Sent} (h : ∀ k < x.copies, b k = c k) : gensAfter x b = gensAfter x c :=
  List.foldl_ext _ _ _ fun t k hk => congrArg (fun b : Sent => if x.round = .sr then put t k b.gen else t) (h k (List.mem_range.1 hk))

/-- The results of a slot's copies, issued in fc `due` (R100). -/
noncomputable def firedPipe (x : Slot) (due : Nat) (b : Nat → Sent) : List Issued :=
  (List.range x.copies).flatMap fun k => issued x.cx due (b k).x ++ issued x.cy due (b k).y

/-- A slot once its copies have taken beats of ports r and sent b: its generators, its ports and its pipeline (R100). -/
noncomputable def firedSlot (x : Slot) (due : Nat) (r : List Nat) (b : Nat → Sent) : Slot :=
  piped (dropAll x.copies r (withGens x (gensAfter x b))) (firedPipe x due b)

theorem Quiet.countErrors {s t : State} (q : Quiet s t) (l : List Nat) :
    Quiet s (l.foldl (fun a _ => a.countError (s.handleOf s.curTile)) t) := by
  induction l generalizing t with
  | nil => exact q
  | cons _ l ih =>
    have hq := Quiet.countError t
    rw [q.curTile, q.handleOf] at hq
    exact ih (q.trans hq)

/-- The errors of a firing counted (R111). -/
theorem SlotGoes.countErrors {s t : State} {x : Slot} (h : SlotGoes s t x) (k : Nat) :
    SlotGoes s (t.countErrors s.curTile k) x := by
  rw [← h.curTile]
  exact h.quiet ((Quiet.refl t).countErrors _)

theorem fireWith_goes (s : State) (c : Compute) (ports : List Nat) :
    SlotGoes s (s.fireWith c ports) (firedSlot s.el (s.fc + latOf s.el.op) s.el.reads (copySent s c ports)) := by
  have hgens : gensAfter s.el (fun k => ((List.range s.el.copies).map (copySent s c ports)).getD k {}) = gensAfter s.el (copySent s c ports) :=
    gensAfter_congr fun k hk => getD_map_range _ _ hk
  have hslot : piped (dropAll s.el.copies s.el.reads (withGens s.el (gensAfter s.el fun k =>
      ((List.range s.el.copies).map (copySent s c ports)).getD k {}))) (((List.range s.el.copies).map (copySent s c ports)).flatMap fun b =>
        issued s.el.cx (s.fc + latOf s.el.op) b.x ++ issued s.el.cy (s.fc + latOf s.el.op) b.y) = firedSlot _ _ _ _ :=
    congrArg₂ (fun t l => piped (dropAll s.el.copies s.el.reads (withGens s.el t)) l) hgens (List.flatMap_map ..)
  exact (congrArg (SlotGoes s _) hslot).mp ((((SlotGoes.setSlot s _).takeAll s.el.copies s.el.reads).emitPairs
    (fun _b => s.fc + latOf s.el.op) Sent.x Sent.y s.el.cx s.el.cy ((List.range s.el.copies).map (copySent s c ports))).countErrors _).moved

/-- The operation of a slot is the one its word names (R46). -/
theorem op_of_word {x : Slot} {op : Nat} {a : ElemArgs} (hop : op < 256) (hw : x.word = BitVec.ofNat 32 (op * 2 ^ 24 + a.bits)) :
    x.op = op := by
  obtain ⟨-, hfld, hlt⟩ := (word_elem (a := a) hop).1 rfl
  have hx : x.word.toNat = op * 16777216 + a.bits := by rw [hw, BitVec.toNat_ofNat]; exact Nat.mod_eq_of_lt hlt
  rw [Slot.op, hx]
  unfold fld at hfld
  rwa [Nat.mod_eq_of_lt (Nat.div_lt_of_lt_mul (hlt.trans_eq (Nat.pow_add 2 24 8)))] at hfld

/-- A word operation reads each of its ports once (R110). -/
theorem wordReads_ports : ∀ op < 0x50, (wordReads op).Nodup ∧ ∀ o ∈ wordReads op, o < 4 := by decide +kernel

theorem avail_prefix (l : List Arrived) : avail l <+: l := by
  unfold avail
  split
  · split
    · exact List.dropLast_prefix l
    · exact List.prefix_rfl
  · exact List.prefix_rfl

/-- A port that has a beat for each copy, and no configuration word among them, gives them (R101, R109). -/
theorem firstBeats_isSome {l : List Arrived} {k : Nat} (hl : k ≤ (avail l).length)
    (hc : ∀ j < k, (l.getD j {}).beat.cfg = false) : (firstBeats l k).isSome = true := by
  have hall : ((avail l).take k).all (fun a => !a.beat.cfg) = true := by
    refine List.all_eq_true.2 fun a ha => ?_
    obtain ⟨j, hj, rfl⟩ := List.mem_take_iff_getElem.1 ha
    have hjl := lt_of_lt_of_le hj (Nat.min_le_right ..)
    rw [(avail_prefix l).getElem hjl, ← List.getD_eq_getElem l {}, hc j (lt_of_lt_of_le hj (Nat.min_le_left ..))]
    rfl
  exact congrArg Option.isSome (if_pos (Bool.and_eq_true_iff.2 ⟨decide_eq_true (List.length_take_of_le hl), hall⟩))

/-- No word at the head of any port. -/
theorem noWord_of_heads {x : Slot} (h : ∀ o < 4, ((x.port o).headD {}).beat.cfg = false) : State.noWord x = true := by
  unfold State.noWord
  rw [List.all_eq_true]
  intro o ho
  have := h o (List.mem_range.1 ho)
  split
  · next a l hl =>
    rw [hl] at this
    rw [show a.beat.cfg = false from this]
    rfl
  · rfl

theorem ne_empty_of_stands {x : Slot} (h : x.st = .armed ∨ x.st = .gated) : x.st ≠ .empty := fun he =>
  h.elim (fun hs => nomatch hs.symm.trans he) fun hs => nomatch hs.symm.trans he

theorem live_of_stands {x : Slot} (hs : x.st = .armed ∨ x.st = .gated) (hh : x.held = false) : x.live = true := by
  rw [Slot.live, hh]
  rcases hs with h | h
  · rw [h]
    rfl
  · rw [h]
    rfl

/-- The firing of word operation op (R110). -/
noncomputable def wordFiring (op : Nat) (a : ElemArgs) : Firing := ⟨op, a, wordReads op, latOf op⟩

section

variable {s : State} {a : ElemArgs} (hop : s.el.op < 0x50)
include hop

theorem reads_eq : s.el.reads = (wordFiring s.el.op a).used s.el := if_pos hop

/-- A word operation that can fire does (R101). -/
theorem fires_of_canFire (h : canFire s (wordFiring s.el.op a)) : State.fires s.el = true := by
  have hr := h.2.2.2
  refine Bool.and_eq_true_iff.2 ⟨Bool.and_eq_true_iff.2 ⟨Bool.and_eq_true_iff.2 ⟨live_of_stands h.1 h.2.1, noWord_of_heads hr.1⟩,
    hr.2.1⟩, List.all_eq_true.2 fun o ho => (if_neg (mt beq_iff_eq.1 (Nat.ne_of_lt (hop.trans (by decide))))).trans ?_⟩
  have hu := hr.2.2 o (reads_eq hop ▸ ho)
  exact firstBeats_isSome hu.1 hu.2

/-- A word operation that can fire fires once (R100). -/
theorem fire_goes (c : Compute) (h : canFire s (wordFiring s.el.op a)) : SlotGoes s (s.fire s.el.op a c)
    (firedSlot s.el (s.fc + latOf s.el.op) ((wordFiring s.el.op a).used s.el) (copySent s c (wordReads s.el.op))) := by
  have hb : SlotGoes s (s.bearing s.el.op a) s.el := SlotGoes.bearing h.2.2.1
  have hgo := hb.trans (fireWith_goes (s.bearing s.el.op a) c (wordReads s.el.op))
  rw [copySent_of_goes hb, hb.el_eq, hb.fc, reads_eq hop] at hgo
  have hfires : State.fires (s.bearing s.el.op a).el = true := hb.el_eq.symm ▸ fires_of_canFire hop h
  exact (congrArg (SlotGoes s · _) ((if_neg (ne_empty_of_stands h.1)).trans ((if_pos hfires).trans (congrArg _ (if_pos hop))))).mpr hgo

end

theorem operandBeat_eq {x : Slot} (hx : x.op < 0x50) : operandBeat x = operand x := funext fun o => funext fun _k =>
  (if_congr (Q := ¬x.src o = 0) (Bool.and_eq_true_iff.trans ((and_iff_right (decide_eq_true hx)).trans decide_eq_true_iff)) rfl rfl).trans
    (ite_not ..)

theorem loopEnds_none {l : List Beat} (h : ∀ b ∈ l, b.kind ≠ .loopend) : LoopEnds.of l = .none :=
  if_pos ((Bool.not_eq_true' _).mpr ((List.any_eq_false (p := Beat.isLoop)).2 fun b hb he => h b hb (beq_iff_eq.1 (Bool.and_eq_true_iff.1 he).1)))

/-- The data of the operands of copy k. -/
noncomputable def operandData (x : Slot) (ports : List Nat) (k : Nat) : List Nat := ports.map fun o => (operand x o k).data.toNat

/-- The framing of a result is the KIND of the first beat that its copy takes, as results carry it (R111). -/
theorem framing_eq {x : Slot} {f : Firing} {k : Nat} (ho : ordinary x f k) :
    framing x f k = resultKind (((f.used x).map fun o => operand x o k).headD {}).kind := by
  have hk : ∀ o ∈ f.used x, (operand x o k).kind ≠ .loopend := fun o hm => (ho o (List.mem_of_mem_filter hm)).2
  unfold framing
  generalize f.used x = l at hk ⊢
  induction l with
  | nil => rfl
  | cons o l _ =>
    have hk := hk o (.head _)
    change _ = resultKind (operand x o k).kind
    dsimp only
    generalize (operand x o k).kind = q at hk ⊢
    induction q with
    | loopend => exact absurd rfl hk
    | _ => rfl

/-- What c computes of operands is the reply q: it loses no value, and its generator steps once for each rounding. -/
def replies (c : Compute) (e : Env) (g : BitVec 32) (v : List Nat) (q : Reply) : Prop :=
  c e g v = { x := q.vx, y := q.vy, flags := q.fl, gen := stepped e.x q.rounds g }

/-- What a copy sends of reply q, with a KIND, and with generator g (R108, R111). -/
noncomputable def replySent (kind : Kind) (flag : Bool) (q : Reply) (g : BitVec 32) : Sent :=
  { x := { data := wd q.vx, kind }, y := if flag then { data := wd q.fl } else { data := wd q.vy, kind }, gen := g }

/-- A copy that takes no LOOPEND and no poisoned operand, and of which no value is lost, sends what it computes (R108, R111). -/
theorem fireCopy_of_replies {e : Env} {c : Compute} {g : BitVec 32} {ends : LoopEnds} {from_ operands : List Beat} {q : Reply}
    {kind : Kind} {flag : Bool} (hn : ends = .none) (hany : operands.any (·.poi) = false)
    (hq : replies c e g (operands.map fun b => b.data.toNat) q) (hk : kind = resultKind (from_.headD {}).kind)
    (hf : (decide (e.x.op < 0x50) && e.x.param 0x14 0 == 1) = flag) :
    fireCopy e c g ends from_ operands = replySent kind flag q (stepped e.x q.rounds g) := by
  subst hn hk hf
  unfold fireCopy
  rw [hany, hq]
  induction from_ with
  | nil => rfl
  | cons b l _ => rfl

/-- With ordinary operands, and a computation that replies q, a copy sends q and steps for it (R108, R111). -/
theorem copySent_of_replies {s : State} {a : ElemArgs} {c : Compute} (hop : s.el.op < 0x50)
    (ho : ∀ k < s.el.copies, ordinary s.el (wordFiring s.el.op a) k) {k : Nat} (hk : k < s.el.copies) {q : Reply}
    (hq : replies c ((s.tile s.curTile).env s.el) (s.el.gen k) (operandData s.el (wordReads s.el.op) k) q) :
    copySent s c (wordReads s.el.op) k =
      replySent (framing s.el (wordFiring s.el.op a) k) (flagOut s.el) q (stepped s.el q.rounds (s.el.gen k)) :=
  (congrArg₂ (fun r w => copyOf s c (wordReads s.el.op) r w k) (reads_eq (a := a) hop) (operandBeat_eq hop)).trans
    (fireCopy_of_replies (loopEnds_none (List.forall_mem_flatMap.2 fun j hj => List.forall_mem_map.2 fun o hr =>
        (ho j (List.mem_range.1 hj) o (List.mem_of_mem_filter hr)).2))
      (List.any_eq_false.2 (List.forall_mem_map.2 fun o hr => Bool.eq_false_iff.1 (ho k hk o hr).1))
      ((congrArg (replies c _ _ · q) List.map_map).mpr hq) (framing_eq (ho k hk)) (congrArg (· && _) (decide_eq_true hop)))

theorem stepped_ite (x : Slot) (n : Nat) (g : BitVec 32) : (if x.round = .sr then stepped x n g else g) = stepped x n g :=
  ite_congr rfl (fun h => if_pos h) fun _h => rfl

/-- A firing f that sends bx and cy, and whose copies' results P tells (R100, R108). -/
def copiesGive (P : Env → BitVec 32 → List Nat → Reply → Prop) (s : State) (f : Firing) (t : State) (bx cy : Nat → Beat) : Prop :=
  fired s t f bx cy ∧ ∀ k < s.el.copies, ∃ q : Reply,
    sends s.el f k (bx k) (cy k) q.vx q.vy q.fl ∧ t.el.gen k = stepped s.el q.rounds (s.el.gen k) ∧
    P ((s.tile s.curTile).env s.el) (s.el.gen k) (f.ports.map fun o => (operand s.el o k).data.toNat) q

/-- A slot that goes as its firing has it has fired (R100, R109). -/
theorem copiesGive_of_goes {P : Env → BitVec 32 → List Nat → Reply → Prop} {s t : State} {f : Firing} {b : Nat → Sent}
    (hn : (f.used s.el).Nodup) (h4 : ∀ o ∈ f.used s.el, o < 4)
    (h : SlotGoes s t (firedSlot s.el (s.fc + f.lat) (f.used s.el) b))
    (hP : ∀ k < s.el.copies, ∃ q, b k = replySent (framing s.el f k) (flagOut s.el) q (stepped s.el q.rounds (s.el.gen k)) ∧
      P ((s.tile s.curTile).env s.el) (s.el.gen k) (f.ports.map fun o => (operand s.el o k).data.toNat) q) :
    copiesGive P s f t (fun k => (b k).x) (fun k => (b k).y) :=
  have hy := sameButPorts_dropAll s.el.copies (f.used s.el) (withGens s.el (gensAfter s.el b))
  ⟨⟨h.1, fun q hq => (congrArg (·.port q) h.2).trans (port_dropAll _ hn h4 _ hq),
      (congrArg Slot.pipe h.2).trans (congrArg (fun y : Slot => y.pipe ++ firedPipe s.el (s.fc + f.lat) b) hy :),
      (congrArg (fun y : Slot => { y with portA := s.el.portA, portB := s.el.portB, portC := s.el.portC, portP := s.el.portP,
                                          pipe := s.el.pipe, gens := s.el.gens }) h.2).trans
        (congrArg (fun y : Slot => { y with pipe := s.el.pipe, gens := s.el.gens }) hy)⟩,
    fun k hk => (hP k hk).imp fun q hq => ⟨(congrArg (fun b : Sent => sends s.el f k b.x b.y q.vx q.vy q.fl) hq.1).mpr ⟨rfl, rfl⟩,
      (congrArg (·.gen k) h.2).trans ((congrArg (Slot.gen · k) hy :).trans ((gen_gensAfter s.el b hk).trans
        ((congrArg (fun b : Sent => if s.el.round = .sr then b.gen else s.el.gen k) hq.1).trans (stepped_ite ..)))), hq.2⟩⟩

theorem copiesGive_of_replies {P : Env → BitVec 32 → List Nat → Reply → Prop} {s : State} {op : Nat} {a : ElemArgs}
    {c : Compute} (hx : s.el.op = op) (hop : op < 0x50) (hcan : canFire s (wordFiring op a))
    (hord : ∀ k < s.el.copies, ordinary s.el (wordFiring op a) k)
    (hP : ∀ k < s.el.copies, ∃ q, replies c ((s.tile s.curTile).env s.el) (s.el.gen k) (operandData s.el (wordReads op) k) q ∧
      P ((s.tile s.curTile).env s.el) (s.el.gen k) (operandData s.el (wordReads op) k) q) :
    copiesGive P s (wordFiring op a) (s.fire op a c) (fun k => (copySent s c (wordReads op) k).x)
      (fun k => (copySent s c (wordReads op) k).y) := by
  subst hx
  have hw := wordReads_ports _ hop
  exact copiesGive_of_goes (f := wordFiring s.el.op a) (hw.1.filter _) (fun o ho => hw.2 o (List.mem_of_mem_filter ho)) (fire_goes hop c hcan)
    fun k hk => (hP k hk).imp fun q => And.imp_left (copySent_of_replies hop hord hk)

/-- A word operation whose computation answers replies that P tells fires with results that P tells (R100, R108). -/
theorem fires_of_computes {P : Env → BitVec 32 → List Nat → Reply → Prop} {i : Instr} {s : State} {op : Nat} {a : ElemArgs}
    {c : Compute} (hop : decide (op < 0x50) = true) (hrow : firingOf i = some ⟨op, a, wordReads op, latOf op⟩)
    (hruns : ∀ s, exec i s = .next (s.fire op a c))
    (hP : ∀ k < s.el.copies, ∃ q, replies c ((s.tile s.curTile).env s.el) (s.el.gen k) (operandData s.el (wordReads op) k) q ∧
      P ((s.tile s.curTile).env s.el) (s.el.gen k) (operandData s.el (wordReads op) k) q) : fires P i s := fun f hf hcan hord => by
  change ∃ t bx cy, exec i s = .next t ∧ copiesGive P s f t bx cy
  obtain rfl := Option.some.inj (hrow.symm.trans hf)
  have hop := of_decide_eq_true hop
  exact ⟨_, _, _, hruns s, copiesGive_of_replies (op_of_word (hop.trans (by decide)) hcan.2.2.1) hop hcan hord hP⟩

/-! ## Formats and lanes (R74-R76, R83, R87, R89, R112) -/

/-- The codes that Round and overflow give fit below the sign bit (R76, R77, R88). -/
def codesFit (m : FloatFmt) : Prop :=
  m.nanCode < 2 ^ (m.e + m.f) ∧ m.infCode < 2 ^ (m.e + m.f) ∧ m.largestCode < 2 ^ (m.e + m.f)

/-- A floating format has an exponent, its lane is as wide as its layout and its codes fit; a plain format's lanes fill the beat (R74-R76). -/
noncomputable def isKnown (m : Fmt) : Bool :=
  ((m.kind = .float ∨ m.kind = .e → m.w = m.fl.width ∧ 0 < m.fl.e ∧ m.fl.nanCode < 2 ^ (m.fl.e + m.fl.f) ∧
      m.fl.infCode < 2 ^ (m.fl.e + m.fl.f) ∧ m.fl.largestCode < 2 ^ (m.fl.e + m.fl.f)) ∧
    (m.kind = .int ∨ m.kind = .float ∨ m.kind = .e ∨ m.kind = .bits → m.w ∈ [8, 16, 32, 64]))

/-- The format is as the architecture lays its formats out. -/
def known (m : Fmt) : Prop := isKnown m = true

theorem bit_eq_testBit (w n : Nat) : bit w n = w.testBit n := (Nat.testBit_eq_decide_div_mod_eq ..).symm

/-- A format is that of the low twelve bits of its profile entry (R83). -/
theorem fmtOf_mod (n : Nat) : fmtOf n = fmtOf (n % 2 ^ 12) := by
  have hbit : ∀ k < 12, bit n k = bit (n % 2 ^ 12) k := fun k hk => by
    rw [bit_eq_testBit, bit_eq_testBit, Nat.testBit_mod_two_pow, decide_eq_true hk, Bool.true_and]
  unfold fmtOf
  rw [Nat.mod_mod_of_dvd n (by decide : 256 ∣ 2 ^ 12), hbit 11 (by decide), hbit 10 (by decide), hbit 9 (by decide)]

/-- The profile codes from 32 on name the empty format. -/
theorem fmtOf_high {n : Nat} (h : 32 ≤ n % 256) : fmtOf n = {} := by
  obtain ⟨c, hc⟩ := Nat.exists_eq_add_of_le' h
  unfold fmtOf
  rw [hc]
  rfl

theorem isKnown_low : ∀ c < 32, ∀ b < 2 ^ 4, isKnown (fmtOf (c + 2 ^ 8 * b)) = true := by decide +kernel

theorem known_fmt (t : Tile) (i : Nat) : known (t.fmt i) := by
  have hn : ∀ n, known (fmtOf n) := fun n => by
    by_cases h : 32 ≤ n % 256
    · exact (congrArg known (fmtOf_high h)).mpr rfl
    · exact (congrArg known ((fmtOf_mod n).trans (congrArg fmtOf (Nat.mod_mul (x := n) (a := 256) (b := 2 ^ 4))))).mpr
        (isKnown_low _ (Nat.not_le.1 h) _ (Nat.mod_lt _ (Nat.two_pow_pos 4)))
  exact hn _

theorem floating_known {m : Fmt} (hm : known m) (h : m.kind = .float ∨ m.kind = .e) : m.w = m.fl.width ∧ 0 < m.fl.e ∧ codesFit m.fl :=
  (of_decide_eq_true hm).1 h

/-- The lanes of a plain format fill the beat (R74). -/
theorem width_of_plain {m : Fmt} (hm : known m) (h : convertible.plain m) : m.w ∈ [8, 16, 32, 64] := (of_decide_eq_true hm).2 h

theorem lanes_fill {w : Nat} (hw : w ∈ [8, 16, 32, 64]) : w * (64 / w) = 64 := by
  have : ∀ w ∈ [8, 16, 32, 64], w * (64 / w) = 64 := by decide
  exact this w hw

theorem two_pow_width (m : FloatFmt) : 2 ^ m.width = 2 ^ (m.e + m.f) + 2 ^ (m.e + m.f) := by
  rw [FloatFmt.width, Nat.add_assoc, Nat.pow_add, pow_one, Nat.two_mul]

theorem ite_lt {c : Prop} [Decidable c] {a b n : Nat} (ha : c → a < n) (hb : ¬c → b < n) : (if c then a else b) < n :=
  dite c (fun h => (if_pos h).trans_lt (ha h)) fun h => (if_neg h).trans_lt (hb h)

theorem signBit_add_lt (m : FloatFmt) (neg : Bool) {c : Nat} (hc : c < 2 ^ (m.e + m.f)) : m.signBit neg + c < 2 ^ m.width :=
  (Nat.add_lt_add_of_le_of_lt (by cases neg with | false => exact Nat.zero_le _ | true => exact Nat.le_refl _) hc).trans_eq
    (two_pow_width m).symm

theorem signBit_lt (m : FloatFmt) (neg : Bool) : m.signBit neg < 2 ^ m.width := signBit_add_lt m neg (Nat.two_pow_pos _)

theorem nanCode_lt {m : FloatFmt} (hm : codesFit m) : m.nanCode < 2 ^ m.width :=
  (Nat.le_add_left ..).trans_lt (signBit_add_lt m true hm.1)

theorem overflow_lt {m : FloatFmt} (hm : codesFit m) (sat : Bool) (mode : RMode) (neg : Bool) :
    m.overflow sat mode neg < 2 ^ m.width := by
  have hl := signBit_add_lt m neg hm.2.2
  have hmode : ∀ toInf : Bool, m.signBit neg + (if toInf then m.infCode else m.largestCode) < 2 ^ m.width := fun toInf =>
    signBit_add_lt m neg (ite_lt (fun _h => hm.2.1) fun _h => hm.2.2)
  unfold FloatFmt.overflow
  generalize m.nan = k
  induction k with
  | none => exact hl
  | ones => exact ite_lt (fun _h => hl) fun _h => nanCode_lt hm
  | ieee => exact ite_lt (fun _h => hl) fun _h => hmode _

theorem roundQuot_lt {m : FloatFmt} (hm : codesFit m) (b : FBits) (mode : RMode) (rnd : Nat) (neg : Bool) (n d : Nat) :
    m.roundQuot b mode rnd neg n d < 2 ^ m.width :=
  ite_lt (fun hc => ite_lt (fun _h => signBit_lt m neg) fun _h =>
      signBit_add_lt m neg (hc.trans_le (Nat.pow_le_pow_right two_pos (Nat.le_add_left ..))))
    fun _h => ite_lt (fun _h => overflow_lt hm ..) fun hc => signBit_add_lt m neg ((Nat.le_of_not_lt hc).trans_lt hm.2.2)

/-- A code that Round gives fits its format (R87, R88). -/
theorem roundExact_fits {m : FloatFmt} (hm : codesFit m) (b : FBits) (mode : RMode) (rnd : Nat) (x : Exact) :
    m.roundExact b mode rnd x < 2 ^ m.width := by
  induction x with
  | nan => exact nanCode_lt hm
  | inf n =>
    unfold FloatFmt.roundExact
    generalize m.nan = k
    induction k with
    | ieee => exact signBit_add_lt m n hm.2.1
    | ones => exact ite_lt (fun _h => signBit_add_lt m n hm.2.2) fun _h => nanCode_lt hm
    | none => exact signBit_add_lt m n hm.2.2
  | zero n => exact signBit_lt m n
  | dyadic z k => exact ite_lt (fun _h => Nat.two_pow_pos _) fun _h => roundQuot_lt hm ..
  | quot neg n d => exact ite_lt (fun _h => signBit_lt m neg) fun _h => roundQuot_lt hm ..

theorem stepped_zero (x : Slot) (g : BitVec 32) : stepped x 0 g = g := ite_self _

theorem stepped_succ (x : Slot) (n : Nat) (g : BitVec 32) :
    stepped x (n + 1) g = stepped x n (if x.round = .sr then stepGen g else g) := by
  unfold stepped
  split
  · rfl
  · rfl

theorem drawn_succ (x : Slot) (g : BitVec 32) (j : Nat) :
    drawn x g (j + 1) = drawn x (if x.round = .sr then stepGen g else g) j := congrArg BitVec.toNat (stepped_succ x (j + 1) g)

theorem length_roundLanes (mode : RMode) (f : Nat → Nat → Nat × Bool) (l : List Nat) (g : BitVec 32) :
    (roundLanes mode f l g).1.length = l.length := by
  induction l generalizing g with
  | nil => rfl
  | cons k l ih => exact congrArg (· + 1) (ih _)

/-- Results rounded one after another: the generator has stepped once for each (R89). -/
theorem gen_roundLanes (x : Slot) (f : Nat → Nat → Nat × Bool) (l : List Nat) (g : BitVec 32) :
    (roundLanes x.round f l g).2 = stepped x l.length g := by
  induction l generalizing g with
  | nil => exact (stepped_zero x g).symm
  | cons k l ih =>
    rw [List.length_cons, stepped_succ]
    exact ih _

/-- The j-th of results rounded one after another is drawn with the generator stepped once more than j times (R89). -/
theorem getD_roundLanes (x : Slot) (f : Nat → Nat → Nat × Bool) (l : List Nat) (g : BitVec 32) (d : Nat × Bool) {j : Nat}
    (hj : j < l.length) : (roundLanes x.round f l g).1.getD j d = f (l.getD j 0) (drawn x g j) := by
  induction l generalizing g j with
  | nil => exact absurd hj (Nat.not_lt_zero _)
  | cons k l ih =>
    cases j with
    | zero =>
      have : drawn x g 0 = (if x.round = .sr then stepGen g else g).toNat :=
        congrArg BitVec.toNat ((stepped_succ x 0 g).trans (stepped_zero ..))
      rw [this]
      rfl
    | succ j =>
      rw [drawn_succ]
      exact ih _ (Nat.lt_of_succ_lt_succ hj)

/-- A code that Round gives fits a lane of its format (R74, R87). -/
theorem roundExact_lt_lane {m : Fmt} (hm : known m) (h : m.kind = .float ∨ m.kind = .e) (b : FBits) (mode : RMode) (rnd : Nat) (x : Exact) :
    m.fl.roundExact b mode rnd x < 2 ^ m.w := by
  obtain ⟨hw, -, hfit⟩ := floating_known hm h
  exact hw.symm ▸ roundExact_fits hfit b mode rnd x

theorem getD_range {n j : Nat} (hj : j < n) : (List.range n).getD j 0 = j :=
  (List.getD_eq_getElem _ _ (hj.trans_eq List.length_range.symm)).trans (List.getElem_range _)

/-- Exact values X 0 to X (n - 1) rounded in order to format m, and the generator after (R89). -/
noncomputable def roundedCodes (x : Slot) (m : Fmt) (X : Nat → Exact) (n : Nat) (g : BitVec 32) : List (Nat × Bool) × BitVec 32 :=
  roundLanes x.round (fun j rnd => (m.fl.roundExact m.b x.round rnd (X j), false)) (List.range n) g

section

variable (x : Slot) (m : Fmt) (X : Nat → Exact) (n : Nat) (g : BitVec 32)

theorem gen_roundedCodes : (roundedCodes x m X n g).2 = stepped x n g :=
  (gen_roundLanes ..).trans (congrArg (stepped x · g) List.length_range)

theorem length_roundedCodes : ((roundedCodes x m X n g).1.map (·.1)).length = n :=
  (List.length_map ..).trans ((length_roundLanes ..).trans List.length_range)

theorem getD_roundedCodes {j : Nat} (hj : j < n) :
    ((roundedCodes x m X n g).1.map (·.1)).getD j 0 = m.fl.roundExact m.b x.round (drawn x g j) (X j) :=
  (List.getD_map _ (0, false) Prod.fst).trans ((congrArg Prod.fst (getD_roundLanes x _ _ g _ (hj.trans_eq List.length_range.symm))).trans
    (congrArg (fun k => m.fl.roundExact m.b x.round (drawn x g j) (X k)) (getD_range hj)))

end

/-- Beats packed from lanes that fit (R112): below 2^64 where the lanes fill no more, and each lane as packed. -/
theorem packed {w n : Nat} (hw : w * n ≤ 64) {l : List Nat} (hl : l.length = n) :
    packLanes w l < 2 ^ 64 ∧ ∀ j, l.getD j 0 < 2 ^ w → lane w (packLanes w l) j = l.getD j 0 :=
  ⟨(packLanes_lt w l).trans_le (Nat.pow_le_pow_right two_pos (hl ▸ hw)), fun j hj => by
    rw [lane_packLanes, Nat.mod_eq_of_lt hj]⟩

/-! ## Floating-point arithmetic (R77, R115, R117) -/

/-- A computation rounded lane by lane replies with Round of every lane's exact value (R115, R117). -/
theorem replies_perRounded {e : Env} (hk : known e.fmt) (hf : e.fmt.kind = .float) (h : RMode → List FVal → Exact)
    (g : BitVec 32) (ports : List Nat) (v : Nat → Nat) {R : Fmt → List Nat → Exact → Prop}
    (hR : ∀ c : Nat → Nat, R e.fmt (ports.map c) (h e.x.round ((ports.map c).map e.fmt.val))) :
    ∃ q, replies (perRounded h) e g (ports.map v) q ∧ rounded R e g (ports.map v) q := by
  let X : Nat → Exact := fun k => h e.x.round ((ports.map v).map fun d => e.fmt.val (laneOf e.fmt.w d k))
  have hp := packed (lanes_fill (width_of_plain hk (.inr (.inl hf)))).le (length_roundedCodes e.x e.fmt X (64 / e.fmt.w) g)
  refine ⟨⟨_, _, 0, 64 / e.fmt.w⟩, congrArg (Computed.both _) (gen_roundedCodes e.x e.fmt X _ g), rfl, hp.1, rfl, rfl,
    fun j hj => ⟨X j, ?_, ?_⟩⟩
  · have hval : (ports.map v).map (fun d => e.fmt.val (laneOf e.fmt.w d j)) = (ports.map fun o => lane e.fmt.w (v o) j).map e.fmt.val := by
      rw [List.map_map, List.map_map]
      rfl
    exact (congrArg₂ (R e.fmt) List.map_map (congrArg (h e.x.round) hval)).mpr (hR fun o => lane e.fmt.w (v o) j)
  · have hcode := getD_roundedCodes e.x e.fmt X _ g hj
    exact (hp.2 j (hcode.trans_lt (roundExact_lt_lane hk (.inl hf) ..))).trans hcode

theorem of_negate (a : FVal) : Val.of a.negate = (Val.of a).minus := by
  induction a with
  | fin z k => exact congrArg Val.real ((congrArg (· * (2 : ℚ) ^ k) (Int.cast_neg z)).trans (neg_mul ..))
  | _ => rfl

/-- A product's exact value is that of a floating value. -/
theorem exists_exact_mul (a b : FVal) : ∃ c : FVal, a.mul b = c.exact := by
  match a, b with
  | .nan _, _ | .inf _, .nan _ | .zero _, .nan _ | .fin _ _, .nan _ => exact ⟨.nan true, rfl⟩
  | .inf _, .zero _ | .zero _, .inf _ => exact ⟨.nan true, rfl⟩
  | .inf x, .inf y => exact ⟨.inf (x != y), rfl⟩
  | .inf x, .fin z k => exact ⟨.inf (x != FVal.neg (.fin z k)), rfl⟩
  | .fin z k, .inf y => exact ⟨.inf (FVal.neg (.fin z k) != y), rfl⟩
  | .zero x, .zero y => exact ⟨.zero (x != y), rfl⟩
  | .zero x, .fin z k => exact ⟨.zero (x != FVal.neg (.fin z k)), rfl⟩
  | .fin z k, .zero y => exact ⟨.zero (FVal.neg (.fin z k) != y), rfl⟩
  | .fin z k, .fin y j => exact ⟨.fin (z * y) (k + j), rfl⟩

/-- The factor that a sign gives a value. -/
noncomputable def sgn (neg : Bool) : ℚ := if neg then -1 else 1

theorem sgn_bne : ∀ a b : Bool, sgn (a != b) = sgn a / sgn b
  | false, false => (div_one _).symm
  | true, false => (div_one _).symm
  | false, true => one_div_neg_one_eq_neg_one.symm
  | true, true => (div_self (neg_ne_zero.2 one_ne_zero)).symm

/-- An integer by its sign and its magnitude. -/
theorem sgn_mul_natAbs (z : Int) : sgn (decide (z < 0)) * z.natAbs = z := by
  induction z using Int.rec with
  | ofNat n => exact (one_mul _).trans (Int.cast_natCast n).symm
  | negSucc n =>
    exact (congrArg (sgn · * ((n + 1 : Nat) : ℚ)) (decide_eq_true (Int.negSucc_lt_zero n))).trans
      ((neg_one_mul _).trans (Int.cast_negSucc n).symm)

theorem ofExact_quotOf (neg : Bool) (n d : Nat) (k : Int) : Val.ofExact (quotOf neg n d k) = .real (sgn neg * (n / d) * 2 ^ k) := by
  have hreal : ∀ {x y : ℚ}, x / y = n / d * 2 ^ k → Val.real (sgn neg * x / y) = .real (sgn neg * (n / d) * 2 ^ k) := fun h =>
    congrArg Val.real ((mul_div_assoc ..).trans ((congrArg (sgn neg * ·) h).trans (mul_assoc ..).symm))
  induction k using Int.rec with
  | ofNat j => exact hreal ((congrArg (· / (d : ℚ)) (Nat.cast_mul n (2 ^ j))).trans ((mul_div_right_comm ..).trans
      (congrArg ((n : ℚ) / d * ·) ((Nat.cast_pow 2 j).trans (zpow_natCast 2 j).symm))))
  | negSucc j => exact hreal ((congrArg ((n : ℚ) / ·) (Nat.cast_mul d (2 ^ (j + 1)))).trans ((div_mul_eq_div_div ..).trans
      ((div_eq_mul_inv ..).trans (congrArg ((n : ℚ) / d * ·) ((congrArg (·⁻¹) (Nat.cast_pow 2 (j + 1))).trans (zpow_negSucc 2 j).symm)))))

theorem ofExact_div (a b : FVal) : Val.ofExact (FVal.div a b) = Val.div (Val.of a) (Val.of b) := by
  match a, b with
  | .nan _, _ | .inf _, .nan _ | .zero _, .nan _ | .fin _ _, .nan _ => rfl
  | .inf _, .inf _ | .inf _, .zero _ | .zero _, .inf _ | .zero _, .zero _ => rfl
  | .inf x, .fin y j => exact congrArg (fun n => Val.inf (x != n)) (neg_of (.fin y j)).symm
  | .fin z k, .inf y => exact congrArg (fun n => Val.zero (n != y)) (neg_of (.fin z k)).symm
  | .zero x, .fin y j => exact congrArg (fun n => Val.zero (x != n)) (neg_of (.fin y j)).symm
  | .fin z k, .zero y => exact congrArg (fun n => Val.inf (n != y)) (neg_of (.fin z k)).symm
  | .fin z k, .fin y j =>
    refine (ofExact_quotOf ..).trans (congrArg Val.real ?_)
    have hz : sgn (FVal.neg (.fin z k) != FVal.neg (.fin y j)) * ((z.natAbs : ℚ) / y.natAbs) = z / y :=
      (congrArg (· * _) (sgn_bne _ _)).trans ((mul_div_mul_comm ..).symm.trans (congrArg₂ (· / ·) (sgn_mul_natAbs z) (sgn_mul_natAbs y)))
    exact (congrArg₂ (· * ·) hz (zpow_sub₀ two_ne_zero k j)).trans (div_mul_div_comm ..)

/-- fma: one rounding of the exact product and sum (R115). -/
theorem ofExact_fma (mode : RMode) (a b c : FVal) :
    Val.ofExact (Exact.add mode (a.mul b) c.exact) = Val.add mode (Val.mul (Val.of a) (Val.of b)) (Val.of c) := by
  obtain ⟨p, hp⟩ := exists_exact_mul a b
  have hval : Val.ofExact p.exact = Val.of p := by induction p with | _ => rfl
  exact (congrArg (fun x => Val.ofExact (Exact.add mode x c.exact)) hp).trans ((ofExact_add ..).trans (congrArg (Val.add mode · (Val.of c))
    (hval.symm.trans ((congrArg Val.ofExact hp.symm).trans (ofExact_mul ..)))))

/-! ## Integers of a format (R8, R112) -/

theorem lane_lt (w v j : Nat) : lane w v j < 2 ^ w := Nat.mod_lt _ (Nat.two_pow_pos w)

theorem wrapLane_eq (w : Nat) (y : Int) : (wrapLane w y : Int) = y % 2 ^ w :=
  Int.toNat_of_nonneg (Int.emod_nonneg y (pow_ne_zero w two_ne_zero))

theorem wrapLane_lt (w : Nat) (y : Int) : wrapLane w y < 2 ^ w :=
  Int.ofNat_lt.1 (by rw [wrapLane_eq, Nat.cast_pow]; exact Int.emod_lt_of_pos y (pow_pos two_pos w))

/-- The integer of a code that fits its lane (R112). -/
theorem int_eq_intOf (m : Fmt) {c : Nat} (hc : c < 2 ^ m.w) : m.int c = intOf m c := by
  have hn : c % 2 ^ m.w = c := Nat.mod_eq_of_lt hc
  have hm : (c : Int) % 2 ^ m.w = c := (congrArg ((c : Int) % ·) (Nat.cast_pow 2 m.w).symm).trans (congrArg Nat.cast hn)
  have h : ∀ s : Bool, (if s then sext c m.w else (c % 2 ^ m.w : Nat)) = if s = true ∧ 2 ^ (m.w - 1) ≤ c then (c : Int) - 2 ^ m.w else c := by
    intro s
    cases s with
    | false => exact congrArg Nat.cast hn
    | true =>
      have hi : c % 2 ^ m.w < 2 ^ (m.w - 1) ↔ ¬(true = true ∧ 2 ^ (m.w - 1) ≤ c) :=
        (iff_of_eq (congrArg (· < _) hn)).trans (not_le.symm.trans (not_congr (and_iff_right rfl)).symm)
      exact (if_congr hi hm (congrArg (· - 2 ^ m.w) hm)).trans (ite_not ..)
  exact h m.signed

/-- The ends of the range of a format whose lanes fill the beat. -/
theorem range_of_width {m : Fmt} (hw : m.w ∈ [8, 16, 32, 64]) :
    bottom m ≤ ceiling m ∧ -2 ^ 70 ≤ bottom m ∧ ceiling m ≤ 2 ^ 70 := by
  have h : ∀ w ∈ [8, 16, 32, 64], ∀ s : Bool, (if s then -2 ^ (w - 1) else 0 : Int) ≤ (if s then 2 ^ (w - 1) - 1 else 2 ^ w - 1) ∧
      -2 ^ 70 ≤ (if s then -2 ^ (w - 1) else 0 : Int) ∧ (if s then 2 ^ (w - 1) - 1 else 2 ^ w - 1 : Int) ≤ 2 ^ 70 := by decide
  exact h m.w hw m.signed

/-- An integer within the format's range is that of its wrapped code (R112). -/
theorem intOf_wrapLane {m : Fmt} (hw : m.w ∈ [8, 16, 32, 64]) {y : Int} (hb : bottom m ≤ y) (hc : y ≤ ceiling m) :
    intOf m (wrapLane m.w y) = y := by
  have h0 : ∀ w ∈ [8, 16, 32, 64], 0 < w := by decide
  have h : ∀ s : Bool, (if s then -2 ^ (m.w - 1) else 0 : Int) ≤ y → y ≤ (if s then 2 ^ (m.w - 1) - 1 else 2 ^ m.w - 1 : Int) →
      (if s = true ∧ 2 ^ (m.w - 1) ≤ wrapLane m.w y then (wrapLane m.w y : Int) - 2 ^ m.w else wrapLane m.w y) = y := by
    intro s hb hc
    cases s with
    | false => exact (wrapLane_eq ..).trans (Int.emod_eq_of_lt hb (Int.lt_of_le_sub_one hc))
    | true =>
      have hx : wrapLane m.w y = (BitVec.ofInt m.w y).toNat := congrArg (fun n => (y % n).toNat) (Nat.cast_pow 2 m.w).symm
      rw [hx]
      refine (if_congr ?_ ?_ rfl).trans ((BitVec.toInt_eq_msb_cond _).symm.trans (BitVec.toInt_ofInt_eq_self (h0 _ hw) hb (Int.lt_of_le_sub_one hc)))
      · exact (and_iff_right rfl).trans (decide_eq_true_iff.symm.trans (BitVec.msb_eq_decide _ ▸ Iff.rfl))
      · exact congrArg (_ - ·) (Nat.cast_pow 2 m.w).symm
  exact h m.signed hb hc

/-- Sat clamps to the format's range, and its flag tells that it did (R8, R112). -/
theorem sat_eq (m : Fmt) (x : Int) : m.sat x =
    if x < bottom m then (bottom m, true) else if ceiling m < x then (ceiling m, true) else (x, false) := by
  unfold Fmt.sat bottom ceiling
  cases m.signed with
  | false => rfl
  | true => rfl

/-- An integer saturated into a lane (R112). -/
theorem clamps_sat {m : Fmt} (hw : m.w ∈ [8, 16, 32, 64]) (x : Int) : clamps m x (wrapLane m.w (m.sat x).1) (m.sat x).2 := by
  obtain ⟨h, -⟩ := range_of_width hw
  have one : ∀ {y f}, bottom m ≤ y → y ≤ ceiling m → max (bottom m) (min (ceiling m) x) = y →
      (f = true ↔ x < bottom m ∨ ceiling m < x) → clamps m x (wrapLane m.w (y, f).1) (y, f).2 :=
    fun hb hc he hf => ⟨(intOf_wrapLane hw hb hc).trans he.symm, hf⟩
  by_cases hb : x < bottom m
  · exact (sat_eq m x).trans (if_pos hb) ▸ one le_rfl h (max_eq_left ((min_le_right ..).trans hb.le)) (iff_of_true rfl (.inl hb))
  · have hb' := not_lt.1 hb
    by_cases hc : ceiling m < x
    · exact (sat_eq m x).trans ((if_neg hb).trans (if_pos hc)) ▸
        one h le_rfl ((congrArg _ (min_eq_left hc.le)).trans (max_eq_right h)) (iff_of_true rfl (.inr hc))
    · have hc' := not_lt.1 hc
      exact (sat_eq m x).trans ((if_neg hb).trans (if_neg hc)) ▸
        one hb' hc' ((congrArg _ (min_eq_right hc')).trans (max_eq_right hb')) (iff_of_false Bool.false_ne_true (not_or.2 ⟨hb, hc⟩))

/-- An infinity saturates to the end of the range on its side (R90). -/
theorem intOf_sat_inf {m : Fmt} (hw : m.w ∈ [8, 16, 32, 64]) (n : Bool) :
    intOf m (wrapLane m.w (m.sat (if n then -(2 ^ 70) else 2 ^ 70)).1) = if n then bottom m else ceiling m := by
  obtain ⟨h, hb, hc⟩ := range_of_width hw
  refine (clamps_sat hw _).1.trans ?_
  cases n with
  | true => exact max_eq_left ((min_le_right ..).trans hb)
  | false => exact (congrArg _ (min_eq_left hc)).trans (max_eq_right h)

/-! ## Conversions (R90, R122, R123) -/

/-- Lane c of format a converts to a code that fits its lane of format b (R90). -/
def Converted (a b : Fmt) (force : Bool) (mode : RMode) (rnd c : Nat) : Prop :=
  converts a b force mode rnd c (convert a b force mode rnd c).1 (convert a b force mode rnd c).2 ∧
    (convert a b force mode rnd c).1 < 2 ^ b.w

/-- The format as one of another set. -/
noncomputable def ofKind (m : Fmt) (k : FmtSet) : Fmt := { m with kind := k }

theorem of_kind {m : Fmt} {k : FmtSet} {P : Fmt → Prop} (h : m.kind = k) (p : P (ofKind m k)) : P m := by
  subst h
  exact p

/-- What holds of a format as one of each plain set holds of a plain format. -/
theorem of_plain {m : Fmt} (h : convertible.plain m) {P : Fmt → Prop} (hi : P (ofKind m .int)) (hf : P (ofKind m .float))
    (he : P (ofKind m .e)) (hb : P (ofKind m .bits)) : P m :=
  h.elim (of_kind · hi) (·.elim (of_kind · hf) (·.elim (of_kind · he) (of_kind · hb)))

section

variable (b : Fmt) (force : Bool) (mode : RMode) (rnd : Nat)

/-- Bit patterns are copied (R90). -/
theorem copied (c : Nat) : (c % 2 ^ b.w = c % 2 ^ b.w ∧ false = false) ∧ c % 2 ^ b.w < 2 ^ b.w :=
  ⟨⟨rfl, rfl⟩, Nat.mod_lt _ (Nat.two_pow_pos _)⟩

/-- Integers are clamped into integers (R90). -/
theorem clamped (hw : b.w ∈ [8, 16, 32, 64]) {x y : Int} (h : x = y) :
    (wrapLane b.w (b.sat x).1 < 2 ^ b.w ∧ clamps b y (wrapLane b.w (b.sat x).1) (b.sat x).2) ∧ wrapLane b.w (b.sat x).1 < 2 ^ b.w := by
  subst h
  exact ⟨⟨wrapLane_lt .., clamps_sat hw _⟩, wrapLane_lt ..⟩

/-- A floating result fits its lane. -/
theorem fromExact_fits (hb : known b) (h : b.kind = .float ∨ b.kind = .e) (x : Exact) :
    (b.fromExact force mode rnd x).1 < 2 ^ b.w := by
  obtain ⟨hw, -, hfit⟩ := floating_known hb h
  rw [hw]
  exact roundExact_fits hfit ..

/-- Integers are rounded into floating formats (R90). -/
theorem int_rounded (hb : known b) (h : b.kind = .float ∨ b.kind = .e) {x y : Int} (hxy : x = y) :
    (∃ z, Val.ofExact z = Val.realOr false y ∧ (if x = 0 then (0, false) else b.fromExact force mode rnd (.dyadic x 0)).1 =
      b.fl.roundExact { b.b with sat := b.b.sat || force } mode rnd z) ∧
    (if x = 0 then (0, false) else b.fromExact force mode rnd (.dyadic x 0)).1 < 2 ^ b.w := by
  subst hxy
  by_cases hz : x = 0
  · rw [if_pos hz]
    exact ⟨⟨.zero false, (if_pos (Int.cast_eq_zero.2 hz)).symm, rfl⟩, Nat.two_pow_pos _⟩
  · rw [if_neg hz]
    refine ⟨⟨.dyadic x 0, ?_, rfl⟩, fromExact_fits b force mode rnd hb h _⟩
    exact (congrArg Val.real (mul_one _)).trans (if_neg (Int.cast_ne_zero.2 hz)).symm

/-- R90's table for value v of a floating format in the integer format b. -/
def GivesInt (v : FVal) (q : Nat × Bool) : Prop :=
  match v with
  | .nan _ => q.1 = 0 ∧ q.2 = true
  | .inf n => intOf b q.1 = (if n then bottom b else ceiling b) ∧ q.1 < 2 ^ b.w ∧ q.2 = true
  | .zero _ => q.1 = 0 ∧ q.2 = false
  | .fin z k => q.1 < 2 ^ b.w ∧ clamps b (roundInt mode rnd z k) q.1 q.2

/-- What the model makes of it. -/
noncomputable def asInt (v : FVal) : Nat × Bool :=
  match v with
  | .nan _ => (0, true)
  | .inf n => (wrapLane b.w (b.sat (if n then -(2 ^ 70) else 2 ^ 70)).1, true)
  | .zero _ => (0, false)
  | .fin z k => (wrapLane b.w (b.sat (roundInt mode rnd z k)).1, (b.sat (roundInt mode rnd z k)).2)

theorem asInt_gives (hw : b.w ∈ [8, 16, 32, 64]) (v : FVal) :
    GivesInt b mode rnd v (asInt b mode rnd v) ∧ (asInt b mode rnd v).1 < 2 ^ b.w := by
  cases v with
  | nan _ => exact ⟨⟨rfl, rfl⟩, Nat.two_pow_pos _⟩
  | inf n => exact ⟨⟨intOf_sat_inf hw n, wrapLane_lt .., rfl⟩, wrapLane_lt ..⟩
  | zero _ => exact ⟨⟨rfl, rfl⟩, Nat.two_pow_pos _⟩
  | fin z k => exact ⟨⟨wrapLane_lt .., clamps_sat hw _⟩, wrapLane_lt ..⟩

/-- R90's table for value v of a floating format in the floating format b. -/
def GivesFloat (v : FVal) (q : Nat × Bool) : Prop :=
  match v with
  | .nan _ => q.1 = b.fl.nanCode ∧ q.2 = false
  | .inf n => q.1 = b.fl.roundExact { b.b with sat := b.b.sat || force } mode rnd (.inf n) ∧ q.2 = decide (b.fl.nan ≠ .ieee)
  | .zero n => q.1 = b.fl.signBit n ∧ q.2 = false
  | .fin z k => q.1 = b.fl.roundExact { b.b with sat := b.b.sat || force } mode rnd (.dyadic z k)

theorem fromExact_gives (hb : known b) (h : b.kind = .float ∨ b.kind = .e) (v : FVal) :
    GivesFloat b force mode rnd v (b.fromExact force mode rnd v.exact) ∧ (b.fromExact force mode rnd v.exact).1 < 2 ^ b.w := by
  refine ⟨?_, fromExact_fits b force mode rnd hb h _⟩
  cases v with
  | fin _ _ => exact rfl
  | _ => exact ⟨rfl, rfl⟩

/-- A lane converted by R90's table fits the target. -/
theorem convert_converts {a : Fmt} (ha : convertible.plain a) (hb : known b) (pb : convertible.plain b) {c : Nat} (hc : c < 2 ^ a.w) :
    Converted a b force mode rnd c :=
  of_plain ha (P := fun a => a.int c = intOf a c → Converted a b force mode rnd c)
    (fun h => of_plain pb (P := fun b => known b → Converted (ofKind a .int) b force mode rnd c)
      (fun hb => clamped _ (width_of_plain hb (.inl rfl)) h) (fun hb => int_rounded _ force mode rnd hb (.inl rfl) h)
      (fun hb => int_rounded _ force mode rnd hb (.inr rfl) h) (fun _ => copied b c) hb)
    (fun _ => of_plain pb (P := fun b => known b → Converted (ofKind a .float) b force mode rnd c)
      (fun hb => asInt_gives _ mode rnd (width_of_plain hb (.inl rfl)) (a.val c))
      (fun hb => fromExact_gives _ force mode rnd hb (.inl rfl) (a.val c))
      (fun hb => fromExact_gives _ force mode rnd hb (.inr rfl) (a.val c)) (fun _ => copied b c) hb)
    (fun _ => of_plain pb (P := fun b => known b → Converted (ofKind a .e) b force mode rnd c)
      (fun hb => asInt_gives _ mode rnd (width_of_plain hb (.inl rfl)) (a.val c))
      (fun hb => fromExact_gives _ force mode rnd hb (.inl rfl) (a.val c))
      (fun hb => fromExact_gives _ force mode rnd hb (.inr rfl) (a.val c)) (fun _ => copied b c) hb)
    (fun _ => copied b c) (int_eq_intOf a hc)

end

/-- Lane c converts to q as the j-th result of its beat; its code fits its lane. -/
def ConvertsLane (e : Env) (force : Bool) (g : BitVec 32) (j c : Nat) (q : Nat × Bool) : Prop :=
  convertsAt e g force j c q.1 q.2 ∧ q.1 < 2 ^ e.out.w

/-- r is what converting the lanes f 0 to f (n - 1) one after another gives (R90). -/
def ConvertsTo (e : Env) (force : Bool) (g : BitVec 32) (n : Nat) (f : Nat → Nat) (r : List (Nat × Bool) × BitVec 32) : Prop :=
  r.1.length = n ∧ r.2 = stepped e.x (roundsOf e n) g ∧ ∀ j < n, ConvertsLane e force g j (f j) (r.1.getD j (0, false))

section

variable {e : Env} (force : Bool) (g : BitVec 32)

theorem getD_map_lt {α : Type} (f : Nat → α) {l : List Nat} (d : α) {j : Nat} (hj : j < l.length) : (l.map f).getD j d = f (l.getD j 0) := by
  induction l generalizing j with
  | nil => exact absurd hj (Nat.not_lt_zero _)
  | cons k l ih =>
    cases j with
    | zero => rfl
    | succ j => exact ih (Nat.lt_of_succ_lt_succ hj)

theorem convertLanes_spec (ha : convertible.plain e.fmt) (hb : known e.out) (pb : convertible.plain e.out) {l : List Nat}
    {n : Nat} {f : Nat → Nat} (hn : l.length = n) (hl : ∀ j < n, l.getD j 0 = f j ∧ f j < 2 ^ e.fmt.w) :
    ConvertsTo e force g n f (convertLanes e force g l) := by
  subst hn
  by_cases h : exactPair e.fmt e.out = true
  · refine (congrArg (ConvertsTo e force g l.length f) (if_pos h)).mpr ⟨List.length_map .., ?_, fun j hj => ?_⟩
    · exact ((congrArg (stepped e.x · g) (if_pos h)).trans (stepped_zero e.x g)).symm
    · exact (congrArg (ConvertsLane e force g j (f j)) ((getD_map_lt _ _ hj).trans (congrArg _ (hl j hj).1))).mpr
        ((convert_converts e.out force .ne 0 ha hb pb (hl j hj).2).imp_left (if_pos h).mpr)
  · refine (congrArg (ConvertsTo e force g l.length f) (if_neg h)).mpr ⟨length_roundLanes .., ?_, fun j hj => ?_⟩
    · exact (gen_roundLanes ..).trans (congrArg (stepped e.x · g) (if_neg h).symm)
    · exact (congrArg (ConvertsLane e force g j (f j)) ((getD_roundLanes e.x _ l g _ hj).trans
        (congrArg (convert e.fmt e.out force e.x.round (drawn e.x g j)) (hl j hj).1))).mpr
        ((convert_converts e.out force e.x.round _ ha hb pb (hl j hj).2).imp_left (if_neg h).mpr)

end

/-! ## Beats of converted lanes (R112, R122, R123) -/

/-- The flag of the j-th lane converted. -/
def flagAt (r : List (Nat × Bool)) (j : Nat) : Bool := (r.getD j (0, false)).2

/-- The beat of converted lanes. -/
noncomputable def beatOf (w : Nat) (l : List (Nat × Bool)) : Nat := packLanes w (l.map (·.1))

theorem beatOf_lt {w : Nat} {l : List (Nat × Bool)} (h : w * l.length ≤ 64) : beatOf w l < 2 ^ 64 :=
  (packLanes_lt ..).trans_le (Nat.pow_le_pow_right two_pos ((congrArg (w * ·) (List.length_map ..)).trans_le h))

/-- The lanes beyond those converted are zero (R112). -/
theorem lane_beatOf_zero (w : Nat) {l : List (Nat × Bool)} {j : Nat} (h : l.length ≤ j) : lane w (beatOf w l) j = 0 :=
  (lane_packLanes ..).trans ((congrArg (· % 2 ^ w) (List.getD_eq_default _ _ ((List.length_map ..).trans_le h))).trans (Nat.zero_mod _))

/-- Lane j of a beat of converted lanes, which is the i-th converted. -/
theorem ConvertsTo.packs {e : Env} {force : Bool} {g : BitVec 32} {n : Nat} {f : Nat → Nat} {r : List (Nat × Bool) × BitVec 32}
    (h : ConvertsTo e force g n f r) {i j : Nat} (hi : i < n) {l : List (Nat × Bool)}
    (hd : l.getD j (0, false) = r.1.getD i (0, false)) :
    convertsAt e g force i (f i) (lane e.out.w (beatOf e.out.w l) j) (flagAt r.1 i) := by
  obtain ⟨hconv, hlt⟩ := h.2.2 i hi
  have hcode : (l.map (·.1)).getD j 0 = (r.1.getD i (0, false)).1 := (List.getD_map l (0, false) Prod.fst).trans (congrArg Prod.fst hd)
  exact (congrArg (convertsAt e g force i (f i) · _) ((lane_packLanes ..).trans ((congrArg (· % 2 ^ e.out.w) hcode).trans
    (Nat.mod_eq_of_lt hlt)))).mpr hconv

theorem getD_take {α : Type} (l : List α) (d : α) {n j : Nat} (hj : j < n) : (l.take n).getD j d = l.getD j d :=
  congrArg (Option.getD · d) (List.getElem?_take_of_lt hj)

theorem getD_drop {α : Type} (l : List α) (d : α) (n j : Nat) : (l.drop n).getD j d = l.getD (n + j) d :=
  congrArg (Option.getD · d) List.getElem?_drop

theorem getD_lanesOf {w j : Nat} (d : Nat) (hj : j < 64 / w) : (lanesOf w d).getD j 0 = lane w d j := getD_map_range _ 0 hj

theorem length_lanesOf (w d : Nat) : (lanesOf w d).length = 64 / w := (List.length_map ..).trans List.length_range

/-- The first n lanes of a beat. -/
theorem getD_take_lanesOf {w n j : Nat} (d : Nat) (hn : n ≤ 64 / w) (hj : j < n) :
    ((lanesOf w d).take n).getD j 0 = lane w d j ∧ lane w d j < 2 ^ w :=
  ⟨(getD_take _ _ hj).trans (getD_lanesOf d (hj.trans_le hn)), lane_lt ..⟩

/-- cvt and cvts convert the lanes that both formats have (R122). -/
theorem cvt_converts {e : Env} (he : known e.fmt) (hb : known e.out) (h : convertible.plain e.fmt ∧ convertible.plain e.out)
    (force : Bool) (g : BitVec 32) (d : Nat) : e.out.w * (64 / max e.fmt.w e.out.w) ≤ 64 ∧
      ConvertsTo e force g (64 / max e.fmt.w e.out.w) (lane e.fmt.w d)
        (convertLanes e force g ((lanesOf e.fmt.w d).take (64 / max e.fmt.w e.out.w))) := by
  have hw : ∀ a ∈ [8, 16, 32, 64], ∀ b ∈ [8, 16, 32, 64], 64 / max a b ≤ 64 / a ∧ b * (64 / max a b) ≤ 64 := by decide
  obtain ⟨hn, h64⟩ := hw _ (width_of_plain he h.1) _ (width_of_plain hb h.2)
  exact ⟨h64, convertLanes_spec force g h.1 hb h.2 (List.length_take_of_le (hn.trans_eq (length_lanesOf ..).symm))
    fun j hj => getD_take_lanesOf d hn hj⟩

/-- The flag word of lanes' flags: bit j is lane j's (R108). -/
theorem flags_spec {r : List (Nat × Bool)} {n : Nat} (hn : r.length = n) : packLanes 1 (r.map fun q => b2n q.2) < 2 ^ n ∧
    ∀ j, (packLanes 1 (r.map fun q => b2n q.2)).testBit j = flagAt r j := by
  have hlt := packLanes_lt 1 (r.map fun q => b2n q.2)
  rw [List.length_map, Nat.one_mul, hn] at hlt
  refine ⟨hlt, fun j => ?_⟩
  have hlane := lane_packLanes 1 (r.map fun q => b2n q.2) j
  have hbit : (r.map fun q => b2n q.2).getD j 0 = b2n (flagAt r j) := List.getD_map _ (0, false) fun q => b2n q.2
  rw [hbit, lane, Nat.one_mul] at hlane
  refine (Nat.testBit_eq_decide_div_mod_eq ..).trans ((congrArg (fun b => decide (b = 1)) hlane).trans ?_)
  cases flagAt r j with
  | false => rfl
  | true => rfl

/-- What instruction i gives of its operands' data, as `conversion` tells it (R122, R123, R125, R126). -/
def Gives (x : Slot) (i : Instr) (e : Env) (g : BitVec 32) (v : List Nat) (q : Reply) : Prop :=
  match conversion x i with
  | some P => P e g v q
  | none => False

/-- A computation that packs n converted lanes into one beat for both consumers: F tells its flag word, L its lanes. -/
theorem ConvertsTo.reply {e : Env} {force : Bool} {g : BitVec 32} {n : Nat} {f : Nat → Nat} {r : List (Nat × Bool) × BitVec 32}
    (h : ConvertsTo e force g n f r) (h64 : e.out.w * n ≤ 64) {c : Compute} {v : List Nat} {fl : Nat}
    (hc : c e g v = ⟨beatOf e.out.w r.1, beatOf e.out.w r.1, fl, false, r.2⟩) {F : Nat → Prop} (hF : F fl) {N : Nat}
    {L : Nat → Nat → Nat → Prop} (hL : ∀ j < N, ∀ y, (j < n → convertsAt e g force j (f j) y (flagAt r.1 j)) →
      (¬j < n → y = 0) → L j y fl) :
    ∃ q, replies c e g v q ∧ q.vx = q.vy ∧ q.vx < 2 ^ 64 ∧ F q.fl ∧ q.rounds = roundsOf e n ∧
      ∀ j < N, L j (lane e.out.w q.vx j) q.fl := by
  exact ⟨⟨_, _, _, _⟩, hc.trans (congrArg (Computed.mk _ _ _ false) h.2.1), rfl, beatOf_lt (h.1.symm ▸ h64), hF, rfl,
    fun j hj => hL j hj _ (fun hn => h.packs hn rfl) fun hn => lane_beatOf_zero _ (h.1.trans_le (not_lt.1 hn))⟩

theorem cvt_gives (a : ElemArgs) {e : Env} (he : known e.fmt) (hb : known e.out) (h : convertible e (.elCvt a)) (g : BitVec 32)
    (v : List Nat) : ∃ q, replies (cvtBeat false) e g v q ∧ Gives e.x (.elCvt a) e g v q := by
  obtain ⟨h64, h⟩ := cvt_converts he hb h false g (v.getD 0 0)
  exact h.reply (c := cvtBeat false) h64 rfl (F := (· = 0)) rfl (N := 64 / e.out.w) (L := fun j y _ => if j < 64 / max e.fmt.w e.out.w
    then ∃ fl, convertsAt e g false j (lane e.fmt.w (v.getD 0 0) j) y fl else y = 0)
    fun j _ y hy h0 => ite_prop_iff_and.2 ⟨fun hj => ⟨_, hy hj⟩, h0⟩

theorem cvts_gives (a : ElemArgs) {e : Env} (he : known e.fmt) (hb : known e.out) (h : convertible e (.elCvts a)) (g : BitVec 32)
    (v : List Nat) : ∃ q, replies (cvtBeat true) e g v q ∧ Gives e.x (.elCvts a) e g v q := by
  obtain ⟨h64, h⟩ := cvt_converts he hb ⟨h.1.1, h.2.1⟩ true g (v.getD 0 0)
  obtain ⟨hfl, hbit⟩ := flags_spec h.1
  exact h.reply (c := cvtBeat true) h64 rfl (F := (· < 2 ^ (64 / max e.fmt.w e.out.w))) hfl
    (N := 64 / e.out.w) (L := fun j y fl => if j < 64 / max e.fmt.w e.out.w
      then convertsAt e g true j (lane e.fmt.w (v.getD 0 0) j) y (fl.testBit j) else y = 0)
    fun j _ y hy h0 => ite_prop_iff_and.2 ⟨fun hj => (hbit j).symm ▸ hy hj, h0⟩

/-- Lanes of half a width are twice as many. -/
theorem lanes_of_half {a b : Nat} (ha : a ∈ [8, 16, 32, 64]) (hb : b ∈ [8, 16, 32, 64]) (h : 2 * a = b) :
    64 / b + 64 / b = 64 / a := by
  have : ∀ a ∈ [8, 16, 32, 64], ∀ b ∈ [8, 16, 32, 64], 2 * a = b → 64 / b + 64 / b = 64 / a := by decide
  exact this a ha b hb h

/-- pack converts the lanes of both operands, one behind the other (R123). -/
theorem pack_gives (a : ElemArgs) {e : Env} (he : known e.fmt) (hb : known e.out) (hc : convertible e (.elPack a)) (g : BitVec 32)
    (v : List Nat) : ∃ q, replies packBeat e g v q ∧ Gives e.x (.elPack a) e g v q := by
  obtain ⟨hi, pb, hw⟩ := hc
  have pi : convertible.plain e.fmt := hi.imp_right .inl
  replace hi := width_of_plain he pi
  have ho := width_of_plain hb pb
  have hn : (lanesOf e.fmt.w (v.getD 0 0) ++ lanesOf e.fmt.w (v.getD 1 0)).length = 64 / e.out.w :=
    List.length_append.trans ((congrArg₂ (· + ·) (length_lanesOf ..) (length_lanesOf ..)).trans (lanes_of_half ho hi hw))
  have h := convertLanes_spec (f := fun j => if j < 64 / e.fmt.w then lane e.fmt.w (v.getD 0 0) j
    else lane e.fmt.w (v.getD 1 0) (j - 64 / e.fmt.w)) false g pi hb pb hn fun j hj =>
      ⟨(congrArg (Option.getD · 0) List.getElem?_append).trans ((apply_ite (Option.getD · 0) ..).trans
        (ite_congr (congrArg (j < ·) (length_lanesOf ..)) (fun h => getD_lanesOf _ h) fun h =>
          (congrArg (fun n => (lanesOf e.fmt.w (v.getD 1 0)).getD (j - n) 0) (length_lanesOf ..)).trans
            (getD_lanesOf _ (Nat.sub_lt_left_of_lt_add (not_lt.1 h) (hj.trans_eq (lanes_of_half ho hi hw).symm))))),
        ite_lt (fun _h => lane_lt ..) fun _h => lane_lt ..⟩
  exact h.reply (c := packBeat) (lanes_fill ho).le rfl (F := (· = 0)) rfl (N := 64 / e.out.w)
    (L := fun j y _ => ∃ fl, convertsAt e g false j _ y fl)
    fun j hj y hy _ => ⟨_, hy hj⟩

/-- unpack converts the lower lanes for CX and the upper ones for CY (R123). -/
theorem unpack_gives (a : ElemArgs) {e : Env} (he : known e.fmt) (hb : known e.out) (hc : convertible e (.elUnpack a))
    (g : BitVec 32) (v : List Nat) : ∃ q, replies unpackBeat e g v q ∧ Gives e.x (.elUnpack a) e g v q := by
  obtain ⟨⟨pi, -⟩, pb, hw, -⟩ := hc
  have hi := width_of_plain he pi
  have ho := width_of_plain hb pb
  have hn : 2 * (64 / e.out.w) = 64 / e.fmt.w := (Nat.two_mul _).trans (lanes_of_half hi ho hw.symm)
  have h := convertLanes_spec false g pi hb pb (List.length_take_of_le (hn.trans (length_lanesOf ..).symm).le)
    fun j hj => getD_take_lanesOf (v.getD 0 0) hn.le hj
  have hlen : ∀ l : List (Nat × Bool), l.length ≤ 64 / e.out.w → e.out.w * l.length ≤ 64 := fun l hl =>
    (Nat.mul_le_mul_left _ hl).trans_eq (lanes_fill ho)
  exact ⟨⟨_, _, 0, roundsOf e (64 / e.fmt.w)⟩, congrArg (Computed.mk _ _ 0 false) (hn ▸ h.2.1),
    beatOf_lt (hlen _ (List.length_take_le ..)), beatOf_lt (hlen _ (List.length_drop.trans_le ((congrArg (· - _) (h.1.trans (Nat.two_mul _))).trans
      (Nat.add_sub_cancel ..)).le)), rfl, rfl,
    fun j hj => ⟨⟨_, h.packs (hj.trans_le (Nat.le_mul_of_pos_left _ two_pos)) (getD_take _ _ hj)⟩,
      _, h.packs ((Nat.add_lt_add_left hj _).trans_eq (Nat.two_mul _).symm) (getD_drop ..)⟩⟩

/-! ## Broadcast and dot products (R78, R81, R125, R126) -/

theorem signBit_bit {m : Fmt} (hw : m.w = m.fl.width) {c : Nat} (hc : c < 2 ^ m.w) :
    m.fl.signBit (bit c (m.fl.e + m.fl.f)) = signOnly m c := by
  have hq : c / 2 ^ (m.fl.e + m.fl.f) < 2 :=
    Nat.div_lt_of_lt_mul (hc.trans_eq ((congrArg (2 ^ ·) hw).trans ((two_pow_width _).trans (Nat.mul_two _).symm)))
  have h : ∀ q < 2, (if (q % 2 == 1) = true then 2 ^ (m.fl.e + m.fl.f) else 0) = q * 2 ^ (m.fl.e + m.fl.f) :=
    Nat.forall_lt_succ_right.2 ⟨Nat.forall_lt_succ_right.2 ⟨fun _ h => absurd h (Nat.not_lt_zero _), (Nat.zero_mul _).symm⟩,
      (Nat.one_mul _).symm⟩
  exact h _ hq

/-- A code cleared to its sign, or as it is (R78). -/
theorem clearedToSign {m : Fmt} (hw : m.w = m.fl.width) {c : Nat} (hc : c < 2 ^ m.w) (p : Bool) :
    (if p then m.fl.signBit (bit c (m.fl.e + m.fl.f)) else c) = (if p then signOnly m c else c) ∧
      (if p then signOnly m c else c) < 2 ^ m.w :=
  ⟨congrArg (fun z => if p then z else c) (signBit_bit hw hc), ite_lt (fun _h => (Nat.div_mul_le_self ..).trans_lt hc) fun _h => hc⟩

/-- A code whose fraction is zero, or read under DAZ, with a zero exponent field is a zero (R76, R78). -/
theorem decode_tiny {m : FloatFmt} (he : 0 < m.e) {daz : Bool} {c : Nat} (h0 : c / 2 ^ m.f % 2 ^ m.e = 0)
    (hf : c % 2 ^ m.f = 0 ∨ daz = true) : m.decode daz c = .zero (bit c (m.e + m.f)) := by
  have hne : ∀ p : Bool, ¬(p && decide (c / 2 ^ m.f % 2 ^ m.e = 2 ^ m.e - 1)) = true := fun p h =>
    absurd (h0.symm.trans (of_decide_eq_true (Bool.and_eq_true_iff.1 h).2)) (Nat.sub_pos_of_lt (Nat.one_lt_two_pow he.ne')).ne
  exact (if_neg (hne _)).trans ((if_neg fun h => hne _ (Bool.and_eq_true_iff.1 h).1).trans ((if_pos h0).trans
    (if_pos (Bool.or_eq_true_iff.2 (hf.imp_left decide_eq_true)))))

/-- The exponent and the fraction field of a code cleared to its sign. -/
theorem fields_signOnly (q e f : Nat) : q * 2 ^ (e + f) / 2 ^ f % 2 ^ e = 0 ∧ q * 2 ^ (e + f) % 2 ^ f = 0 := by
  rw [Nat.pow_add, ← Nat.mul_assoc]
  exact ⟨(congrArg (· % 2 ^ e) (Nat.mul_div_cancel _ (Nat.two_pow_pos f))).trans (Nat.mul_mod_left ..), Nat.mul_mod_left ..⟩

theorem isNan_readCode {m : Fmt} (he : 0 < m.fl.e) (c : Nat) : (m.fl.decode false (readCode m c)).isNan = (m.val c).isNan := by
  have h : ∀ daz : Bool, (m.fl.decode false (if daz && tiny m c then signOnly m c else c)).isNan = (m.fl.decode daz c).isNan := fun daz => by
    induction daz with
    | false => rfl
    | true =>
      by_cases h : c / 2 ^ m.fl.f % 2 ^ m.fl.e = 0
      · have hs := fields_signOnly (c / 2 ^ (m.fl.e + m.fl.f)) m.fl.e m.fl.f
        exact (congrArg (fun z => (m.fl.decode false z).isNan) (if_pos (decide_eq_true h))).trans
          ((congrArg FVal.isNan (decode_tiny he hs.1 (.inl hs.2))).trans (congrArg FVal.isNan (decode_tiny he h (.inr rfl))).symm)
      · exact (congrArg (fun z => (m.fl.decode false z).isNan) (if_neg (mt of_decide_eq_true h))).trans
          (congrArg FVal.isNan (if_congr Iff.rfl rfl (if_congr Iff.rfl rfl ((if_neg h).trans (if_neg h).symm))))
  exact h m.b.daz

/-- What bcast sends of a lane of a floating format that decodes to v (R78, R125). -/
noncomputable def spreadOf (m : Fmt) (c : Nat) (v : FVal) : Nat :=
  match Val.of v with
  | .nan => m.fl.nanCode
  | _ => flushCode m (readCode m c)

/-- What bcast sends of a lane is what its rule gives (R78, R125). -/
theorem spread_eq {m : Fmt} (hm : known m) {c : Nat} (hc : c < 2 ^ m.w) :
    (if m.kind = .float || m.kind = .e then if (m.val c).isNan then m.fl.nanCode else m.flush (m.read c) else c) =
      conversion.spread m c ∧ conversion.spread m c < 2 ^ m.w := by
  have hk : (m.kind = .float ∨ m.kind = .e) →
      (if (m.val c).isNan then m.fl.nanCode else m.flush (m.read c)) = spreadOf m c (m.fl.decode false (readCode m c)) ∧
      spreadOf m c (m.fl.decode false (readCode m c)) < 2 ^ m.w := fun hk => by
    obtain ⟨hw, he, hfit⟩ := floating_known hm hk
    obtain ⟨hread, hr⟩ := clearedToSign hw hc (m.b.daz && tiny m c)
    obtain ⟨hflush, hf⟩ := clearedToSign hw hr (m.b.ftz && tiny m (readCode m c))
    have hcode : m.flush (m.read c) = flushCode m (readCode m c) := (congrArg m.flush hread).trans hflush
    rw [← isNan_readCode he c, hcode]
    generalize m.fl.decode false (readCode m c) = v
    induction v with
    | nan _ => exact ⟨rfl, hw.symm ▸ nanCode_lt hfit⟩
    | _ => exact ⟨rfl, hf⟩
  exact ⟨ite_congr (propext (Bool.or_eq_true_iff.trans (or_congr decide_eq_true_iff decide_eq_true_iff))) (fun h => (hk h).1) fun _h => rfl,
    ite_lt (fun h => (hk h).2) fun _h => hc⟩

theorem bcast_gives (a : ElemArgs) {e : Env} (hb : known e.fmt) (pb : convertible e (.elBcast a)) (g : BitVec 32)
    (v : List Nat) : ∃ q, replies bcastBeat e g v q ∧ Gives e.x (.elBcast a) e g v q := by
  have hw := width_of_plain hb pb
  obtain ⟨hs, hlt⟩ := spread_eq hb (lane_lt e.fmt.w (v.getD 0 0) (e.x.param 0x15 0))
  obtain ⟨h64, hl⟩ := packed (lanes_fill hw).le (List.length_replicate (n := 64 / e.fmt.w)
    (a := conversion.spread e.fmt (lane e.fmt.w (v.getD 0 0) (e.x.param 0x15 0))))
  refine ⟨⟨_, _, 0, 0⟩, (congrArg (fun c => Computed.both (packLanes e.fmt.w (List.replicate (64 / e.fmt.w) c)) g) hs).trans
    (congrArg (Computed.both _) (stepped_zero ..).symm), rfl,
    h64, rfl, rfl, fun j hj => ?_⟩
  have hj : (List.replicate (64 / e.fmt.w) (conversion.spread e.fmt (lane e.fmt.w (v.getD 0 0) (e.x.param 0x15 0)))).getD j 0 = _ :=
    List.getD_replicate _ hj
  exact (hl j (hj.trans_lt hlt)).trans hj

/-- dot clamps the exact sum of products (R126). -/
theorem dotBeat_gives {e : Env} (g : BitVec 32) (w : Nat → Nat) {t : Int} (ho : e.out.w ∈ [8, 16, 32, 64])
    (ht : dotSum e.fmt (w 0) (w 1) = some t) : ∃ q, replies dotBeat e g ([0, 1].map w) q ∧
      q.vx = q.vy ∧ q.vx < 2 ^ e.out.w ∧ q.fl < 2 ∧ q.rounds = 0 ∧ clamps e.out t q.vx (q.fl.testBit 0) := by
  have hb : ∀ b : Bool, b2n b < 2 ∧ (b2n b).testBit 0 = b
    | false => ⟨Nat.zero_lt_two, rfl⟩
    | true => ⟨Nat.one_lt_two, rfl⟩
  obtain ⟨hlt, hbit⟩ := hb (e.out.sat t).2
  refine ⟨⟨wrapLane e.out.w (e.out.sat t).1, _, b2n (e.out.sat t).2, 0⟩, ?_, rfl, wrapLane_lt .., hlt, rfl,
    hbit.symm ▸ clamps_sat ho t⟩
  unfold replies dotBeat
  rw [show dotSum e.fmt (arg 0 ([0, 1].map w) 0) (arg 0 ([0, 1].map w) 1) = some t from ht, stepped_zero]

theorem dot_gives (a : ElemArgs) {e : Env} (hb : known e.out) (h : convertible e (.elDot a)) (g : BitVec 32)
    (w : Nat → Nat) : ∃ q, replies dotBeat e g ([0, 1].map w) q ∧
      Gives e.x (.elDot a) e g ([0, 1].map w) q := by
  have hsum : dotSum e.fmt (w 0) (w 1) = some ((List.range (64 / e.fmt.w)).map fun j =>
      intOf e.fmt (lane e.fmt.w (w 0) j) * intOf e.fmt (lane e.fmt.w (w 1) j)).sum := by
    refine (if_neg (by rw [h.1]; nofun)).trans ?_
    rw [lanesOf, lanesOf, List.zip_map', List.map_map]
    exact congrArg (fun l => some (List.sum l)) (List.map_congr_left fun j _ => congrArg₂ (· * ·)
      (int_eq_intOf _ (lane_lt ..)) (int_eq_intOf _ (lane_lt ..)))
  exact dotBeat_gives g w (width_of_plain hb (.inl h.2.2)) hsum

theorem trits_mapM {f : Nat → Nat} (l : List Nat) (hf : ∀ j ∈ l, f j < 243) :
    (l.map f).mapM tritsOf = some (l.map fun j => (List.range 5).map fun i => conversion.trit (f j) i) := by
  induction l with
  | nil => rfl
  | cons j l ih =>
    have hj : tritsOf (f j) = some _ := if_neg (not_le.2 (hf j (.head _)))
    rw [List.map_cons, List.mapM_cons, hj, ih fun k hk => hf k (.tail _ hk)]
    rfl

theorem zip_flatten {α β : Type} (f : Nat → Nat → α) (g : Nat → Nat → β) (n : Nat) (l : List Nat) :
    (l.map fun j => (List.range n).map (f j)).flatten.zip (l.map fun j => (List.range n).map (g j)).flatten =
      l.flatMap fun j => (List.range n).map fun i => (f j i, g j i) := by
  induction l with
  | nil => rfl
  | cons j l ih =>
    refine (List.zip_append ((List.length_map _).trans (List.length_map _).symm)).trans ?_
    rw [ih, List.zip_map']
    rfl

theorem dott_gives (a : ElemArgs) {e : Env} (hb : known e.out) (h : convertible e (.elDott a)) (g : BitVec 32)
    (w : Nat → Nat) (hc : ∀ o < 2, ∀ j < 8, lane 8 (w o) j < 243) :
    ∃ q, replies dotBeat e g ([0, 1].map w) q ∧ Gives e.x (.elDott a) e g ([0, 1].map w) q := by
  have htrits : ∀ o < 2, tritsOfBeat (w o) = some _ := fun o h =>
    congrArg (Option.map List.flatten) (trits_mapM (List.range 8) fun j hj => hc o h j (List.mem_range.1 hj))
  have hsum : dotSum e.fmt (w 0) (w 1) = some ((List.range 8).flatMap fun j => (List.range 5).map fun i =>
      conversion.trit (lane 8 (w 0) j) i * conversion.trit (lane 8 (w 1) j) i).sum := by
    refine (if_pos h.1).trans ?_
    rw [htrits 0 two_pos, htrits 1 one_lt_two]
    refine congrArg (fun l => some (List.sum l)) ?_
    rw [zip_flatten, List.map_flatMap]
    simp only [List.map_map]
    rfl
  exact (dotBeat_gives g w (width_of_plain hb (.inl h.2)) hsum).imp fun q hq => hq.imp_right fun h _ => h

/-! ## Turns of whole-slab elements (R94, R105, R124) -/

/-- The slot that sends beats to both consumers at once. -/
noncomputable def sentBoth (x : Slot) (bs : List Beat) : Slot := queued (queued x (sent x.cx bs)) (sent x.cy bs)

/-- The slot that sends beats to both consumers behind what it is still sending (R94, R124). -/
noncomputable def slabSent (s : State) (x : Slot) (bs : List Beat) : Slot :=
  if s.el.pipe = [] then sentBoth x bs else piped x (issuedBoth x (firstOut s 0) bs)

/-- A run with its slab and its discards. -/
noncomputable def runWith (r : Run) (beats : List Beat) (drains : List Nat) : Run := { r with beats, drains }

/-- The slot that has taken a beat of A into run r. -/
noncomputable def slabbed (x : Slot) (r : Run) : Slot := { x with portA := x.portA.drop 1, run := r }

namespace SlotGoes

variable {s t : State} {x : Slot}

/-- What a state makes of its own acting slot, from where another state has left it. -/
theorem andThen {f : State → State} {y : Slot → Slot} (hf : ∀ t : State, SlotGoes t (f t) (y t.el)) (h : SlotGoes s t x) :
    SlotGoes s (f t) (y x) := h.el_eq ▸ h.trans (hf t)

theorem slabbed (h : SlotGoes s t x) (r : Run) : SlotGoes s ((t.taken 0 1).setRun r) (slabbed x r) :=
  h.andThen (f := fun t => (t.taken 0 1).setRun r) (y := fun x => Claims.slabbed x r) fun t =>
    ((refl t).takeFrom 0 1).andThen (f := fun t => t.setRun r) (y := fun x => { x with run := r }) fun t => .setSlot t _

theorem toBoth (h : SlotGoes s t x) (bs : List Beat) : SlotGoes s (t.toBoth bs) (sentBoth x bs) :=
  (h.andThen (f := fun t => t.toX bs) (y := fun x => queued x (sent x.cx bs)) fun t => (refl t).emitAll ..).andThen
    (f := fun t => t.toY bs) (y := fun x => queued x (sent x.cy bs)) fun t => (refl t).emitAll ..

theorem toBothIn (h : SlotGoes s t x) (hp : x.pipe = s.el.pipe) (n : Nat) (bs : List Beat) :
    SlotGoes s (t.toBothIn n bs) (piped x (issuedBoth x (firstOut s n) bs)) := by
  have hf : firstOut t n = firstOut s n := by
    unfold firstOut
    rw [h.el_eq, hp, h.fc]
  have k : SlotGoes t (t.toBothIn n bs) (piped t.el (issuedBoth t.el (firstOut t n) bs)) := (refl t).emitPairs ..
  rw [hf, h.el_eq] at k
  exact h.trans k

theorem sendSlab (h : SlotGoes s t x) (hp : x.pipe = s.el.pipe) (bs : List Beat) : SlotGoes s (t.sendSlab bs) (slabSent s x bs) := by
  have he : t.el.pipe.isEmpty = true ↔ s.el.pipe = [] := by
    rw [h.el_eq, hp]
    exact List.isEmpty_iff
  exact ite (fun c => (congrArg (SlotGoes s _) (if_pos (he.1 c))).mpr (h.toBoth bs)) fun c =>
    (congrArg (SlotGoes s _) (if_neg (mt he.2 c))).mpr (h.toBothIn hp 0 bs)

theorem malformed (h : SlotGoes s t x) (hp : x.pipe = s.el.pipe) : SlotGoes s (t.malformed 1) (slabSent s x [badSolo]) :=
  (h.sendSlab hp [badSolo]).quiet (.countError _)

theorem el_env (h : SlotGoes s t x) : (t.tile t.curTile).env t.el = (s.tile s.curTile).env x :=
  (congrArg _ h.el_eq).trans (h.env x)

end SlotGoes

/-- What a step of a slab makes of a state that has taken the beat in: the slab givesWhole, the LOOPEND sent on (R94). -/
noncomputable def slabEnd (f : State → List Beat → State) (k : SlabStep) (s : State) : State :=
  let u := match k.done with
    | some l => f (s.malformed k.bad) l
    | none => s.malformed k.bad
  match k.loop with
  | some b => u.sendSlab [b]
  | none => u

theorem slabTurn_eq {t : State} {x : Slot} {b : Beat} {D d : List Nat} {l c : List Beat} {cap : Nat} {ok : Nat → Bool} {k : SlabStep}
    (hx : t.el = x) (hb : headBeat x.portA = some b) (hd : x.run.drains = D) (hl : x.run.beats = l)
    (hk : slabStep (D.contains 0) l cap ok b = k) (hc : k.cur = c) (hdr : (if k.drop then [0] else []) = d)
    (f : State → List Beat → State) :
    t.slabTurn cap ok f = some (slabEnd f k ((t.taken 0 1).setRun (runWith x.run c d))) := by
  subst hx hd hl hk hc hdr
  unfold State.slabTurn
  rw [hb]
  rfl

theorem sentWhereFree_of_freeOut {x : Slot} (y : Slot) (h : State.freeOut x = true) : State.sentWhereFree x y = true :=
  have hxy := Bool.and_eq_true_iff.1 h
  List.all_eq_true.2 (List.forall_mem_cons.2 ⟨Bool.or_eq_true_iff.2 (.inl hxy.1),
    List.forall_mem_singleton.2 (Bool.or_eq_true_iff.2 (.inl hxy.2))⟩)

/-- A turn that finds what it needs (R105). -/
theorem turn_goes {s t : State} {op : Nat} {a : ElemArgs} {F : State → Option State} {y : Slot} (h : canTurn s op a)
    (hF : F (s.bearing op a) = some t) (hy : SlotGoes s t y) : SlotGoes s (s.turn op a F) y := by
  have he := (SlotGoes.bearing h.2.2.1).el_eq
  have ht : s.turn op a F = (t.moved s.curTile).wake s.curTile s.curSlot := by
    refine (if_neg (ne_empty_of_stands h.1)).trans ((if_pos (he ▸ live_of_stands h.1 h.2.1)).trans ?_)
    rw [hF]
    exact if_pos (he ▸ sentWhereFree_of_freeOut t.el h.2.2.2)
  exact ht ▸ hy.moved.posts (.wake ..)

/-- Slot y with the ports, the result queue, the run and the generators of x (R73). -/
noncomputable def restored (x y : Slot) : Slot :=
  { y with portA := x.portA, portB := x.portB, portC := x.portC, portP := x.portP, out := x.out, run := x.run, gens := x.gens }

section

variable (x : Slot) (r : Run)

theorem slabbed_port : ∀ o < 4, (slabbed x r).port o = (x.port o).drop (from1 0 1 o) := forall_port rfl rfl rfl rfl

/-- A slot that takes a beat in differs in its port A and its run alone. -/
theorem slabbed_rest : restored x (slabbed x r) = x := rfl

end

/-- A turn that takes a beat in and sends nothing (R94). -/
theorem turned_of_slabbed {s t : State} {r : Run} (h : SlotGoes s t (slabbed s.el r)) :
    turned s t (from1 0 1) (sent s.el.cx [] ++ sent s.el.cy []) r (s.el.gen 0) := by
  obtain ⟨ho, he⟩ := h
  exact ⟨ho, fun o h4 => (congrArg (·.port o) he).trans (slabbed_port s.el r o h4), (congrArg Slot.out he).trans
    ((List.append_nil _).symm.trans (congrArg _ (congrArg₂ (· ++ ·) (sent_nil _) (sent_nil _)).symm)), (congrArg Slot.run he :),
    (congrArg (·.gen 0) he :), (congrArg (restored s.el) he).trans (slabbed_rest s.el r)⟩

/-- What `slabSends` tells of the slot, of slot y. -/
def SlabSent (s : State) (bs : List Beat) (r : Run) (y : Slot) : Prop :=
  (∀ o < 4, y.port o = (s.el.port o).drop (from1 0 1 o)) ∧ y.run = r ∧ y.gens = s.el.gens ∧
    (if s.el.pipe = [] then y.out = s.el.out ++ sent s.el.cx bs ++ sent s.el.cy bs ∧ y.pipe = []
      else y.out = s.el.out ∧ y.pipe = s.el.pipe ++ issuedBoth s.el (firstOut s 0) bs)

theorem slabSent_spec (s : State) (bs : List Beat) (r : Run) : SlabSent s bs r (slabSent s (slabbed s.el r) bs) := by
  by_cases hp : s.el.pipe = []
  · exact (congrArg (SlabSent s bs r) (if_pos hp)).mpr ⟨slabbed_port s.el r, rfl, rfl, (if_pos hp).mpr ⟨rfl, hp⟩⟩
  · exact (congrArg (SlabSent s bs r) (if_neg hp)).mpr ⟨slabbed_port s.el r, rfl, rfl, (if_neg hp).mpr ⟨rfl, rfl⟩⟩

/-- Element instruction i takes beats into slabs of at most cap beats, of lengths that ok admits, which f completes. -/
def SlabElement (i : Instr) (s : State) (op : Nat) (a : ElemArgs) (cap : Nat) (ok : Nat → Prop) (f : State → List Beat → State) : Prop :=
  ∃ F ok', exec i s = .next (s.turn op a F) ∧ (∀ n, ok n → ok' n = true) ∧
    ∀ t : State, (t.tile t.curTile).env t.el = (s.tile s.curTile).env s.el → F t = t.slabTurn cap ok' f

section

variable {i : Instr} {s : State} {op cap : Nat} {a : ElemArgs} {ok : Nat → Prop} {f : State → List Beat → State} {b : Beat}
  {D d : List Nat} {l c : List Beat} {k : SlabStep} (hi : SlabElement i s op a cap ok f) (h : canTurn s op a) (hb : headed s.el 0 b)
  (hd : s.el.run.drains = D) (hl : s.el.run.beats = l)
  (hk : ∀ ok' : Nat → Bool, (∀ n, ok n → ok' n = true) → slabStep (D.contains 0) l cap ok' b = k) (hc : k.cur = c)
  (hdr : (if k.drop then [0] else []) = d)
include hi h hb hd hl hk hc hdr

/-- A whole-slab element's turn makes of the slab what its step of the slab tells (R94). -/
theorem slab_goes {y : Slot} (hy : ∀ t, SlotGoes s t (slabbed s.el (runWith s.el.run c d)) → SlotGoes s (slabEnd f k t) y) :
    ∃ t, exec i s = .next t ∧ SlotGoes s t y := by
  obtain ⟨F, ok', hexec, hok, hF⟩ := hi
  have g := SlotGoes.bearing h.2.2.1
  exact ⟨_, hexec, turn_goes h ((hF _ g.el_env).trans (slabTurn_eq g.el_eq (headBeat_of_headed hb) hd hl (hk ok' hok) hc hdr f))
    (hy _ (g.slabbed _))⟩

/-- A turn that takes a beat in and sends nothing (R94). -/
theorem slab_takes (hend : ∀ t, slabEnd f k t = t) : takes i s (from1 0 1) [] [] (runWith s.el.run c d) :=
  (slab_goes hi h hb hd hl hk hc hdr fun t g => (hend t).symm ▸ g).imp fun _t g => g.imp_right turned_of_slabbed

/-- A turn that takes a beat and sends others behind what the slot still sends (R94, R124). -/
theorem slab_sends {bs : List Beat} (hend : ∀ t y, SlotGoes s t y → y.pipe = s.el.pipe → SlotGoes s (slabEnd f k t) (slabSent s y bs)) :
    slabSends i s bs (runWith s.el.run c d) :=
  (slab_goes hi h hb hd hl hk hc hdr fun t g => hend t _ g rfl).imp fun _t g => g.imp_right fun g =>
    g.imp_right fun he => (congrArg (SlabSent s bs _) he).mpr (slabSent_spec s bs _)

end

/-- The beat as one of another KIND. -/
noncomputable def ofBeat (b : Beat) (q : Kind) : Beat := { b with kind := q }

theorem of_beatKind {b : Beat} {q : Kind} {P : Beat → Prop} (h : b.kind = q) (p : P (ofBeat b q)) : P b := by
  subst h
  exact p

theorem slabStep_slabBeat {l : List Beat} {b : Beat} {cap : Nat} (h : slabBeat l b cap) (ok : Nat → Bool) :
    slabStep false l cap ok b = { cur := l ++ [b] } := by
  rcases h with ⟨rfl, hb⟩ | ⟨hl, hb, hc⟩
  · exact of_beatKind (P := fun b => slabStep false [] cap ok b = { cur := [b] }) hb rfl
  · obtain ⟨c, l, rfl⟩ := List.exists_cons_of_ne_nil hl
    exact of_beatKind (P := fun b => slabStep false (c :: l) cap ok b = { cur := c :: l ++ [b] }) hb (if_neg (not_lt.2 hc))

theorem slabStep_stray {b : Beat} (h : b.kind = .data ∨ b.kind = .tail) (cap : Nat) (ok : Nat → Bool) :
    slabStep false [] cap ok b = { bad := 1 } :=
  h.elim (of_beatKind (P := fun b => slabStep false [] cap ok b = { bad := 1 }) · rfl)
    (of_beatKind (P := fun b => slabStep false [] cap ok b = { bad := 1 }) · rfl)

theorem slabStep_loopend {b : Beat} (h : b.kind = .loopend) (cap : Nat) (ok : Nat → Bool) :
    slabStep false [] cap ok b = { loop := some b } :=
  of_beatKind (P := fun b => slabStep false [] cap ok b = { loop := some b }) h rfl

theorem slabStep_long {l : List Beat} {b : Beat} {cap : Nat} (hl : l ≠ []) (h : b.kind = .data) (hc : cap ≤ l.length)
    (ok : Nat → Bool) : slabStep false l cap ok b = { bad := 1, drop := true } := by
  obtain ⟨c, l, rfl⟩ := List.exists_cons_of_ne_nil hl
  exact of_beatKind (P := fun b => slabStep false (c :: l) cap ok b = { bad := 1, drop := true }) h (if_pos (Nat.lt_succ_of_le hc))

theorem slabStep_discards {b : Beat} (h : b.kind = .data ∨ b.kind = .tail) (cap : Nat) (ok : Nat → Bool) :
    slabStep true [] cap ok b = { drop := decide (b.kind = .data) } :=
  h.elim (of_beatKind (P := fun b => slabStep true [] cap ok b = { drop := decide (b.kind = .data) }) · rfl)
    (of_beatKind (P := fun b => slabStep true [] cap ok b = { drop := decide (b.kind = .data) }) · rfl)

theorem slabStep_whole {l : List Beat} {b : Beat} {cap : Nat} {ok : Nat → Bool} (hl : l ≠ []) (h : b.kind = .tail)
    (hc : l.length + 1 ≤ cap) (hok : ok (l.length + 1) = true) : slabStep false l cap ok b = { done := some (l ++ [b]) } := by
  obtain ⟨c, l, rfl⟩ := List.exists_cons_of_ne_nil hl
  refine of_beatKind (P := fun b => slabStep false (c :: l) cap ok b = { done := some (c :: l ++ [b]) }) h (if_neg ?_)
  rw [hok, decide_eq_false (not_lt.2 hc)]
  exact Bool.false_ne_true

/-! ## Complete slabs (R80, R89, R90, R93, R124) -/

/-- The generators of a slot once the first is g where p holds (R89). -/
noncomputable def gensSet (x : Slot) (p : Prop) [Decidable p] (g : BitVec 32) : Table (BitVec 32) :=
  if p then put x.gens 0 g else x.gens

theorem gen_gensSet (x : Slot) (p : Prop) [Decidable p] (g : BitVec 32) :
    (withGens x (gensSet x p g)).gen 0 = if p then g else x.gen 0 := by
  by_cases hp : p
  · exact (congrArg (fun t => (withGens x t).gen 0) (if_pos hp)).trans ((congrArg (Option.getD · _) (find_put_same ..)).trans
      (if_pos hp).symm)
  · exact (congrArg (fun t => (withGens x t).gen 0) (if_neg hp)).trans (if_neg hp).symm

theorem SlotGoes.setGen {s t : State} {x : Slot} (h : SlotGoes s t x) (p : Prop) [Decidable p] (g : BitVec 32) :
    SlotGoes s (if p then t.setGen g else t) (withGens x (gensSet x p g)) :=
  .ite (fun hp => (congrArg (fun t => SlotGoes s _ (withGens x t)) (if_pos hp)).mpr
      (h.andThen (f := fun t => t.setGen g) (y := fun x => withGens x (put x.gens 0 g)) fun t => .setSlot t _))
    fun hp => (congrArg (fun t => SlotGoes s _ (withGens x t)) (if_neg hp)).mpr h

/-- A complete slab l of instruction i gives the beats bs, and leaves the generator g (R80, R89, R90, R124). -/
def givesWhole (i : Instr) (s : State) (e : Env) (l : List Beat) (g : BitVec 32) (bs : List Beat) : Prop :=
  (∀ z, i = .elQmx z → e.out.kind = .mx → g = stepped s.el (slabValues e.fmt l).length (s.el.gen 0) ∧
    bs = mxSlab e.out (l.any (·.poi)) (mxQuantiseAll e.out s.el.round
      (pieces 32 ((slabValues e.fmt l).length / 32) (slabValues e.fmt l)) (s.el.gen 0)).1) ∧
  (∀ z, i = .elDqmx z → e.out.kind = .float → e.fmt.kind = .mx → ∀ vs : List FVal,
    vs = (mxSlabValues e.fmt (l.map fun c => c.data.toNat)).flatten →
    bs.length = vs.length / (64 / e.out.w) ∧
    (g = if e.out.code = 0x10 then s.el.gen 0 else stepped s.el vs.length (s.el.gen 0)) ∧
    (∀ c ∈ bs, c.poi = l.any (·.poi)) ∧
    (l.any (·.poi) = false → ∀ q < vs.length, lane e.out.w (bs.getD (q / (64 / e.out.w)) {}).data.toNat (q % (64 / e.out.w)) =
      e.out.fl.roundExact e.out.b s.el.round (drawn s.el (s.el.gen 0) q) (vs.getD q (.nan true)).exact))

/-- The slot that has taken a beat into run r and issued a slab, 4 fc later at the earliest (R124). -/
noncomputable def slabIssued (s : State) (r : Run) (gens : Table (BitVec 32)) (bs : List Beat) : Slot :=
  piped (withGens (slabbed s.el r) gens) (issuedBoth s.el (firstOut s 4) bs)

/-- What completes a slab of the operation. -/
noncomputable def slabMaker (op : Nat) : State → List Beat → State := if op = 0x3C then State.qmxSlab else State.dqmxSlab

/-- Of a complete slab of a legal length f issues what its instruction gives of it. -/
def Completes (i : Instr) (s : State) (ok : Nat → Prop) (f : State → List Beat → State) : Prop :=
  ∀ r l, ok l.length → ∃ gens bs, (∀ t, SlotGoes s t (slabbed s.el r) → SlotGoes s (f t l) (slabIssued s r gens bs)) ∧
    givesWhole i s ((s.tile s.curTile).env s.el) l ((withGens s.el gens).gen 0) bs

theorem stepped_add (x : Slot) (m n : Nat) (g : BitVec 32) : stepped x (m + n) g = stepped x n (stepped x m g) := by
  unfold stepped
  split
  · rw [Nat.add_comm]
    exact Function.iterate_add_apply ..
  · rfl

/-- Blocks quantised one after another step the generator for each of their values (R89). -/
theorem gen_mxQuantiseAll (x : Slot) (m : Fmt) (l : List (List FVal)) (g : BitVec 32) :
    (mxQuantiseAll m x.round l g).2 = stepped x l.flatten.length g := by
  induction l generalizing g with
  | nil => exact (stepped_zero x g).symm
  | cons b l ih =>
    have hb : (mxQuantise m x.round g b).2.2 = stepped x b.length g :=
      (gen_roundLanes x ..).trans (congrArg (stepped x · g) List.length_range)
    refine (ih _).trans ?_
    rw [hb, ← stepped_add, List.flatten_cons, List.length_append]

theorem flatten_pieces {α : Type} (n k : Nat) (l : List α) : (pieces n k l).flatten = l.take (n * k) := by
  induction k generalizing l with
  | zero => rfl
  | succ k ih =>
    refine (congrArg (l.take n ++ ·) (ih (l.drop n))).trans ?_
    rw [← List.take_add, Nat.mul_succ, Nat.add_comm]

theorem length_slabValues (m : Fmt) (l : List Beat) : (slabValues m l).length = l.length * (64 / m.w) := by
  induction l with
  | nil => exact (Nat.zero_mul _).symm
  | cons b l ih =>
    refine (List.length_append.trans (congrArg₂ (· + ·) ((List.length_map ..).trans (length_lanesOf m.w b.data.toNat)) ih)).trans ?_
    rw [List.length_cons, Nat.succ_mul, Nat.add_comm]

/-- The blocks of a slab's values, quantised one after another (R80, R89). -/
noncomputable def quantised (x : Slot) (e : Env) (l : List Beat) : List (Nat × List Nat) × BitVec 32 :=
  mxQuantiseAll e.out x.round (pieces 32 ((slabValues e.fmt l).length / 32) (slabValues e.fmt l)) (x.gen 0)

/-- The state in which a slab of qmx leaves (R124). -/
noncomputable def qmxSent (t : State) (l : List Beat) (x : Slot) (e : Env) : State :=
  (if x.round = .sr then t.setGen (quantised x e l).2 else t).toBothIn 4 (mxSlab e.out (l.any (·.poi)) (quantised x e l).1)

theorem gen_quantised {x : Slot} {e : Env} {l : List Beat} (hl : l.length * (64 / e.fmt.w) % 32 = 0) :
    (quantised x e l).2 = stepped x (slabValues e.fmt l).length (x.gen 0) := by
  refine (gen_mxQuantiseAll ..).trans (congrArg (fun v : List FVal => stepped x v.length (x.gen 0)) ((flatten_pieces ..).trans ?_))
  rw [Nat.mul_div_cancel' (Nat.dvd_of_mod_eq_zero (length_slabValues _ l ▸ hl)), List.take_length]

theorem qmxSlab_completes (a : ElemArgs) (s : State) :
    Completes (.elQmx a) s (fun k => k * (64 / ((s.tile s.curTile).env s.el).fmt.w) % 32 = 0) State.qmxSlab := fun _ l hl =>
  ⟨_, _, fun t h => (congrArg (SlotGoes s · _) (congrArg₂ (qmxSent t l) h.el_eq h.el_env)).mpr ((h.setGen _ _).toBothIn rfl 4 _),
    fun _ _ _ => ⟨(gen_gensSet s.el _ _).trans ((congrArg (ite _ · _) (gen_quantised hl)).trans (stepped_ite ..)), rfl⟩,
    fun _ hz => Instr.noConfusion hz⟩

theorem length_slabOf (poi : Bool) (ds : List Nat) : (slabOf poi ds).length = ds.length := by
  refine (List.length_map ..).trans (List.length_zip.trans ?_)
  rw [List.length_range, min_self]

theorem poi_slabOf (poi : Bool) (ds : List Nat) : ∀ c ∈ slabOf poi ds, c.poi = poi :=
  List.forall_mem_map.2 fun q _ => (apply_ite Beat.poi ..).trans (by cases poi with | false => rfl | true => rfl)

theorem data_slabOf (ds : List Nat) (j : Nat) : ((slabOf false ds).getD j {}).data = wd (ds.getD j 0) := by
  have h : (slabOf false ds).map (·.data) = ds.map wd := calc
    (slabOf false ds).map (·.data) = (ds.zip (List.range ds.length)).map (wd ∘ Prod.fst) := List.map_map ..
    _ = ds.map wd := List.map_map.symm.trans (congrArg (List.map wd) (List.map_fst_zip List.length_range.ge))
  exact (List.getD_map (slabOf false ds) {} (·.data)).symm.trans ((congrArg (List.getD · j 0) h).trans (List.getD_map ds 0 wd))

/-- Lane q of codes packed into the data of a slab, n to a beat (R74, R93). -/
theorem lane_slabOf {w n k : Nat} (hw : w * n = 64) (codes : List Nat) {q : Nat} (hq : q < k) (hn : n ∣ k) :
    lane w ((slabOf false ((pieces n (k / n) codes).map (packLanes w))).getD (q / n) {}).data.toNat (q % n) = codes.getD q 0 % 2 ^ w := by
  have hpos : 0 < n := Nat.pos_of_dvd_of_pos hn (Nat.zero_lt_of_lt hq)
  have hd : ((pieces n (k / n) codes).map (packLanes w)).getD (q / n) 0 = packLanes w ((codes.drop (n * (q / n))).take n) :=
    (List.getD_map _ [] (packLanes w)).trans (congrArg (packLanes w) (getD_pieces n _ codes (Nat.div_lt_div_of_lt_of_dvd hn hq)))
  exact (congrArg (fun d : BitVec 64 => lane w d.toNat (q % n)) ((data_slabOf ..).trans (congrArg wd hd))).trans
    ((lane_wd_packLanes ((Nat.mul_le_mul_left w (List.length_take_le ..)).trans_eq hw) _).trans (congrArg (· % 2 ^ w)
      ((getD_take _ _ (Nat.mod_lt q hpos)).trans ((getD_drop ..).trans (congrArg (codes.getD · 0) (Nat.div_add_mod ..))))))

theorem dvd_length_flatMap {α β : Type} {f : α → List β} {n : Nat} (hf : ∀ x, (f x).length = n) (l : List α) :
    n ∣ (l.flatMap f).length := by
  induction l with
  | nil => exact ⟨0, rfl⟩
  | cons x l ih => exact List.length_append ▸ (Nat.dvd_add_right ⟨1, (hf x).trans (Nat.mul_one n).symm⟩).2 ih

/-- The values of an MX slab fill its blocks (R79). -/
theorem dvd_length_mxSlabValues (m : Fmt) : ∀ ds, 32 ∣ (mxSlabValues m ds).flatten.length
  | [] => ⟨0, rfl⟩
  | _ :: _ => dvd_length_flatMap (fun _ => (List.length_map ..).trans ((List.length_map ..).trans List.length_range)) _

/-- Values converted in order to the format of an element (R90). -/
noncomputable def dequantised (x : Slot) (m : Fmt) (vs : List FVal) (g : BitVec 32) : List (Nat × Bool) × BitVec 32 :=
  roundedCodes x m (fun i => (vs.getD i (.nan true)).exact) vs.length g

/-- The beats of values converted. -/
noncomputable def dequantisedBeats (x : Slot) (m : Fmt) (vs : List FVal) (g : BitVec 32) : List Nat :=
  (pieces (64 / m.w) (vs.length / (64 / m.w)) ((dequantised x m vs g).1.map (·.1))).map (packLanes m.w)

section

variable (x : Slot) (m : Fmt) (vs : List FVal) (g : BitVec 32)

/-- The generator steps for each value but where the target is .f64, which holds every MX value (R90). -/
theorem gen_dequantised : (if (x.round = .sr && !State.mxExact m) = true then (dequantised x m vs g).2 else g) =
    if m.code = 0x10 then g else stepped x vs.length g := by
  have hb : ((x.round = .sr && !State.mxExact m) = true) = (x.round = .sr ∧ ¬m.code = 0x10) :=
    propext (Bool.and_eq_true_iff.trans (and_congr decide_eq_true_iff ((Bool.not_eq_true' _).to_iff.trans decide_eq_false_iff_not)))
  by_cases hc : m.code = 0x10
  · exact (if_neg fun h => (hb.mp h).2 hc).trans (if_pos hc).symm
  · refine (ite_congr (hb.trans (propext (and_iff_left hc))) (fun _h => gen_roundedCodes ..) fun _h => rfl).trans
      ((stepped_ite ..).trans (if_neg hc).symm)

theorem lane_dequantised (hb : known m) (hk : m.kind = .float) (h32 : 32 ∣ vs.length) {q : Nat} (hq : q < vs.length) :
    lane m.w ((slabOf false (dequantisedBeats x m vs g)).getD (q / (64 / m.w)) {}).data.toNat (q % (64 / m.w)) =
      m.fl.roundExact m.b x.round (drawn x g q) (vs.getD q (.nan true)).exact := by
  have hn : ∀ w ∈ [8, 16, 32, 64], 64 / w ∣ 32 := by decide
  have hw := width_of_plain hb (.inr (.inl hk))
  exact (lane_slabOf (lanes_fill hw) _ hq ((hn _ hw).trans h32)).trans
    ((congrArg (· % 2 ^ m.w) (getD_roundedCodes x m _ _ g hq)).trans (Nat.mod_eq_of_lt (roundExact_lt_lane hb (.inl hk) ..)))

end

/-- The values of an MX slab (R79). -/
noncomputable def mxValues (e : Env) (l : List Beat) : List FVal := (mxSlabValues e.fmt (l.map fun c => c.data.toNat)).flatten

/-- The state in which a slab of dqmx leaves (R124). -/
noncomputable def dqmxSent (t : State) (l : List Beat) (x : Slot) (e : Env) : State :=
  (if x.round = .sr && !State.mxExact e.out then t.setGen (dequantised x e.out (mxValues e l) (x.gen 0)).2 else t).toBothIn 4
    (slabOf (l.any (·.poi)) (dequantisedBeats x e.out (mxValues e l) (x.gen 0)))

theorem dqmxSlab_completes (a : ElemArgs) (s : State) (ok : Nat → Prop) : Completes (.elDqmx a) s ok State.dqmxSlab := by
  refine fun r l _ => ⟨_, _, fun t h => (congrArg (SlotGoes s · _) (congrArg₂ (dqmxSent t l) h.el_eq h.el_env)).mpr
    ((h.setGen _ _).toBothIn rfl 4 _), fun _ hz => Instr.noConfusion hz, fun _ _ ho _ us hu => ?_⟩
  subst hu
  refine ⟨(length_slabOf ..).trans ((List.length_map ..).trans (length_pieces ..)),
    (gen_gensSet s.el _ _).trans (gen_dequantised s.el ..), poi_slabOf _ _, fun hp q hq => ?_⟩
  have h := lane_dequantised s.el _ _ (s.el.gen 0) (known_fmt ..) ho (dvd_length_mxSlabValues ..) hq
  exact (congrArg (fun p => lane _ ((slabOf p _).getD _ {}).data.toNat _) hp).trans h

theorem slabElement_qmx (a : ElemArgs) (s : State) : SlabElement (.elQmx a) s 0x3C a (256 / (64 / ((s.tile s.curTile).env s.el).fmt.w))
    (fun k => k * (64 / ((s.tile s.curTile).env s.el).fmt.w) % 32 = 0) State.qmxSlab :=
  ⟨State.qmxStep, _, rfl, fun _ => decide_eq_true, fun t => congrArg fun e : Env =>
    t.slabTurn (256 / (64 / e.fmt.w)) (fun k => k * (64 / e.fmt.w) % 32 = 0) State.qmxSlab⟩

theorem slabElement_dqmx (a : ElemArgs) (s : State) : SlabElement (.elDqmx a) s 0x3D a (1 + 8 * mxBeats ((s.tile s.curTile).env s.el).fmt)
    (fun k => 1 < k ∧ (k - 1) % mxBeats ((s.tile s.curTile).env s.el).fmt = 0) State.dqmxSlab :=
  ⟨State.dqmxStep, _, rfl, fun _ h => Bool.and_eq_true_iff.2 ⟨decide_eq_true h.1, decide_eq_true h.2⟩, fun t => congrArg fun e : Env =>
    t.slabTurn (1 + 8 * mxBeats e.fmt) (fun k => 1 < k && (k - 1) % mxBeats e.fmt = 0) State.dqmxSlab⟩

/-- A complete slab l has left run r, and what its instruction gives of it is to leave (R124). -/
def slabGiven (i : Instr) (s : State) (e : Env) (l : List Beat) (r : Run) : Prop :=
  ∃ t bs g, exec i s = .next t ∧ onlyHere s t ∧ (∀ o < 4, t.el.port o = (s.el.port o).drop (from1 0 1 o)) ∧ t.el.run = r ∧
    t.el.gen 0 = g ∧ t.el.out = s.el.out ∧ t.el.pipe = s.el.pipe ++ issuedBoth s.el (firstOut s 4) bs ∧ givesWhole i s e l g bs

theorem slabGiven_of_goes {i : Instr} {s t : State} {l : List Beat} {r : Run} {gens : Table (BitVec 32)} {bs : List Beat} {e : Env}
    (he : exec i s = .next t) (h : SlotGoes s t (slabIssued s r gens bs)) (hw : givesWhole i s e l ((withGens s.el gens).gen 0) bs) :
    slabGiven i s e l r := by
  obtain ⟨ho, h⟩ := h
  exact ⟨t, bs, _, he, ho, fun o h4 => (congrArg (·.port o) h).trans (slabbed_port s.el r o h4), (congrArg Slot.run h :),
    (congrArg (·.gen 0) h :), (congrArg Slot.out h :), (congrArg Slot.pipe h :), hw⟩

/-- A turn that completes a slab (R94, R124). -/
theorem slab_gives {i : Instr} {s : State} {op cap : Nat} {a : ElemArgs} {ok : Nat → Prop} {f : State → List Beat → State} {b : Beat}
    {l : List Beat} {e : Env} (hi : SlabElement i s op a cap ok f ∧ Completes i s ok f) (he : e = (s.tile s.curTile).env s.el)
    (h : canTurn s op a) (hb : headed s.el 0 b) (hd : s.el.run.drains = []) (hl : s.el.run.beats = l)
    (hk : ∀ ok' : Nat → Bool, (∀ n, ok n → ok' n = true) → slabStep false l cap ok' b = { done := some (l ++ [b]) })
    (hok : ok (l.length + 1)) : slabGiven i s e (l ++ [b]) (runWith s.el.run [] s.el.run.drains) := by
  subst he
  obtain ⟨gens, bs, hy, hw⟩ := hi.2 (runWith s.el.run [] s.el.run.drains) (l ++ [b]) (List.length_append ▸ hok)
  obtain ⟨t, he, h⟩ := slab_goes hi.1 h hb hd hl hk rfl hd.symm hy
  exact slabGiven_of_goes he h hw

/-- A whole-slab element: what f makes of its complete slabs. -/
def TakesSlabs (i : Instr) (s : State) (o : Option (Nat × ElemArgs × Nat × (Nat → Prop))) : Prop :=
  o.elim True fun p => SlabElement i s p.1 p.2.1 p.2.2.1 p.2.2.2 (slabMaker p.1) ∧ Completes i s p.2.2.2 (slabMaker p.1)

theorem takesSlabs {i : Instr} {s : State} {op cap : Nat} {a : ElemArgs} {ok : Nat → Prop} {e : Env}
    (he : e = (s.tile s.curTile).env s.el) (hop : slabOp e i = some (op, a, cap, ok))
    (ht : TakesSlabs i s (slabOp ((s.tile s.curTile).env s.el) i)) :
    SlabElement i s op a cap ok (slabMaker op) ∧ Completes i s ok (slabMaker op) := by
  subst he
  exact (congrArg (TakesSlabs i s) hop).mp ht

theorem slabs (ht : ∀ i s, TakesSlabs i s (slabOp ((s.tile s.curTile).env s.el) i)) : Claims.Slabs :=
  fun s i _op _a cap _ok b _l _e he hop h hb hl =>
  ⟨fun hd hs => slab_takes (takesSlabs he hop (ht i s)).1 h hb hd hl (fun ok' _h => slabStep_slabBeat hs ok') rfl hd.symm fun _t => rfl,
    fun hd h0 hk => slab_sends (takesSlabs he hop (ht i s)).1 h hb hd (hl.trans h0) (fun ok' _h => slabStep_stray hk cap ok')
      (hl.trans h0).symm hd.symm fun _t _y g hp => g.malformed hp,
    fun hd h0 hk => slab_sends (takesSlabs he hop (ht i s)).1 h hb hd (hl.trans h0) (fun ok' _h => slabStep_loopend hk cap ok')
      (hl.trans h0).symm hd.symm fun _t _y g hp => g.sendSlab hp [b],
    fun hd hn hk hc => slab_sends (takesSlabs he hop (ht i s)).1 h hb hd hl (fun ok' _h => slabStep_long hn hk hc ok') rfl rfl
      fun _t _y g hp => g.malformed hp,
    fun hd h0 hk => slab_takes (takesSlabs he hop (ht i s)).1 h hb hd (hl.trans h0) (fun ok' _h => slabStep_discards hk cap ok')
      (hl.trans h0).symm (if_congr decide_eq_true_iff rfl rfl) fun _t => rfl,
    fun hd hn hk hc hok => slab_gives (takesSlabs he hop (ht i s)) he h hb hd hl (fun _ok ho => slabStep_whole hn hk hc (ho _ hok)) hok⟩

/-! ## The scale of a block (R80) -/

/-- A value that is NaN or an infinity. -/
noncomputable def unscaled (v : FVal) : Bool :=
  match v with
  | .nan _ | .inf _ => true
  | _ => false

/-- The exponent of a value that is finite and not zero. -/
noncomputable def expOf (v : FVal) : Option Int :=
  match v with
  | .fin z k => some (k + Nat.log2 z.natAbs)
  | _ => none

/-- The scale of finite values of which those that are not zero have exponents l (R80). -/
noncomputable def scaleOf (m : Fmt) (l : List Int) : Nat :=
  match l with
  | [] => 0
  | e :: t =>
    let x := t.foldl (fun a b => if a < b then b else a) e - mxEmax m
    if x < -127 then 0 else if 127 < x then 254 else (x + 127).toNat

theorem mxScale_of_finite {m : Fmt} {vs : List FVal} (h : ∀ v ∈ vs, unscaled v = false) : mxScale m vs = scaleOf m (vs.filterMap expOf) :=
  if_neg fun hany => (List.any_eq_true.1 hany).elim fun v hv => absurd hv.2 (Bool.eq_false_iff.1 (h v hv.1))

/-- A fold that keeps the greater finds the greatest. -/
theorem foldl_greatest {E a : Int} {l : List Int} (h : ∀ x ∈ a :: l, x ≤ E) (hm : E ∈ a :: l) :
    l.foldl (fun a b => if a < b then b else a) a = E :=
  (congrArg (List.foldl · a l) (funext fun a => funext fun b => (max_def_lt (a : Int) b).symm)).trans (Option.some.inj
    (List.max?_cons'.symm.trans (List.max?_eq_some_iff.2 ⟨hm, h⟩)))

theorem clamp_scale (x : Int) :
    ((if x < -127 then 0 else if 127 < x then 254 else (x + 127).toNat : Nat) : Int) = max 0 (min 254 (x + 127)) := by
  by_cases h : x < -127
  · exact (congrArg Nat.cast (if_pos h)).trans (max_eq_left ((min_le_right ..).trans (le_neg_iff_add_nonpos_right.1 h.le))).symm
  refine (congrArg Nat.cast (if_neg h)).trans ?_
  by_cases h' : 127 < x
  · have hx : min 254 (x + 127) = 254 := min_eq_left (Int.add_le_add_right h'.le 127)
    exact (congrArg Nat.cast (if_pos h')).trans (congrArg (max (0 : Int)) hx).symm
  · exact (congrArg Nat.cast (if_neg h')).trans ((Int.toNat_eq_max _).trans ((max_comm ..).trans
      (congrArg (max 0) (min_eq_right (Int.add_le_add_right (not_lt.1 h') 127 : x + 127 ≤ 254)).symm)))

theorem scaleOf_greatest {m : Fmt} {l : List Int} {E : Int} (h : ∀ x ∈ l, x ≤ E) (hm : E ∈ l) :
    (scaleOf m l : Int) = max 0 (min 254 (E - mxEmax m + 127)) := by
  induction l with
  | nil => exact absurd hm List.not_mem_nil
  | cons e t _ => exact (clamp_scale _).trans (congrArg (fun x => max 0 (min 254 (x - mxEmax m + 127))) (foldl_greatest h hm))

/-- The exponent of a value, of its magnitude (R80). -/
theorem lt_two_pow_iff {z : Int} (k E : Int) (hz : z ≠ 0) :
    |(z : ℚ)| * (2 : ℚ) ^ k < (2 : ℚ) ^ E ↔ k + (Nat.log2 z.natAbs : Int) < E := by
  have hlog : Int.log 2 |(z : ℚ)| = Nat.log2 z.natAbs :=
    (congrArg (Int.log 2) (Int.cast_abs.symm.trans (Nat.cast_natAbs z).symm)).trans ((Int.log_natCast ..).trans
      (congrArg Nat.cast Nat.log2_eq_log_two.symm))
  exact (lt_div_iff₀ (zpow_pos two_pos k)).symm.trans ((iff_of_eq (congrArg (|(z : ℚ)| < ·) (zpow_sub₀ two_ne_zero E k).symm)).trans
    ((Int.lt_zpow_iff_log_lt Nat.one_lt_two (abs_pos.2 (Int.cast_ne_zero.2 hz))).trans (hlog ▸ lt_sub_iff_add_lt')))

theorem mxEmax_eq {m : Fmt} (h : m.code = 0x18 ∨ m.code = 0x19 ∨ m.code = 0x1A ∨ m.code = 0x1B ∨ m.code = 0x1C) :
    mxEmax m = emaxOf m := by
  have hc : ∀ c, mxEmax { code := c } = emaxOf { code := c } → m.code = c → mxEmax m = emaxOf m := fun c h e => by
    subst e
    exact h
  exact h.elim (hc _ rfl) (·.elim (hc _ rfl) (·.elim (hc _ rfl) (·.elim (hc _ rfl) (hc _ rfl))))

/-- The exponent of a value below 2^(E + 1). -/
theorem expOf_le {v : FVal} {E x : Int}
    (h : (∃ n, v = .zero n) ∨ ∃ z k : Int, v = .fin z k ∧ z ≠ 0 ∧ |(z : ℚ)| * (2 : ℚ) ^ k < (2 : ℚ) ^ (E + 1)) (hx : expOf v = some x) :
    x ≤ E := by
  rcases h with ⟨n, rfl⟩ | ⟨z, k, rfl, hz, hlt⟩
  · exact nomatch hx
  · exact Option.some.inj hx ▸ Int.lt_add_one_iff.1 ((lt_two_pow_iff k _ hz).1 hlt)

theorem blockScale : BlockScale := fun m vs hm =>
  ⟨fun h => if_pos (List.any_eq_true.2 (h.imp fun _v h => h.imp_right fun h => h.elim (fun h => h.elim fun _q e => congrArg unscaled e)
      fun h => h.elim fun _n e => congrArg unscaled e)),
    fun h => (mxScale_of_finite fun v hv => (h v hv).elim fun _n e => congrArg unscaled e).trans
      (congrArg (scaleOf m) (List.filterMap_eq_nil_iff.2 fun v hv => (h v hv).elim fun _n e => congrArg expOf e)),
    fun E h hE => (congrArg Nat.cast (mxScale_of_finite fun v hv => (h v hv).elim (fun h => h.elim fun _n e => congrArg unscaled e)
        fun h => h.elim fun _z h => h.elim fun _k h => congrArg unscaled h.1)).trans
      ((congrArg (fun x => ((scaleOf m (vs.filterMap expOf) : Nat) : Int) = max 0 (min 254 (E - x + 127))) (mxEmax_eq hm)).mp
        (scaleOf_greatest (fun _x hx => (List.mem_filterMap.1 hx).elim fun v hv => expOf_le (h v hv.1) hv.2)
          (hE.elim fun z h' => h'.elim fun k h' =>
            have hz : z ≠ 0 := Int.cast_ne_zero.1 (abs_ne_zero.1 (left_ne_zero_of_mul ((zpow_pos two_pos E).trans_le h'.2).ne'))
            List.mem_filterMap.2 ⟨_, h'.1, congrArg some ((expOf_le (h _ h'.1) rfl).antisymm
              (not_lt.1 (mt (lt_two_pow_iff k E hz).2 (not_lt.2 h'.2))))⟩)))⟩

/-! ## The word operations, told (R110) -/

/-- What instruction i rounds of R115's exact value, or of R117's functions, or converts, it issues, and it takes slabs where it is a
whole-slab element; dott's bytes are trits (R81). -/
def Told (s : State) (i : Instr) (exact : Option (Fmt → List Nat → Val)) (function : Option (FVal → Exact))
    (conv : Option (Env → BitVec 32 → List Nat → Reply → Prop)) (slab : Option (Nat × ElemArgs × Nat × (Nat → Prop))) : Prop :=
  (exact.elim True fun f => ((s.tile s.curTile).fmt s.el.fsel).kind = .float →
    fires (rounded fun m v x => Val.ofExact x = f m v) i s) ∧
  (function.elim True fun f => ((s.tile s.curTile).fmt s.el.fsel).kind = .float →
    fires (rounded fun m v x => x = f (m.fl.decode m.b.daz (v.getD 0 0))) i s) ∧
  (conv.elim True fun P => convertible ((s.tile s.curTile).env s.el) i →
    (∀ a, i = .elDott a → ∀ o < 2, ∀ k < s.el.copies, ∀ j < 8, lane 8 (operand s.el o k).data.toNat j < 243) → fires P i s) ∧
  TakesSlabs i s slab

/-- Of an instruction that is none of those nothing is told. -/
theorem nothing_told : True ∧ True ∧ True ∧ True := ⟨trivial, trivial, trivial, trivial⟩

section

variable {s : State} {i : Instr} (op : Nat) (a : ElemArgs) (hop : decide (op < 0x50) = true)
  (hi : firingOf i = some ⟨op, a, wordReads op, latOf op⟩)
include hop hi

theorem told_arithmetic {f : Fmt → List Nat → Val} (h : RMode → List FVal → Exact)
    (hr : ∀ s, exec i s = .next (s.fire op a (perRounded h)))
    (hv : ∀ (m : Fmt) (c : Nat → Nat), Val.ofExact (h s.el.round (((wordReads op).map c).map m.val)) = f m ((wordReads op).map c)) :
    Told s i (some f) none none none :=
  ⟨fun hf => fires_of_computes hop hi hr fun _ _ => replies_perRounded (known_fmt ..) hf h _ _ _ (hv _), trivial, trivial, trivial⟩

theorem told_function (f : FVal → Exact) (hw : wordReads op = [0])
    (hr : ∀ s, exec i s = .next (s.fire op a (perRounded fun _ v => f (arg (.nan true) v 0)))) :
    Told s i none (some f) none none :=
  ⟨trivial, fun hf => fires_of_computes hop hi hr fun _ _ => replies_perRounded (known_fmt ..) hf _ _ _ _ fun c =>
    by rw [hw]; rfl, trivial, trivial⟩

theorem told_conversion {c : Compute} {P : Env → BitVec 32 → List Nat → Reply → Prop}
    (hr : ∀ s, exec i s = .next (s.fire op a c)) (h : convertible ((s.tile s.curTile).env s.el) i → ∀ g w,
      (∀ a, i = .elDott a → ∀ o < 2, ∀ j < 8, lane 8 (w o) j < 243) →
      ∃ q, replies c ((s.tile s.curTile).env s.el) g ((wordReads op).map w) q ∧
        P ((s.tile s.curTile).env s.el) g ((wordReads op).map w) q) : Told s i none none (some P) none :=
  ⟨trivial, trivial, fun hc hw => fires_of_computes hop hi hr fun k hk => h hc _ _ fun a ha o ho => hw a ha o ho k hk, trivial⟩

end

theorem of_one : Val.of (.fin 1 0) = .real 1 := congrArg Val.real ((mul_one _).trans Int.cast_one)

-- The operands that no case names then have one name in every case.
set_option tactic.hygienic false in
theorem wordOp_told (s : State) (i : Instr) : Told s i (exactOf s.el.round i) (functionOf i) (conversion s.el i)
    (slabOp ((s.tile s.curTile).env s.el) i) := by
  have he : known ((s.tile s.curTile).env s.el).fmt := known_fmt ..
  have hb : known ((s.tile s.curTile).env s.el).out := known_fmt ..
  induction i with
  | elFma a => exact told_arithmetic 0x10 a rfl rfl _ (fun _ => rfl) fun _ _ => ofExact_fma ..
  | elFadd a => exact told_arithmetic 0x11 a rfl rfl _ (fun _ => rfl) fun _ _ => ofExact_add ..
  | elFsub a =>
    exact told_arithmetic 0x12 a rfl rfl _ (fun _ => rfl) fun _ _ => (ofExact_add ..).trans (congrArg _ (of_negate _))
  | elFmul a => exact told_arithmetic 0x13 a rfl rfl _ (fun _ => rfl) fun _ _ => ofExact_mul ..
  | elFdiv a => exact told_arithmetic 0x14 a rfl rfl _ (fun _ => rfl) fun _ _ => ofExact_div ..
  | elFrcp a =>
    exact told_arithmetic 0x1A a rfl rfl _ (fun _ => rfl) fun _ _ => (ofExact_div ..).trans (congrArg (Val.div · _) of_one)
  | elFsqrt a => exact told_function 0x15 a rfl rfl FVal.sqrt rfl fun _ => rfl
  | elFrsqrt a => exact told_function 0x1B a rfl rfl FVal.rsqrt rfl fun _ => rfl
  | elFexp2 a => exact told_function 0x1C a rfl rfl FVal.exp2 rfl fun _ => rfl
  | elFlog2 a => exact told_function 0x1D a rfl rfl FVal.log2 rfl fun _ => rfl
  | elFsinpi a => exact told_function 0x1E a rfl rfl FVal.sinpi rfl fun _ => rfl
  | elFcospi a => exact told_function 0x1F a rfl rfl FVal.cospi rfl fun _ => rfl
  | elCvt a => exact told_conversion (P := Gives s.el (.elCvt a)) 0x38 a rfl rfl (fun _ => rfl) fun h g w _ =>
      cvt_gives a he hb h g _
  | elCvts a => exact told_conversion (P := Gives s.el (.elCvts a)) 0x39 a rfl rfl (fun _ => rfl) fun h g w _ =>
      cvts_gives a he hb h g _
  | elPack a => exact told_conversion (P := Gives s.el (.elPack a)) 0x3A a rfl rfl (fun _ => rfl) fun h g w _ =>
      pack_gives a he hb h g _
  | elUnpack a => exact told_conversion (P := Gives s.el (.elUnpack a)) 0x3B a rfl rfl (fun _ => rfl) fun h g w _ =>
      unpack_gives a he hb h g _
  | elBcast a => exact told_conversion (P := Gives s.el (.elBcast a)) 0x3E a rfl rfl (fun _ => rfl) fun h g w _ =>
      bcast_gives a he h g _
  | elDot a => exact told_conversion (P := Gives s.el (.elDot a)) 0x40 a rfl rfl (fun _ => rfl) fun h g w _ =>
      dot_gives a hb h g w
  | elDott a => exact told_conversion (P := Gives s.el (.elDott a)) 0x42 a rfl rfl (fun _ => rfl) fun h g w hw =>
      dott_gives a hb h g w (hw a rfl)
  | elQmx a => exact ⟨trivial, trivial, trivial, slabElement_qmx a s, qmxSlab_completes a s⟩
  | elDqmx a => exact ⟨trivial, trivial, trivial, slabElement_dqmx a s, dqmxSlab_completes a s _⟩
  | _ => exact nothing_told

theorem of_elim {α : Type} {P : α → Prop} {o : Option α} (h : o.elim True P) (x : α) (hx : o = some x) : P x := by
  subst hx
  exact h

/-- Settles O28: every lane is Round of one exact value, drawn with the copy's generator as its own step leaves it. -/
theorem floatingArithmetic : Obligations.FloatingArithmetic := fun s i hf =>
  ⟨fun f hi => of_elim (wordOp_told s i).1 f hi hf, fun f hi => of_elim (wordOp_told s i).2.1 f hi hf⟩

/-- Settles O31: every lane is converted once, and the generator steps once for each that is rounded. -/
theorem conversions : Obligations.Conversions := fun s i => of_elim (wordOp_told s i).2.2.1

/-- Settles O36: the scale is the greatest exponent's, and a whole-slab element's turn is a step of its slab. -/
theorem blocksAndSlabs : Obligations.BlocksAndSlabs := ⟨blockScale, slabs fun i s => (wordOp_told s i).2.2.2⟩

end Sys2Proof.Claims
